-- ==== Sys2Proof/Syntax.lean ====
section
/-! DEFINITION. The instructions of the Ubondell W2: one constructor per row of spec/opcode_table.json.
Register specifiers stay the 6-bit and 5-bit numbers of R69, because a repeat frame adds to them (R87). The rows
without a word are the engine commands (R91) and the events of 95_what_each_step_holds.md; their operands name the
unit the step happens at. -/

namespace Sys2Proof

/-- The stream marker M of a word (R15): `A` is the address stream (M = 1), `C` the compute stream (M = 0). -/
inductive Stream where
  | A
  | C
deriving DecidableEq, Repr

/-- The element types of R43 and R44, in the order of their codes 0 to 9. -/
inductive VType where
  | i8
  | u8
  | i16
  | u16
  | i32
  | u32
  | bf16
  | fp32
  | e4m3
  | e5m2
deriving DecidableEq, Repr

/-- The ordering field of the atomics (R79). -/
inductive MemOrder where
  | rlx
  | acq
  | rel
  | ar
deriving DecidableEq, Repr

/-- The scope of `acq` and `rel` (R78): `.t`, `.g`, `.h`. -/
inductive Scope where
  | t
  | g
  | h
deriving DecidableEq, Repr

/-- The conditions of `vcmp` (R80). -/
inductive VCond where
  | eq
  | ne
  | lt
  | le
  | gt
  | ge
  | ord
  | unord
deriving DecidableEq, Repr

/-- The directions of a reduction (R80). -/
inductive RedDir where
  | rows
  | cols
  | all
deriving DecidableEq, Repr

/-- What waits (R42): a stream of a context, or matrix work that waits for tokens of an engine holding (R192), or a
launch request of a task (R365). -/
inductive WaitRef where
  | ctx (site slot : Nat) (st : Stream)
  | array (site : Nat)
  | request (idx : Nat)
deriving DecidableEq, Repr

/-- A register that the outside writes: of an interface's page (R351), or of configuration space (R395). -/
inductive RegRef where
  | page (vi : Nat) (off : BitVec 12)
  | cfg (addr : BitVec 32)
deriving DecidableEq, Repr

/-- A root-port request (R405): DMA, an MSI-X write of a vector, and the two kinds that are not supported. -/
inductive Dma where
  | read (va : BitVec 64) (len : Nat)
  | write (va : BitVec 64) (bytes : List (BitVec 8))
  | msix (vec : BitVec 8)
  | peer
  | ats
deriving DecidableEq, Repr

/-- One constructor per row of spec/opcode_table.json, in the table's order. -/
inductive Instr where
  /-- R93: Adds two 64-bit registers modulo 2^64 and writes d. -/
  | add (m : Stream) (d : BitVec 6) (a : BitVec 6) (b : BitVec 6)
  /-- R93: Subtracts b from a modulo 2^64. -/
  | sub (m : Stream) (d : BitVec 6) (a : BitVec 6) (b : BitVec 6)
  /-- R93: Bitwise and of two registers. -/
  | and (m : Stream) (d : BitVec 6) (a : BitVec 6) (b : BitVec 6)
  /-- R93: Bitwise or of two registers. -/
  | or (m : Stream) (d : BitVec 6) (a : BitVec 6) (b : BitVec 6)
  /-- R93: Bitwise exclusive or of two registers. -/
  | xor (m : Stream) (d : BitVec 6) (a : BitVec 6) (b : BitVec 6)
  /-- R93: Shifts a left by b[5:0]. -/
  | sll (m : Stream) (d : BitVec 6) (a : BitVec 6) (b : BitVec 6)
  /-- R93: Shifts a right by b[5:0] with zero fill. -/
  | srl (m : Stream) (d : BitVec 6) (a : BitVec 6) (b : BitVec 6)
  /-- R93: Shifts a right by b[5:0] with sign fill. -/
  | sra (m : Stream) (d : BitVec 6) (a : BitVec 6) (b : BitVec 6)
  /-- R93: Writes 1 if a is less than b signed, else 0. -/
  | slt (m : Stream) (d : BitVec 6) (a : BitVec 6) (b : BitVec 6)
  /-- R93: Writes 1 if a is less than b unsigned, else 0. -/
  | sltu (m : Stream) (d : BitVec 6) (a : BitVec 6) (b : BitVec 6)
  /-- R93: Writes the signed minimum of a and b. -/
  | min (m : Stream) (d : BitVec 6) (a : BitVec 6) (b : BitVec 6)
  /-- R93: Writes the signed maximum of a and b. -/
  | max (m : Stream) (d : BitVec 6) (a : BitVec 6) (b : BitVec 6)
  /-- R93: Writes the unsigned minimum of a and b. -/
  | minu (m : Stream) (d : BitVec 6) (a : BitVec 6) (b : BitVec 6)
  /-- R93: Writes the unsigned maximum of a and b. -/
  | maxu (m : Stream) (d : BitVec 6) (a : BitVec 6) (b : BitVec 6)
  /-- R93: Writes the low 64 bits of a times b. -/
  | mul (m : Stream) (d : BitVec 6) (a : BitVec 6) (b : BitVec 6)
  /-- R93: Writes the high 64 bits of the signed product. -/
  | mulh (m : Stream) (d : BitVec 6) (a : BitVec 6) (b : BitVec 6)
  /-- R93: Writes the high 64 bits of the unsigned product. -/
  | mulhu (m : Stream) (d : BitVec 6) (a : BitVec 6) (b : BitVec 6)
  /-- R94: Signed division toward zero, saturating instead of trapping. -/
  | div (m : Stream) (d : BitVec 6) (a : BitVec 6) (b : BitVec 6)
  /-- R94: Unsigned division, saturating on a zero divisor. -/
  | divu (m : Stream) (d : BitVec 6) (a : BitVec 6) (b : BitVec 6)
  /-- R94: Signed remainder with the sign of a, 0 in saturated cases. -/
  | rem (m : Stream) (d : BitVec 6) (a : BitVec 6) (b : BitVec 6)
  /-- R94: Unsigned remainder, 0 in saturated cases. -/
  | remu (m : Stream) (d : BitVec 6) (a : BitVec 6) (b : BitVec 6)
  /-- R93: Counts leading zero bits of a. -/
  | clz (m : Stream) (d : BitVec 6) (a : BitVec 6)
  /-- R93: Counts trailing zero bits of a. -/
  | ctz (m : Stream) (d : BitVec 6) (a : BitVec 6)
  /-- R93: Counts one bits of a. -/
  | popc (m : Stream) (d : BitVec 6) (a : BitVec 6)
  /-- R93: Writes (a << 1) + b. -/
  | addsl1 (m : Stream) (d : BitVec 6) (a : BitVec 6) (b : BitVec 6)
  /-- R93: Writes (a << 2) + b. -/
  | addsl2 (m : Stream) (d : BitVec 6) (a : BitVec 6) (b : BitVec 6)
  /-- R93: Writes (a << 3) + b. -/
  | addsl3 (m : Stream) (d : BitVec 6) (a : BitVec 6) (b : BitVec 6)
  /-- R93: Writes (a << 4) + b. -/
  | addsl4 (m : Stream) (d : BitVec 6) (a : BitVec 6) (b : BitVec 6)
  /-- R95: Adds a sign-extended 13-bit immediate. -/
  | addi (m : Stream) (d : BitVec 6) (a : BitVec 6) (i : BitVec 13)
  /-- R95: Ands a sign-extended 13-bit immediate. -/
  | andi (m : Stream) (d : BitVec 6) (a : BitVec 6) (i : BitVec 13)
  /-- R95: Ors a sign-extended 13-bit immediate. -/
  | ori (m : Stream) (d : BitVec 6) (a : BitVec 6) (i : BitVec 13)
  /-- R95: Xors a sign-extended 13-bit immediate. -/
  | xori (m : Stream) (d : BitVec 6) (a : BitVec 6) (i : BitVec 13)
  /-- R95: Writes 1 if a is below the immediate, signed. -/
  | slti (m : Stream) (d : BitVec 6) (a : BitVec 6) (i : BitVec 13)
  /-- R96: Shifts left by an immediate amount. -/
  | slli (m : Stream) (d : BitVec 6) (a : BitVec 6) (s : BitVec 6)
  /-- R96: Shifts right by an immediate with zero fill. -/
  | srli (m : Stream) (d : BitVec 6) (a : BitVec 6) (s : BitVec 6)
  /-- R96: Shifts right by an immediate with sign fill. -/
  | srai (m : Stream) (d : BitVec 6) (a : BitVec 6) (s : BitVec 6)
  /-- R97: Writes a sign-extended 19-bit immediate, or pushes it to a writable queue. -/
  | li (m : Stream) (d : BitVec 6) (i : BitVec 19)
  /-- R97: Shifts d left by 19 and ors in a 19-bit immediate. -/
  | lih (m : Stream) (d : BitVec 6) (i : BitVec 19)
  /-- R98: Extracts a sign-extended bit field. -/
  | bfx (m : Stream) (d : BitVec 6) (a : BitVec 6) (p : BitVec 6) (w : BitVec 6)
  /-- R98: Extracts a zero-extended bit field. -/
  | bfxu (m : Stream) (d : BitVec 6) (a : BitVec 6) (p : BitVec 6) (w : BitVec 6)
  /-- R98: Inserts the low w bits of a into d at position p. -/
  | bfi (m : Stream) (d : BitVec 6) (a : BitVec 6) (p : BitVec 6) (w : BitVec 6)
  /-- R99: Computes this tile's share of N items along grid axis x. -/
  | part (d : BitVec 6) (a : BitVec 6) (b : BitVec 6)
  /-- R99: Computes this tile's share of N items along grid axis y. -/
  | partY (d : BitVec 6) (a : BitVec 6) (b : BitVec 6)
  /-- R100: FP32 addition, correctly rounded, with flags or SWTRAP. -/
  | fadd (d : BitVec 6) (a : BitVec 6) (b : BitVec 6)
  /-- R100: FP32 subtraction. -/
  | fsub (d : BitVec 6) (a : BitVec 6) (b : BitVec 6)
  /-- R100: FP32 multiplication. -/
  | fmul (d : BitVec 6) (a : BitVec 6) (b : BitVec 6)
  /-- R100: FP32 fused multiply-add into d, rounded once. -/
  | ffma (d : BitVec 6) (a : BitVec 6) (b : BitVec 6)
  /-- R100: FP32 minimum as R45. -/
  | fmin (d : BitVec 6) (a : BitVec 6) (b : BitVec 6)
  /-- R100: FP32 maximum as R45. -/
  | fmax (d : BitVec 6) (a : BitVec 6) (b : BitVec 6)
  /-- R100: FP32 equality test writing an integer 1 or 0. -/
  | feq (d : BitVec 6) (a : BitVec 6) (b : BitVec 6)
  /-- R100: FP32 less-than test; NaN sets IV. -/
  | flt (d : BitVec 6) (a : BitVec 6) (b : BitVec 6)
  /-- R100: FP32 less-or-equal test; NaN sets IV. -/
  | fle (d : BitVec 6) (a : BitVec 6) (b : BitVec 6)
  /-- R100: Converts a signed 64-bit integer to FP32. -/
  | fcvtSI (d : BitVec 6) (a : BitVec 6)
  /-- R100: Converts FP32 to a signed 64-bit integer, saturating. -/
  | fcvtIS (d : BitVec 6) (a : BitVec 6)
  /-- R102: Branches when the register is zero. -/
  | beqz (a : BitVec 6) (o : BitVec 15)
  /-- R102: Branches when the register is non-zero. -/
  | bnez (a : BitVec 6) (o : BitVec 15)
  /-- R102: Branches when the register is negative. -/
  | bltz (a : BitVec 6) (o : BitVec 15)
  /-- R102: Branches when the register is zero or positive. -/
  | bgez (a : BitVec 6) (o : BitVec 15)
  /-- R102: Branches when the register is positive. -/
  | bgtz (a : BitVec 6) (o : BitVec 15)
  /-- R102: Branches when the register is zero or negative. -/
  | blez (a : BitVec 6) (o : BitVec 15)
  /-- R103: Writes PC+4 to d and jumps by a word offset. -/
  | jal (d : BitVec 6) (o : BitVec 19)
  /-- R104: Jumps to register plus word offset and links. -/
  | jalr (d : BitVec 6) (a : BitVec 6) (i : BitVec 13)
  /-- R105: Captures the next 16 C-stream words and replays them n times with renamed registers. -/
  | rpt (n : BitVec 8) (k : BitVec 6)
  /-- R106: Does nothing. -/
  | nop (m : Stream)
  /-- R107: Ends the task after draining its work, releasing in domain 0 or finishing for commit. -/
  | done
  /-- R108: Lets the selection logic choose again among candidates. -/
  | yield
  /-- R109: Releases, arrives at the launch's step phase, waits for it and acquires. -/
  | step
  /-- R110: Safe point that saves the task image when a pre-emption request can be honoured. -/
  | safept (n : BitVec 8)
  /-- R111: Raises SWTRAP with detail n; the task is held. -/
  | trap (n : BitVec 8)
  /-- R111: Raises BRK with detail n; the task is held. -/
  | brk (n : BitVec 8)
  /-- R112: Reads a system register into d. -/
  | sysrd (m : Stream) (d : BitVec 6) (r : BitVec 6)
  /-- R112: Writes a system register from a, subject to access rules. -/
  | syswr (m : Stream) (a : BitVec 6) (r : BitVec 6)
  /-- R115: Asks the Drover for the task's holding to reach a target. -/
  | tokreq (d : BitVec 6) (a : BitVec 6)
  /-- R117: Returns tokens, notice tokens first, and cancels any open request. -/
  | tokret (d : BitVec 6) (a : BitVec 6)
  /-- R118: Lends tokens to the task running on a named tile. -/
  | toklend (d : BitVec 6) (a : BitVec 6) (b : BitVec 6)
  /-- R116: Blocks until WANT is zero. -/
  | tokwait (d : BitVec 6)
  /-- R119: Reads HELD, NOTICE, LEFT and WANT at one moment. -/
  | tokq (d : BitVec 6)
  /-- R124: Loads a sign-extended byte. -/
  | ldB (d : BitVec 6) (b : BitVec 6) (s : BitVec 3) (o : BitVec 7)
  /-- R124: Loads a zero-extended byte. -/
  | ldBu (d : BitVec 6) (b : BitVec 6) (s : BitVec 3) (o : BitVec 7)
  /-- R124: Loads a sign-extended half. -/
  | ldH (d : BitVec 6) (b : BitVec 6) (s : BitVec 3) (o : BitVec 7)
  /-- R124: Loads a zero-extended half. -/
  | ldHu (d : BitVec 6) (b : BitVec 6) (s : BitVec 3) (o : BitVec 7)
  /-- R124: Loads a sign-extended word. -/
  | ldW (d : BitVec 6) (b : BitVec 6) (s : BitVec 3) (o : BitVec 7)
  /-- R124: Loads a zero-extended word. -/
  | ldWu (d : BitVec 6) (b : BitVec 6) (s : BitVec 3) (o : BitVec 7)
  /-- R124: Loads a doubleword. -/
  | ldD (d : BitVec 6) (b : BitVec 6) (s : BitVec 3) (o : BitVec 7)
  /-- R124: Stores a byte. -/
  | stB (d : BitVec 6) (b : BitVec 6) (s : BitVec 3) (o : BitVec 7)
  /-- R124: Stores a half. -/
  | stH (d : BitVec 6) (b : BitVec 6) (s : BitVec 3) (o : BitVec 7)
  /-- R124: Stores a word. -/
  | stW (d : BitVec 6) (b : BitVec 6) (s : BitVec 3) (o : BitVec 7)
  /-- R124: Stores a doubleword. -/
  | stD (d : BitVec 6) (b : BitVec 6) (s : BitVec 3) (o : BitVec 7)
  /-- R126: Waits for full, loads a word, leaves it full. -/
  | ldfW (d : BitVec 6) (b : BitVec 6) (s : BitVec 3) (o : BitVec 7)
  /-- R126: Waits for both tags full, loads a doubleword, leaves it full. -/
  | ldfD (d : BitVec 6) (b : BitVec 6) (s : BitVec 3) (o : BitVec 7)
  /-- R126: Waits for full, loads a word, marks it empty. -/
  | ldtW (d : BitVec 6) (b : BitVec 6) (s : BitVec 3) (o : BitVec 7)
  /-- R126: Waits for full, loads a doubleword, marks it empty. -/
  | ldtD (d : BitVec 6) (b : BitVec 6) (s : BitVec 3) (o : BitVec 7)
  /-- R126: Waits for empty, stores a word, marks it full. -/
  | stfW (d : BitVec 6) (b : BitVec 6) (s : BitVec 3) (o : BitVec 7)
  /-- R126: Waits for empty, stores a doubleword, marks it full. -/
  | stfD (d : BitVec 6) (b : BitVec 6) (s : BitVec 3) (o : BitVec 7)
  /-- R126: Stores a word and marks it full without waiting. -/
  | stxW (d : BitVec 6) (b : BitVec 6) (s : BitVec 3) (o : BitVec 7)
  /-- R126: Stores a doubleword and marks it full without waiting. -/
  | stxD (d : BitVec 6) (b : BitVec 6) (s : BitVec 3) (o : BitVec 7)
  /-- R128: Loads a shaped tile with a row pitch through a window into vq0 or vq1. -/
  | vld (v : BitVec 5) (a : BitVec 6) (b : BitVec 6) (s : BitVec 3)
  /-- R129: Pops vq2 or vq3 and stores a shaped tile with a row pitch. -/
  | vst (v : BitVec 5) (a : BitVec 6) (b : BitVec 6) (s : BitVec 3)
  /-- R128: Loads a shaped tile whose rows an index table places. -/
  | vldx (v : BitVec 5) (a : BitVec 6) (b : BitVec 6) (s : BitVec 3)
  /-- R129: Stores a shaped tile whose rows an index table places. -/
  | vstx (v : BitVec 5) (a : BitVec 6) (b : BitVec 6) (s : BitVec 3)
  /-- R128: Loads one element per row and broadcasts it across the columns. -/
  | vldb (v : BitVec 5) (a : BitVec 6) (b : BitVec 6) (s : BitVec 3)
  /-- R132: Acquire at scope t, g or h. -/
  | acq (s : Scope)
  /-- R131: Release at scope t, g or h, writing back L1 for g and HBM for h. -/
  | rel (s : Scope)
  /-- R133: Waits for all earlier accesses of both streams before any later word. -/
  | fence
  /-- R135: Writes back dirty L1 lines of a range. -/
  | cwb (a : BitVec 6) (b : BitVec 6)
  /-- R135: Writes back and invalidates L1 lines of a range. -/
  | cinv (a : BitVec 6) (b : BitVec 6)
  /-- R135: Drops lines of a range everywhere without write-back. -/
  | disc (a : BitVec 6) (b : BitVec 6)
  /-- R135: Prefetches lines of a range into the L1. -/
  | pf (a : BitVec 6) (b : BitVec 6)
  /-- R135: Prefetches lines of a range into their home slices. -/
  | pf2 (a : BitVec 6) (b : BitVec 6)
  /-- R136: Queues migration of an unbacked page to another home field. -/
  | pmig (a : BitVec 6) (b : BitVec 6)
  /-- R127: Marks every word of a local range full. -/
  | fefill (a : BitVec 6) (b : BitVec 6)
  /-- R127: Marks every word of a local range empty. -/
  | feempty (a : BitVec 6) (b : BitVec 6)
  /-- R138: Atomic 64-bit add returning the old value. -/
  | aadd (d : BitVec 6) (a : BitVec 6) (b : BitVec 6) (o : MemOrder)
  /-- R138: Atomic 32-bit add returning the sign-extended old value. -/
  | aaddW (d : BitVec 6) (a : BitVec 6) (b : BitVec 6) (o : MemOrder)
  /-- R138: Atomic FP32 add, RNE, no flags. -/
  | faadd (d : BitVec 6) (a : BitVec 6) (b : BitVec 6) (o : MemOrder)
  /-- R138: Atomic and. -/
  | aand (d : BitVec 6) (a : BitVec 6) (b : BitVec 6) (o : MemOrder)
  /-- R138: Atomic or. -/
  | aor (d : BitVec 6) (a : BitVec 6) (b : BitVec 6) (o : MemOrder)
  /-- R138: Atomic xor. -/
  | axor (d : BitVec 6) (a : BitVec 6) (b : BitVec 6) (o : MemOrder)
  /-- R138: Atomic signed minimum. -/
  | amin (d : BitVec 6) (a : BitVec 6) (b : BitVec 6) (o : MemOrder)
  /-- R138: Atomic signed maximum. -/
  | amax (d : BitVec 6) (a : BitVec 6) (b : BitVec 6) (o : MemOrder)
  /-- R138: Atomic unsigned minimum. -/
  | aminu (d : BitVec 6) (a : BitVec 6) (b : BitVec 6) (o : MemOrder)
  /-- R138: Atomic unsigned maximum. -/
  | amaxu (d : BitVec 6) (a : BitVec 6) (b : BitVec 6) (o : MemOrder)
  /-- R138: Atomic swap returning the old value. -/
  | aswap (d : BitVec 6) (a : BitVec 6) (b : BitVec 6) (o : MemOrder)
  /-- R138: Atomic load at the serialisation point. -/
  | aload (d : BitVec 6) (a : BitVec 6) (o : MemOrder)
  /-- R138: Atomic store at the serialisation point. -/
  | astore (a : BitVec 6) (b : BitVec 6) (o : MemOrder)
  /-- R141: 64-bit compare and swap. -/
  | acas (d : BitVec 6) (a : BitVec 6) (b : BitVec 6) (o : MemOrder)
  /-- R141: 32-bit compare and swap. -/
  | acasW (d : BitVec 6) (a : BitVec 6) (b : BitVec 6) (o : MemOrder)
  /-- R143: Inserts a candidate into a sorted k-slot record at the serialisation point. -/
  | atopk (d : BitVec 6) (a : BitVec 6) (b : BitVec 6) (o : MemOrder) (k : BitVec 2)
  /-- R145: Writes a link word at its home slice, follows redirections and may push a pair. -/
  | alink (d : BitVec 6) (a : BitVec 6) (b : BitVec 6)
  /-- R149: Waits until this tile's latest Bell phase on a tag completes. -/
  | bwait (t : BitVec 3)
  /-- R149: Arrives at a Bell phase without waiting. -/
  | barr (t : BitVec 3)
  /-- R150: Arrives with a value and waits for the unsigned minimum. -/
  | bredMin (d : BitVec 6) (a : BitVec 6) (b : BitVec 6)
  /-- R150: Arrives with a value and waits for the sum modulo 2^32. -/
  | bredSum (d : BitVec 6) (a : BitVec 6) (b : BitVec 6)
  /-- R150: Arrives with a value and waits for the bitwise or. -/
  | bredOr (d : BitVec 6) (a : BitVec 6) (b : BitVec 6)
  /-- R152: Arms a Hurdle with expected arrivals and transfer counts. -/
  | harm (d : BitVec 6) (a : BitVec 6) (b : BitVec 6)
  /-- R152: Arrives at a Hurdle on a named tile by active message. -/
  | harr (a : BitVec 6) (b : BitVec 6)
  /-- R153: Waits until a Hurdle's generation differs from the one seen. -/
  | hwait (a : BitVec 6) (b : BitVec 6)
  /-- R152: Extends a Hurdle's inbound and outbound counts. -/
  | hexp (d : BitVec 6) (a : BitVec 6) (b : BitVec 6)
  /-- R154: Inserts a fence entry into the named engine queues as one act. -/
  | qfence (a : BitVec 6)
  /-- R163: Sets the vector shape. -/
  | vshape (r : BitVec 6) (c : BitVec 8)
  /-- R165: Element-wise addition. -/
  | vadd (d : BitVec 5) (a : BitVec 5) (b : BitVec 5) (t : VType)
  /-- R165: Element-wise subtraction. -/
  | vsub (d : BitVec 5) (a : BitVec 5) (b : BitVec 5) (t : VType)
  /-- R165: Element-wise multiplication. -/
  | vmul (d : BitVec 5) (a : BitVec 5) (b : BitVec 5) (t : VType)
  /-- R165: Element-wise multiply-add into vd. -/
  | vmla (d : BitVec 5) (a : BitVec 5) (b : BitVec 5) (t : VType)
  /-- R165: Element-wise minimum. -/
  | vmin (d : BitVec 5) (a : BitVec 5) (b : BitVec 5) (t : VType)
  /-- R165: Element-wise maximum. -/
  | vmax (d : BitVec 5) (a : BitVec 5) (b : BitVec 5) (t : VType)
  /-- R165: Element-wise absolute value. -/
  | vabs (d : BitVec 5) (a : BitVec 5) (t : VType)
  /-- R165: Element-wise negation. -/
  | vneg (d : BitVec 5) (a : BitVec 5) (t : VType)
  /-- R165: Element-wise bitwise and. -/
  | vand (d : BitVec 5) (a : BitVec 5) (b : BitVec 5) (t : VType)
  /-- R165: Element-wise bitwise or. -/
  | vor (d : BitVec 5) (a : BitVec 5) (b : BitVec 5) (t : VType)
  /-- R165: Element-wise bitwise xor. -/
  | vxor (d : BitVec 5) (a : BitVec 5) (b : BitVec 5) (t : VType)
  /-- R165: Element-wise complement. -/
  | vnot (d : BitVec 5) (a : BitVec 5) (t : VType)
  /-- R166: Element-wise left shift by vb counts. -/
  | vshl (d : BitVec 5) (a : BitVec 5) (b : BitVec 5) (t : VType)
  /-- R166: Element-wise right shift by vb counts. -/
  | vshr (d : BitVec 5) (a : BitVec 5) (b : BitVec 5) (t : VType)
  /-- R165: Element-wise saturating addition. -/
  | vadds (d : BitVec 5) (a : BitVec 5) (b : BitVec 5) (t : VType)
  /-- R165: Element-wise saturating subtraction. -/
  | vsubs (d : BitVec 5) (a : BitVec 5) (b : BitVec 5) (t : VType)
  /-- R169: Selects va or vb by the mask in vd. -/
  | vsel (d : BitVec 5) (a : BitVec 5) (b : BitVec 5) (t : VType)
  /-- R170: Element-wise float division. -/
  | vdiv (d : BitVec 5) (a : BitVec 5) (b : BitVec 5) (t : VType)
  /-- R170: Bit-exact reciprocal. -/
  | vrcp (d : BitVec 5) (a : BitVec 5) (t : VType)
  /-- R170: Bit-exact reciprocal square root. -/
  | vrsq (d : BitVec 5) (a : BitVec 5) (t : VType)
  /-- R170: Element-wise correctly rounded square root. -/
  | vsqrt (d : BitVec 5) (a : BitVec 5) (t : VType)
  /-- R165: Copies a tile. -/
  | vmov (d : BitVec 5) (a : BitVec 5) (t : VType)
  /-- R181: Transposes a tile. -/
  | vtrans (d : BitVec 5) (a : BitVec 5) (t : VType)
  /-- R165: Upper half of element-wise integer products. -/
  | vmulh (d : BitVec 5) (a : BitVec 5) (b : BitVec 5) (t : VType)
  /-- R185: Adds or subtracts activations by the sign of ternary weights into i32. -/
  | vtacc (d : BitVec 5) (a : BitVec 5) (b : BitVec 5) (t : VType)
  /-- R186: Four-element integer dot products accumulated into i32. -/
  | vdot4 (d : BitVec 5) (a : BitVec 5) (b : BitVec 5) (t : VType)
  /-- R168: Element-wise comparison producing a mask. -/
  | vcmp (d : BitVec 5) (a : BitVec 5) (b : BitVec 5) (t : VType) (c : VCond)
  /-- R171: Converts each element to another type, optionally saturating or tracking AMAX. -/
  | vcvt (d : BitVec 5) (a : BitVec 5) (src : VType) (sa : Bool) (am : Bool) (dst : VType)
  /-- R172: Rounds elements to integral by RM. -/
  | vrint (d : BitVec 5) (a : BitVec 5) (t : VType)
  /-- R172: Rounds elements toward minus infinity. -/
  | vfloor (d : BitVec 5) (a : BitVec 5) (t : VType)
  /-- R172: Rounds elements toward plus infinity. -/
  | vceil (d : BitVec 5) (a : BitVec 5) (t : VType)
  /-- R172: Rounds elements toward zero. -/
  | vtrunc (d : BitVec 5) (a : BitVec 5) (t : VType)
  /-- R172: Rounds elements to nearest even integral. -/
  | vrne (d : BitVec 5) (a : BitVec 5) (t : VType)
  /-- R173: Bit-exact 2^f for FP32 elements. -/
  | vexf (d : BitVec 5) (a : BitVec 5) (t : VType)
  /-- R174: Scales FP32 elements by 2^e from an i32 tile. -/
  | vinse (d : BitVec 5) (a : BitVec 5) (b : BitVec 5) (t : VType)
  /-- R175: Writes floor(log2|x|) as i32. -/
  | vgetexp (d : BitVec 5) (a : BitVec 5) (t : VType)
  /-- R175: Writes the mantissa in [1, 2) with the sign. -/
  | vgetman (d : BitVec 5) (a : BitVec 5) (t : VType)
  /-- R177: Adds a scalar to every element. -/
  | vaddS (d : BitVec 5) (a : BitVec 5) (s : BitVec 6) (t : VType)
  /-- R177: Subtracts a scalar from every element. -/
  | vsubS (d : BitVec 5) (a : BitVec 5) (s : BitVec 6) (t : VType)
  /-- R177: Multiplies every element by a scalar. -/
  | vmulS (d : BitVec 5) (a : BitVec 5) (s : BitVec 6) (t : VType)
  /-- R177: Multiplies by a scalar and adds vd. -/
  | vmlaS (d : BitVec 5) (a : BitVec 5) (s : BitVec 6) (t : VType)
  /-- R177: Minimum of each element and a scalar. -/
  | vminS (d : BitVec 5) (a : BitVec 5) (s : BitVec 6) (t : VType)
  /-- R177: Maximum of each element and a scalar. -/
  | vmaxS (d : BitVec 5) (a : BitVec 5) (s : BitVec 6) (t : VType)
  /-- R178: Writes a scalar pattern to every element. -/
  | vbcast (d : BitVec 5) (s : BitVec 6) (t : VType)
  /-- R177: Shifts every element left by a scalar count. -/
  | vshlS (d : BitVec 5) (a : BitVec 5) (s : BitVec 6) (t : VType)
  /-- R177: Shifts every element right by a scalar count. -/
  | vshrS (d : BitVec 5) (a : BitVec 5) (s : BitVec 6) (t : VType)
  /-- R179: Sums by rows, columns or the whole tile. -/
  | vredsum (d : BitVec 5) (a : BitVec 5) (t : VType) (r : RedDir)
  /-- R179: Maximum by rows, columns or the whole tile. -/
  | vredmax (d : BitVec 5) (a : BitVec 5) (t : VType) (r : RedDir)
  /-- R179: Minimum by rows, columns or the whole tile. -/
  | vredmin (d : BitVec 5) (a : BitVec 5) (t : VType) (r : RedDir)
  /-- R181: Rotates each row by a per-row count. -/
  | vrot (d : BitVec 5) (a : BitVec 5) (b : BitVec 5) (t : VType)
  /-- R181: Permutes elements within each row by an index tile. -/
  | vperm (d : BitVec 5) (a : BitVec 5) (b : BitVec 5) (t : VType)
  /-- R183: Unpacks TERN5 bytes to i8 weights. -/
  | vunp3 (d : BitVec 5) (a : BitVec 5)
  /-- R182: Unpacks INT4 nibbles to i8. -/
  | vunp4 (d : BitVec 5) (a : BitVec 5)
  /-- R182: Unpacks INT3 blocks to i8. -/
  | vunp3i (d : BitVec 5) (a : BitVec 5)
  /-- R184: Packs i8 into INT4 with clamping. -/
  | vpack4 (d : BitVec 5) (a : BitVec 5)
  /-- R184: Packs i8 into INT3 blocks with clamping. -/
  | vpack3 (d : BitVec 5) (a : BitVec 5)
  /-- R181: Interleaves the columns of two tiles. -/
  | vzip (d : BitVec 5) (a : BitVec 5) (b : BitVec 5) (t : VType)
  /-- R181: De-interleaves the columns of a tile. -/
  | vunzip (d : BitVec 5) (a : BitVec 5) (t : VType)
  /-- R164: Fills a tile with one constant. -/
  | vsplat (d : BitVec 5) (i : BitVec 16) (t : VType)
  /-- R193: Dense matrix product accumulated into a bank. -/
  | mma (k : BitVec 3) (a : BitVec 6) (b : BitVec 6) (c : BitVec 6)
  /-- R193: Dense matrix product into a zeroed bank. -/
  | mmaZ (k : BitVec 3) (a : BitVec 6) (b : BitVec 6) (c : BitVec 6)
  /-- R193: Matrix product with K-major A, accumulated. -/
  | mmaT (k : BitVec 3) (a : BitVec 6) (b : BitVec 6) (c : BitVec 6)
  /-- R193: Matrix product with K-major A into a zeroed bank. -/
  | mmaTz (k : BitVec 3) (a : BitVec 6) (b : BitVec 6) (c : BitVec 6)
  /-- R194: Sets a bank to +0 and resets its mstat on an AT. -/
  | mzero (k : BitVec 3)
  /-- R195: Stores an accumulator bank to own scratchpad through a window. -/
  | mrd (k : BitVec 3) (a : BitVec 6) (c : BitVec 6)
  /-- R195: Loads an accumulator bank from scratchpad. -/
  | mwr (k : BitVec 3) (a : BitVec 6) (c : BitVec 6)
  /-- R196: Scales a bank by row and column scales. -/
  | mscl (k : BitVec 3) (a : BitVec 6) (b : BitVec 6) (c : BitVec 6)
  /-- R198: 2:4 sparse matrix product accumulated on an ST. -/
  | smma (k : BitVec 3) (a : BitVec 6) (b : BitVec 6) (c : BitVec 6)
  /-- R198: 2:4 sparse matrix product into a zeroed bank. -/
  | smmaZ (k : BitVec 3) (a : BitVec 6) (b : BitVec 6) (c : BitVec 6)
  /-- R198: Dense matrix product on an ST. -/
  | smmaB (k : BitVec 3) (a : BitVec 6) (b : BitVec 6) (c : BitVec 6)
  /-- R200: Computes attention scores Q times K transpose. -/
  | attnQk (k : BitVec 3) (a : BitVec 6) (b : BitVec 6) (c : BitVec 6)
  /-- R201: Online softmax of a score bank row by row. -/
  | attnSm (k : BitVec 3) (c : BitVec 6)
  /-- R202: Rescales O by CORR and adds P times V. -/
  | attnPv (k : BitVec 3) (a : BitVec 6) (c : BitVec 6)
  /-- R203: Divides each output row by its SUM. -/
  | attnFin (k : BitVec 3) (c : BitVec 6)
  /-- R204: Fused qk, softmax and pv over one key block as one item. -/
  | attnStep (k : BitVec 3) (a : BitVec 6) (b : BitVec 6) (c : BitVec 6)
  /-- R223: Takes a pair from the lowest band of this field's Fold, waiting while empty. -/
  | ppop (d : BitVec 6) (a : BitVec 6) (b : BitVec 6)
  /-- R223: Takes a pair if any, else writes zero. -/
  | ppopNb (d : BitVec 6) (a : BitVec 6) (b : BitVec 6)
  /-- R224: Takes a pair from an adjacent field's Fold without waiting. -/
  | steal (d : BitVec 6) (a : BitVec 6) (b : BitVec 6)
  /-- R225: Pushes a pair of nodes with a timestamp. -/
  | ppush (d : BitVec 6) (a : BitVec 6) (b : BitVec 6)
  /-- R226: Finds the rule entry for the types of two nodes. -/
  | rule (d : BitVec 6) (a : BitVec 6) (b : BitVec 6)
  /-- R228: Applies a built-in rewrite template to a pair. -/
  | rewr (d : BitVec 6) (a : BitVec 6) (b : BitVec 6)
  /-- R230: Dispatches a pair to a handler by MSG.CALL. -/
  | rcall (d : BitVec 6) (a : BitVec 6) (b : BitVec 6)
  /-- R230: Dispatches a pair to every tile of a sub-grid. -/
  | rgroup (d : BitVec 6) (a : BitVec 6) (b : BitVec 6)
  /-- R231: Takes 1 to 8 zeroed node lines from the flock. -/
  | nalloc (d : BitVec 6) (a : BitVec 6) (b : BitVec 6)
  /-- R231: Zeroes node lines and returns them to the flock. -/
  | nfree (a : BitVec 6) (b : BitVec 6)
  /-- R394: Extends a measurement register with SHA-512 of 64 bytes. -/
  | mext (a : BitVec 6) (b : BitVec 6)
  /-- R394: Writes a measurement register to memory. -/
  | mget (a : BitVec 6) (b : BitVec 6)
  /-- R394: Locks a measurement register until reset. -/
  | mlock (a : BitVec 6)
  /-- R395: Reads a configuration-space register. -/
  | cfgrd (d : BitVec 6) (a : BitVec 6)
  /-- R395: Writes a configuration-space register. -/
  | cfgwr (a : BitVec 6) (b : BitVec 6)
  /-- R394: Returns from a Croft fault handler to CEPC at the previous level. -/
  | fret
  /-- R210: Copy engine copies LEN bytes from SRC to DST. -/
  | ceCopy (site idx : Nat)
  /-- R211: Copy engine copies ROWS rows with signed pitches. -/
  | ceCopy2d (site idx : Nat)
  /-- R210: Copy engine fills a range with an 8-byte pattern. -/
  | ceFill (site idx : Nat)
  /-- R212: Copy engine copies and then places matrix work on the array. -/
  | ceCopymma (site idx : Nat)
  /-- R213: Gather engine copies indexed rows into consecutive rows. -/
  | geGather (site idx : Nat)
  /-- R213: Gather engine copies consecutive rows to indexed rows. -/
  | geScatter (site idx : Nat)
  /-- R214: Gather engine adds weighted rows into indexed FP32 rows. -/
  | geScatw (site idx : Nat)
  /-- R215: Matrix engine places matrix work on the executing tile's array. -/
  | meMma (site idx : Nat)
  /-- R217: Collective reduction over a group's parts, written to every part's DST. -/
  | clReduce (site idx : Nat)
  /-- R218: Collective broadcast from the root's SRC to every part's DST. -/
  | clBcast (site idx : Nat)
  /-- R219: Carries payload words to a handler channel of the named tile. -/
  | msgCall (site idx : Nat)
  /-- R219: Carries payload words to the reply inbox of the named tile. -/
  | msgReply (site idx : Nat)
  /-- R220: Fence command entered into its port's queue and the named queues. -/
  | qfenceCommand (site idx : Nat)
  /-- R221: Pushes one pair into the Fold of the destination's field. -/
  | netPair (site idx : Nat)
  /-- R206: An engine sends a finished command's completion word, counts down its Hurdle and releases its FOLLOW successor. -/
  | engineCompletion (site idx : Nat)
  /-- R212: When a CE.COPYMMA copy has landed, its matrix work is placed on the array. -/
  | copymmaMatrixWork (site idx : Nat)
  /-- R191: A matrix item takes the array once f is positive, fixing its rate. -/
  | matrixItemStart (site : Nat)
  /-- R191: A matrix item finishes its array time and returns any engine holding. -/
  | matrixItemRetire (site : Nat)
  /-- R149: A Bell phase completion reaches all participants and releases waiting tiles. -/
  | bellPhaseComplete (launch tag : Nat)
  /-- R109: A grid tile with no resident task or runnable handler arrives at the step phase. -/
  | stepIdleArrival (site : Nat)
  /-- R109: The step phase completes, fields may be added or withdrawn, and waiting tasks resume. -/
  | stepPhaseComplete (launch : Nat) (add drop : List Nat)
  /-- R42: A wait lasting WDOG ticks raises WAITTMO. -/
  | waitWatchdogExpiry (w : WaitRef)
  /-- R258: A message is accepted into a tile's inbox and receives a TASKID. -/
  | messageAccept (idx : Nat)
  /-- R259: The selection logic picks a candidate context or message at a switch. -/
  | taskSelect (site : Nat)
  /-- R274: The copy engine finishes logging a restartable task's input snapshot, freeing its scoreboard entries. -/
  | snapshotLog (site slot : Nat)
  /-- R266: A finished ordered task at the horizon checks and performs its buffered effects. -/
  | commit (vi dom : Nat)
  /-- R252: A pair in flight enters a Fold or its spill area, waiting in the mesh for room if needed. -/
  | foldPush (idx : Nat)
  /-- R303: A Drover fills open requests from newly free tokens by priority and age. -/
  | droverGrant (field : Nat)
  /-- R304: A Drover with unfillable requests asks adjacent Drovers for loans. -/
  | loanRequest (field lender : Nat)
  /-- R304: A neighbour's loan arrives and serves the borrower's open requests. -/
  | loanComplete (idx : Nat)
  /-- R304: A lender recalls a loan and the borrower returns or revokes tokens. -/
  | loanRecall (lender borrower : Nat)
  /-- R305: A Drover puts tokens of a running holding under a 2,048-tick notice. -/
  | revocation (field site slot n : Nat)
  /-- R305: A request open 1 µs after the loan attempt causes revocation from lower-priority tasks. -/
  | openRequestTimeout (site slot : Nat)
  /-- R305: When LEFT reaches 0 and pre-notice items have retired, notice tokens leave the holding. -/
  | noticeEnd (site slot : Nat)
  /-- R118: Tokens lent by toklend arrive and raise the borrower's HELD. -/
  | lentTokensArrive (idx : Nat)
  /-- R408: At 10 kW input the hardware lowers every field's base share by one eighth. -/
  | powerLimitCut
  /-- R276: The Launch Unit asks a tile's contexts to save at their next honoured safe point. -/
  | preemptRequest (site : Nat)
  /-- R40: A context reaching no honoured safe point within PREWIN ticks is aborted and re-queued. -/
  | prewinExpiry (site slot : Nat)
  /-- R277: A pre-empted tile's image is written back and its contexts and messages restored. -/
  | tileResume (site : Nat)
  /-- R285: A launch reaching no step boundary within 10 ms of a rehome is pre-empted. -/
  | rehomeStepTimeout (launch : Nat)
  /-- R286: A field's slices pause, write back, move unbacked lines and adopt the new divisor. -/
  | rehomeEvent (field : Nat)
  /-- R294: The rehome engine moves an unbacked page to its new home field. -/
  | pageMigration (field : Nat)
  /-- R216: A collective group lacking parts WDOG ticks after its first part is rejected with WAITTMO. -/
  | clGroupTimeout (idx : Nat)
  /-- R387: A held tile idle for 2^16 ticks enters retention with DEC-TED encoding. -/
  | retentionEntry (site : Nat)
  /-- R387: A message arriving at a retained tile starts re-encoding back to SEC-DED. -/
  | retentionExit (site : Nat)
  /-- R388: A late transition is replayed for one tick at half clock, or raises TIMING on a second flag. -/
  | shadowLatchReplay (site : Nat) (second : Bool)
  /-- R410: Every 2^32 ref ticks each Drover raises ADD or sets WORN on low margin. -/
  | guardBandCheck (field : Nat)
  /-- R400: Router name entries age every 2^16 unused ticks and drop at age 15. -/
  | routerEntryAging (field : Nat)
  /-- R353: A store to a write-window slot assembles part of a launch record. -/
  | windowSlotStore (vi queue slot : Nat) (off : BitVec 8) (val : BitVec 64)
  /-- R353: The store to slot offset 0xF8 enqueues the record once QFREE allows. -/
  | recordEnqueue (vi queue slot : Nat)
  /-- R355: A record at the head of its queue is validated or completed with ILLOP. -/
  | recordValidation (vi queue : Nat)
  /-- R357: The Launch Unit grants fields, places cells, loads tiles, pushes pairs and sends start messages. -/
  | launchStart (vi queue : Nat) (grant : List Nat)
  /-- R363: A finished launch releases resources and writes its completion record. -/
  | launchCompletion (launch : Nat)
  /-- R357: A released tile finishes clearing after 4,096 ticks and becomes free. -/
  | tileClear (site : Nat)
  /-- R365: A MSG.CALL to name 0xFFFF enqueues a launch record read from memory. -/
  | taskLaunchRequest (idx : Nat)
  /-- R362: Releases a held launch so it starts. -/
  | lcmdRelease (vi queue : Nat) (seq : BitVec 32)
  /-- R362: Cancels a held, queued or running launch with STATUS 0xF0. -/
  | lcmdCancel (vi queue : Nat) (seq : BitVec 32)
  /-- R361: Sets an ASID's standing unbacked reservation in a field. -/
  | unbsetWrite (vi : Nat) (val : BitVec 64)
  /-- R363: Advancing CQHEAD frees ring entries so waiting completions are written. -/
  | cqheadWrite (vi queue : Nat) (val : BitVec 32)
  /-- R380: Moves a parked or held task to QUEUED. -/
  | tcmdReleaseTask (vi dom : Nat) (task : BitVec 32)
  /-- R380: Ends a parked or held task and discards its message. -/
  | tcmdCancelTask (vi dom : Nat) (task : BitVec 32)
  /-- R380: Releases every parked task of an ASID. -/
  | tcmdReleaseParked (vi asid : Nat)
  /-- R375: Starts a page-scope shoot-down of TLBs and L1 lines. -/
  | shcmdPage (vi asid : Nat)
  /-- R375: Starts a shoot-down of every page of an ASID. -/
  | shcmdAsid (vi asid : Nat)
  /-- R375: Starts a shoot-down of every ASID of the interface. -/
  | shcmdInterface (vi : Nat)
  /-- R376: A shoot-down completes once entries are dropped, lines written back and accesses performed. -/
  | shootdownComplete (vi : Nat)
  /-- R379: The Launch Unit writes a fault record to the ring when room exists. -/
  | faultRecordWrite (vi : Nat)
  /-- R379: Advancing FRHEAD frees fault-ring entries so waiting records are written. -/
  | frheadWrite (vi : Nat) (val : BitVec 32)
  /-- R404: Starts an attestation quote into the buffer at QBUF. -/
  | qcmdQuote (vi : Nat)
  /-- R404: The security engine writes and signs the quote and increments QDONE. -/
  | quoteComplete (vi : Nat)
  /-- R417: Discards a router's staged map. -/
  | mapctlDiscard (field : Nat)
  /-- R417: A router checks its staged map's CRC and votes. -/
  | mapctlCheckVote (field : Nat)
  /-- R417: When the vote completes, all routers install the new map or all discard it. -/
  | mapVoteComplete
  /-- R2: A write to a register without behaviour of its own updates its RW and W1C fields. -/
  | registerWrite (r : RegRef) (val : BitVec 64)
  /-- R405: A root-port DMA request is translated and performed at the home slices or aborted. -/
  | rootPortDma (port : Nat) (req : Dma)
  /-- R396: At power good the ROM verifies and loads firmware, which brings up and measures the module. -/
  | boot
  /-- R413: A launch holding a retiring tile that reaches no step boundary within 10 ms is pre-empted, and the tile leaves it. -/
  | retirementStepTimeout (launch : Nat)
  /-- R306: A droop of a cluster's supply makes its adaptive oscillator stretch tick periods, down to half rate, and updates MARGIN and the stretched-tick count. -/
  | supplyDroop (cluster : Nat) (period : Nat) (margin : BitVec 8)
  /-- R406: A module link goes down, so collective parts for modules reachable only through it are rejected with PROT detail 3. -/
  | moduleLinkLoss (link : Nat)
deriving DecidableEq, Repr

end Sys2Proof
end

