-- ==== Sys2Proof/Word.lean ====
section
/-! DEFINITION. The machine's words (R3) and their plainest arithmetic. -/

namespace Sys2Proof

/-- A byte (R3). -/
abbrev Byte := BitVec 8
/-- A doubleword: the width of the x and s registers (R17). -/
abbrev Word := BitVec 64
/-- An instruction word (R68). -/
abbrev IWord := BitVec 32
/-- A 6-bit scalar specifier (R17). -/
abbrev Spec := BitVec 6
/-- A 5-bit vector specifier (R21). -/
abbrev VSpec := BitVec 5
/-- A vector register: 4,096 bytes, byte 0 in the low bits (R21, R156). -/
abbrev VReg := BitVec 32768
/-- An accumulator bank: 128 x 64 FP32 elements, element (i, j) at index 64 i + j (R12, R193). -/
abbrev Acc := BitVec 262144
/-- The mstat of a bank: 128 rows of MAX, SUM, CORR, 96 bits a row with MAX lowest (R199). -/
abbrev MStat := BitVec 12288
/-- A 64-byte line, byte 0 in the low bits (R3). -/
abbrev Line := BitVec 512

/-- Bits [lo+n-1 : lo] of a word (R1). -/
abbrev fld {k : Nat} (w : BitVec k) (lo n : Nat) : BitVec n := w.extractLsb' lo n

end Sys2Proof
end

