-- ==== Sys2Proof/WellFormed.lean ====
section
/-! DEFINITION. When an instruction is one that a word can stand for: its fields hold values that steps 3 to 5 of
the decode order (R75) accept. The operand signature `Instr.uses` is also what the issue rule of R20 counts. -/

namespace Sys2Proof

/-- Who decodes: a tile, or a Croft core (R76, R392). -/
inductive CoreKind where
  | tile
  | croft
deriving DecidableEq, Repr

/-- The operands of a word: scalar sources in the order they pop (operand a before operand b, R20), scalar
destinations, scalar specifiers that are both (or that the entry forbids to name a queue), and the same for vector
specifiers. -/
structure Uses where
  src  : List Spec := []
  dst  : List Spec := []
  both : List Spec := []
  vsrc : List VSpec := []
  vdst : List VSpec := []
  vreg : List VSpec := []
deriving DecidableEq, Repr

/-- The stream an instruction with a word belongs to (R16). Events and commands belong to none; they say `A`. -/
def Instr.stream : Instr → Stream
  | .add m _ _ _ => m
  | .sub m _ _ _ => m
  | .and m _ _ _ => m
  | .or m _ _ _ => m
  | .xor m _ _ _ => m
  | .sll m _ _ _ => m
  | .srl m _ _ _ => m
  | .sra m _ _ _ => m
  | .slt m _ _ _ => m
  | .sltu m _ _ _ => m
  | .min m _ _ _ => m
  | .max m _ _ _ => m
  | .minu m _ _ _ => m
  | .maxu m _ _ _ => m
  | .mul m _ _ _ => m
  | .mulh m _ _ _ => m
  | .mulhu m _ _ _ => m
  | .div m _ _ _ => m
  | .divu m _ _ _ => m
  | .rem m _ _ _ => m
  | .remu m _ _ _ => m
  | .clz m _ _ => m
  | .ctz m _ _ => m
  | .popc m _ _ => m
  | .addsl1 m _ _ _ => m
  | .addsl2 m _ _ _ => m
  | .addsl3 m _ _ _ => m
  | .addsl4 m _ _ _ => m
  | .addi m _ _ _ => m
  | .andi m _ _ _ => m
  | .ori m _ _ _ => m
  | .xori m _ _ _ => m
  | .slti m _ _ _ => m
  | .slli m _ _ _ => m
  | .srli m _ _ _ => m
  | .srai m _ _ _ => m
  | .li m _ _ => m
  | .lih m _ _ => m
  | .bfx m _ _ _ _ => m
  | .bfxu m _ _ _ _ => m
  | .bfi m _ _ _ _ => m
  | .fadd _ _ _ => .C
  | .fsub _ _ _ => .C
  | .fmul _ _ _ => .C
  | .ffma _ _ _ => .C
  | .fmin _ _ _ => .C
  | .fmax _ _ _ => .C
  | .feq _ _ _ => .C
  | .flt _ _ _ => .C
  | .fle _ _ _ => .C
  | .fcvtSI _ _ => .C
  | .fcvtIS _ _ => .C
  | .rpt _ _ => .C
  | .nop m => m
  | .sysrd m _ _ => m
  | .syswr m _ _ => m
  | .vshape _ _ => .C
  | .vadd _ _ _ _ => .C
  | .vsub _ _ _ _ => .C
  | .vmul _ _ _ _ => .C
  | .vmla _ _ _ _ => .C
  | .vmin _ _ _ _ => .C
  | .vmax _ _ _ _ => .C
  | .vabs _ _ _ => .C
  | .vneg _ _ _ => .C
  | .vand _ _ _ _ => .C
  | .vor _ _ _ _ => .C
  | .vxor _ _ _ _ => .C
  | .vnot _ _ _ => .C
  | .vshl _ _ _ _ => .C
  | .vshr _ _ _ _ => .C
  | .vadds _ _ _ _ => .C
  | .vsubs _ _ _ _ => .C
  | .vsel _ _ _ _ => .C
  | .vdiv _ _ _ _ => .C
  | .vrcp _ _ _ => .C
  | .vrsq _ _ _ => .C
  | .vsqrt _ _ _ => .C
  | .vmov _ _ _ => .C
  | .vtrans _ _ _ => .C
  | .vmulh _ _ _ _ => .C
  | .vtacc _ _ _ _ => .C
  | .vdot4 _ _ _ _ => .C
  | .vcmp _ _ _ _ _ => .C
  | .vcvt _ _ _ _ _ _ => .C
  | .vrint _ _ _ => .C
  | .vfloor _ _ _ => .C
  | .vceil _ _ _ => .C
  | .vtrunc _ _ _ => .C
  | .vrne _ _ _ => .C
  | .vexf _ _ _ => .C
  | .vinse _ _ _ _ => .C
  | .vgetexp _ _ _ => .C
  | .vgetman _ _ _ => .C
  | .vaddS _ _ _ _ => .C
  | .vsubS _ _ _ _ => .C
  | .vmulS _ _ _ _ => .C
  | .vmlaS _ _ _ _ => .C
  | .vminS _ _ _ _ => .C
  | .vmaxS _ _ _ _ => .C
  | .vbcast _ _ _ => .C
  | .vshlS _ _ _ _ => .C
  | .vshrS _ _ _ _ => .C
  | .vredsum _ _ _ _ => .C
  | .vredmax _ _ _ _ => .C
  | .vredmin _ _ _ _ => .C
  | .vrot _ _ _ _ => .C
  | .vperm _ _ _ _ => .C
  | .vunp3 _ _ => .C
  | .vunp4 _ _ => .C
  | .vunp3i _ _ => .C
  | .vpack4 _ _ => .C
  | .vpack3 _ _ => .C
  | .vzip _ _ _ _ => .C
  | .vunzip _ _ _ => .C
  | .vsplat _ _ _ => .C
  | .mma _ _ _ _ => .C
  | .mmaZ _ _ _ _ => .C
  | .mmaT _ _ _ _ => .C
  | .mmaTz _ _ _ _ => .C
  | .mzero _ => .C
  | .mrd _ _ _ => .C
  | .mwr _ _ _ => .C
  | .mscl _ _ _ _ => .C
  | .smma _ _ _ _ => .C
  | .smmaZ _ _ _ _ => .C
  | .smmaB _ _ _ _ => .C
  | .attnQk _ _ _ _ => .C
  | .attnSm _ _ => .C
  | .attnPv _ _ _ => .C
  | .attnFin _ _ => .C
  | .attnStep _ _ _ _ => .C
  | _ => .A

/-- The operand signature of each instruction with a word (R69, R77 to R82 and the entries). -/
def Instr.uses : Instr → Uses
  | .add _ d a b => ⟨[a, b], [d], [], [], [], []⟩
  | .sub _ d a b => ⟨[a, b], [d], [], [], [], []⟩
  | .and _ d a b => ⟨[a, b], [d], [], [], [], []⟩
  | .or _ d a b => ⟨[a, b], [d], [], [], [], []⟩
  | .xor _ d a b => ⟨[a, b], [d], [], [], [], []⟩
  | .sll _ d a b => ⟨[a, b], [d], [], [], [], []⟩
  | .srl _ d a b => ⟨[a, b], [d], [], [], [], []⟩
  | .sra _ d a b => ⟨[a, b], [d], [], [], [], []⟩
  | .slt _ d a b => ⟨[a, b], [d], [], [], [], []⟩
  | .sltu _ d a b => ⟨[a, b], [d], [], [], [], []⟩
  | .min _ d a b => ⟨[a, b], [d], [], [], [], []⟩
  | .max _ d a b => ⟨[a, b], [d], [], [], [], []⟩
  | .minu _ d a b => ⟨[a, b], [d], [], [], [], []⟩
  | .maxu _ d a b => ⟨[a, b], [d], [], [], [], []⟩
  | .mul _ d a b => ⟨[a, b], [d], [], [], [], []⟩
  | .mulh _ d a b => ⟨[a, b], [d], [], [], [], []⟩
  | .mulhu _ d a b => ⟨[a, b], [d], [], [], [], []⟩
  | .div _ d a b => ⟨[a, b], [d], [], [], [], []⟩
  | .divu _ d a b => ⟨[a, b], [d], [], [], [], []⟩
  | .rem _ d a b => ⟨[a, b], [d], [], [], [], []⟩
  | .remu _ d a b => ⟨[a, b], [d], [], [], [], []⟩
  | .clz _ d a => ⟨[a], [d], [], [], [], []⟩
  | .ctz _ d a => ⟨[a], [d], [], [], [], []⟩
  | .popc _ d a => ⟨[a], [d], [], [], [], []⟩
  | .addsl1 _ d a b => ⟨[a, b], [d], [], [], [], []⟩
  | .addsl2 _ d a b => ⟨[a, b], [d], [], [], [], []⟩
  | .addsl3 _ d a b => ⟨[a, b], [d], [], [], [], []⟩
  | .addsl4 _ d a b => ⟨[a, b], [d], [], [], [], []⟩
  | .addi _ d a _ => ⟨[a], [d], [], [], [], []⟩
  | .andi _ d a _ => ⟨[a], [d], [], [], [], []⟩
  | .ori _ d a _ => ⟨[a], [d], [], [], [], []⟩
  | .xori _ d a _ => ⟨[a], [d], [], [], [], []⟩
  | .slti _ d a _ => ⟨[a], [d], [], [], [], []⟩
  | .slli _ d a _ => ⟨[a], [d], [], [], [], []⟩
  | .srli _ d a _ => ⟨[a], [d], [], [], [], []⟩
  | .srai _ d a _ => ⟨[a], [d], [], [], [], []⟩
  | .li _ d _ => ⟨[], [d], [], [], [], []⟩
  | .lih _ d _ => ⟨[], [], [d], [], [], []⟩
  | .bfx _ d a _ _ => ⟨[a], [d], [], [], [], []⟩
  | .bfxu _ d a _ _ => ⟨[a], [d], [], [], [], []⟩
  | .bfi _ d a _ _ => ⟨[a], [], [d], [], [], []⟩
  | .part d a b => ⟨[a, b], [d], [], [], [], []⟩
  | .partY d a b => ⟨[a, b], [d], [], [], [], []⟩
  | .fadd d a b => ⟨[a, b], [d], [], [], [], []⟩
  | .fsub d a b => ⟨[a, b], [d], [], [], [], []⟩
  | .fmul d a b => ⟨[a, b], [d], [], [], [], []⟩
  | .ffma d a b => ⟨[a, b], [], [d], [], [], []⟩
  | .fmin d a b => ⟨[a, b], [d], [], [], [], []⟩
  | .fmax d a b => ⟨[a, b], [d], [], [], [], []⟩
  | .feq d a b => ⟨[a, b], [d], [], [], [], []⟩
  | .flt d a b => ⟨[a, b], [d], [], [], [], []⟩
  | .fle d a b => ⟨[a, b], [d], [], [], [], []⟩
  | .fcvtSI d a => ⟨[a], [d], [], [], [], []⟩
  | .fcvtIS d a => ⟨[a], [d], [], [], [], []⟩
  | .beqz a _ => ⟨[a], [], [], [], [], []⟩
  | .bnez a _ => ⟨[a], [], [], [], [], []⟩
  | .bltz a _ => ⟨[a], [], [], [], [], []⟩
  | .bgez a _ => ⟨[a], [], [], [], [], []⟩
  | .bgtz a _ => ⟨[a], [], [], [], [], []⟩
  | .blez a _ => ⟨[a], [], [], [], [], []⟩
  | .jal d _ => ⟨[], [d], [], [], [], []⟩
  | .jalr d a _ => ⟨[a], [d], [], [], [], []⟩
  | .sysrd _ d _ => ⟨[], [d], [], [], [], []⟩
  | .syswr _ a _ => ⟨[a], [], [], [], [], []⟩
  | .tokreq d a => ⟨[a], [d], [], [], [], []⟩
  | .tokret d a => ⟨[a], [d], [], [], [], []⟩
  | .toklend d a b => ⟨[a, b], [d], [], [], [], []⟩
  | .tokwait d => ⟨[], [d], [], [], [], []⟩
  | .tokq d => ⟨[], [d], [], [], [], []⟩
  | .ldB d b _ _ => ⟨[b], [d], [], [], [], []⟩
  | .ldBu d b _ _ => ⟨[b], [d], [], [], [], []⟩
  | .ldH d b _ _ => ⟨[b], [d], [], [], [], []⟩
  | .ldHu d b _ _ => ⟨[b], [d], [], [], [], []⟩
  | .ldW d b _ _ => ⟨[b], [d], [], [], [], []⟩
  | .ldWu d b _ _ => ⟨[b], [d], [], [], [], []⟩
  | .ldD d b _ _ => ⟨[b], [d], [], [], [], []⟩
  | .stB d b _ _ => ⟨[b, d], [], [], [], [], []⟩
  | .stH d b _ _ => ⟨[b, d], [], [], [], [], []⟩
  | .stW d b _ _ => ⟨[b, d], [], [], [], [], []⟩
  | .stD d b _ _ => ⟨[b, d], [], [], [], [], []⟩
  | .ldfW d b _ _ => ⟨[b], [d], [], [], [], []⟩
  | .ldfD d b _ _ => ⟨[b], [d], [], [], [], []⟩
  | .ldtW d b _ _ => ⟨[b], [d], [], [], [], []⟩
  | .ldtD d b _ _ => ⟨[b], [d], [], [], [], []⟩
  | .stfW d b _ _ => ⟨[b, d], [], [], [], [], []⟩
  | .stfD d b _ _ => ⟨[b, d], [], [], [], [], []⟩
  | .stxW d b _ _ => ⟨[b, d], [], [], [], [], []⟩
  | .stxD d b _ _ => ⟨[b, d], [], [], [], [], []⟩
  | .vld _ a b _ => ⟨[a, b], [], [], [], [], []⟩
  | .vst _ a b _ => ⟨[a, b], [], [], [], [], []⟩
  | .vldx _ a b _ => ⟨[a, b], [], [], [], [], []⟩
  | .vstx _ a b _ => ⟨[a, b], [], [], [], [], []⟩
  | .vldb _ a b _ => ⟨[a, b], [], [], [], [], []⟩
  | .cwb a b => ⟨[a, b], [], [], [], [], []⟩
  | .cinv a b => ⟨[a, b], [], [], [], [], []⟩
  | .disc a b => ⟨[a, b], [], [], [], [], []⟩
  | .pf a b => ⟨[a, b], [], [], [], [], []⟩
  | .pf2 a b => ⟨[a, b], [], [], [], [], []⟩
  | .pmig a b => ⟨[a, b], [], [], [], [], []⟩
  | .fefill a b => ⟨[a, b], [], [], [], [], []⟩
  | .feempty a b => ⟨[a, b], [], [], [], [], []⟩
  | .aadd d a b _ => ⟨[a, b], [d], [], [], [], []⟩
  | .aaddW d a b _ => ⟨[a, b], [d], [], [], [], []⟩
  | .faadd d a b _ => ⟨[a, b], [d], [], [], [], []⟩
  | .aand d a b _ => ⟨[a, b], [d], [], [], [], []⟩
  | .aor d a b _ => ⟨[a, b], [d], [], [], [], []⟩
  | .axor d a b _ => ⟨[a, b], [d], [], [], [], []⟩
  | .amin d a b _ => ⟨[a, b], [d], [], [], [], []⟩
  | .amax d a b _ => ⟨[a, b], [d], [], [], [], []⟩
  | .aminu d a b _ => ⟨[a, b], [d], [], [], [], []⟩
  | .amaxu d a b _ => ⟨[a, b], [d], [], [], [], []⟩
  | .aswap d a b _ => ⟨[a, b], [d], [], [], [], []⟩
  | .aload d a _ => ⟨[a], [d], [], [], [], []⟩
  | .astore a b _ => ⟨[a, b], [], [], [], [], []⟩
  | .acas d a b _ => ⟨[a, b], [], [d], [], [], []⟩
  | .acasW d a b _ => ⟨[a, b], [], [d], [], [], []⟩
  | .atopk d a b _ _ => ⟨[a, b], [d], [], [], [], []⟩
  | .alink d a b => ⟨[a, b], [d], [], [], [], []⟩
  | .bredMin d a b => ⟨[a, b], [d], [], [], [], []⟩
  | .bredSum d a b => ⟨[a, b], [d], [], [], [], []⟩
  | .bredOr d a b => ⟨[a, b], [d], [], [], [], []⟩
  | .harm d a b => ⟨[a, b], [d], [], [], [], []⟩
  | .harr a b => ⟨[a, b], [], [], [], [], []⟩
  | .hwait a b => ⟨[a, b], [], [], [], [], []⟩
  | .hexp d a b => ⟨[a, b], [d], [], [], [], []⟩
  | .qfence a => ⟨[a], [], [], [], [], []⟩
  | .vadd d a b _ => ⟨[], [], [], [a, b], [d], []⟩
  | .vsub d a b _ => ⟨[], [], [], [a, b], [d], []⟩
  | .vmul d a b _ => ⟨[], [], [], [a, b], [d], []⟩
  | .vmla d a b _ => ⟨[], [], [], [a, b], [], [d]⟩
  | .vmin d a b _ => ⟨[], [], [], [a, b], [d], []⟩
  | .vmax d a b _ => ⟨[], [], [], [a, b], [d], []⟩
  | .vabs d a _ => ⟨[], [], [], [a], [d], []⟩
  | .vneg d a _ => ⟨[], [], [], [a], [d], []⟩
  | .vand d a b _ => ⟨[], [], [], [a, b], [d], []⟩
  | .vor d a b _ => ⟨[], [], [], [a, b], [d], []⟩
  | .vxor d a b _ => ⟨[], [], [], [a, b], [d], []⟩
  | .vnot d a _ => ⟨[], [], [], [a], [d], []⟩
  | .vshl d a b _ => ⟨[], [], [], [a, b], [d], []⟩
  | .vshr d a b _ => ⟨[], [], [], [a, b], [d], []⟩
  | .vadds d a b _ => ⟨[], [], [], [a, b], [d], []⟩
  | .vsubs d a b _ => ⟨[], [], [], [a, b], [d], []⟩
  | .vsel d a b _ => ⟨[], [], [], [a, b], [], [d]⟩
  | .vdiv d a b _ => ⟨[], [], [], [a, b], [d], []⟩
  | .vrcp d a _ => ⟨[], [], [], [a], [d], []⟩
  | .vrsq d a _ => ⟨[], [], [], [a], [d], []⟩
  | .vsqrt d a _ => ⟨[], [], [], [a], [d], []⟩
  | .vmov d a _ => ⟨[], [], [], [a], [d], []⟩
  | .vtrans d a _ => ⟨[], [], [], [a], [d], []⟩
  | .vmulh d a b _ => ⟨[], [], [], [a, b], [d], []⟩
  | .vtacc d a b _ => ⟨[], [], [], [a, b], [], [d]⟩
  | .vdot4 d a b _ => ⟨[], [], [], [a, b], [], [d]⟩
  | .vcmp d a b _ _ => ⟨[], [], [], [a, b], [d], []⟩
  | .vcvt d a _ _ _ _ => ⟨[], [], [], [a], [d], []⟩
  | .vrint d a _ => ⟨[], [], [], [a], [d], []⟩
  | .vfloor d a _ => ⟨[], [], [], [a], [d], []⟩
  | .vceil d a _ => ⟨[], [], [], [a], [d], []⟩
  | .vtrunc d a _ => ⟨[], [], [], [a], [d], []⟩
  | .vrne d a _ => ⟨[], [], [], [a], [d], []⟩
  | .vexf d a _ => ⟨[], [], [], [a], [d], []⟩
  | .vinse d a b _ => ⟨[], [], [], [a, b], [d], []⟩
  | .vgetexp d a _ => ⟨[], [], [], [a], [d], []⟩
  | .vgetman d a _ => ⟨[], [], [], [a], [d], []⟩
  | .vaddS d a s _ => ⟨[s], [], [], [a], [d], []⟩
  | .vsubS d a s _ => ⟨[s], [], [], [a], [d], []⟩
  | .vmulS d a s _ => ⟨[s], [], [], [a], [d], []⟩
  | .vmlaS d a s _ => ⟨[s], [], [], [a], [], [d]⟩
  | .vminS d a s _ => ⟨[s], [], [], [a], [d], []⟩
  | .vmaxS d a s _ => ⟨[s], [], [], [a], [d], []⟩
  | .vbcast d s _ => ⟨[s], [], [], [], [d], []⟩
  | .vshlS d a s _ => ⟨[s], [], [], [a], [d], []⟩
  | .vshrS d a s _ => ⟨[s], [], [], [a], [d], []⟩
  | .vredsum d a _ _ => ⟨[], [], [], [a], [d], []⟩
  | .vredmax d a _ _ => ⟨[], [], [], [a], [d], []⟩
  | .vredmin d a _ _ => ⟨[], [], [], [a], [d], []⟩
  | .vrot d a b _ => ⟨[], [], [], [a], [d], [b]⟩
  | .vperm d a b _ => ⟨[], [], [], [a], [d], [b]⟩
  | .vunp3 d a => ⟨[], [], [], [a], [d], []⟩
  | .vunp4 d a => ⟨[], [], [], [a], [d], []⟩
  | .vunp3i d a => ⟨[], [], [], [a], [d], []⟩
  | .vpack4 d a => ⟨[], [], [], [a], [d], []⟩
  | .vpack3 d a => ⟨[], [], [], [a], [d], []⟩
  | .vzip d a b _ => ⟨[], [], [], [a, b], [d], []⟩
  | .vunzip d a _ => ⟨[], [], [], [a], [d], []⟩
  | .vsplat d _ _ => ⟨[], [], [], [], [d], []⟩
  | .mma _ a b c => ⟨[a, b, c], [], [], [], [], []⟩
  | .mmaZ _ a b c => ⟨[a, b, c], [], [], [], [], []⟩
  | .mmaT _ a b c => ⟨[a, b, c], [], [], [], [], []⟩
  | .mmaTz _ a b c => ⟨[a, b, c], [], [], [], [], []⟩
  | .mrd _ a c => ⟨[a, c], [], [], [], [], []⟩
  | .mwr _ a c => ⟨[a, c], [], [], [], [], []⟩
  | .mscl _ a b c => ⟨[a, b, c], [], [], [], [], []⟩
  | .smma _ a b c => ⟨[a, b, c], [], [], [], [], []⟩
  | .smmaZ _ a b c => ⟨[a, b, c], [], [], [], [], []⟩
  | .smmaB _ a b c => ⟨[a, b, c], [], [], [], [], []⟩
  | .attnQk _ a b c => ⟨[a, b, c], [], [], [], [], []⟩
  | .attnSm _ c => ⟨[c], [], [], [], [], []⟩
  | .attnPv _ a c => ⟨[a, c], [], [], [], [], []⟩
  | .attnFin _ c => ⟨[c], [], [], [], [], []⟩
  | .attnStep _ a b c => ⟨[a, b, c], [], [], [], [], []⟩
  | .ppop d a b => ⟨[], [d, a, b], [], [], [], []⟩
  | .ppopNb d a b => ⟨[], [d, a, b], [], [], [], []⟩
  | .steal d a b => ⟨[], [d, a], [b], [], [], []⟩
  | .ppush d a b => ⟨[a, b], [], [d], [], [], []⟩
  | .rule d a b => ⟨[a, b], [d], [], [], [], []⟩
  | .rewr d a b => ⟨[d, a, b], [], [], [], [], []⟩
  | .rcall d a b => ⟨[d, a, b], [], [], [], [], []⟩
  | .rgroup d a b => ⟨[d, a, b], [], [], [], [], []⟩
  | .nalloc d a b => ⟨[a, b], [d], [], [], [], []⟩
  | .nfree a b => ⟨[a, b], [], [], [], [], []⟩
  | .mext a b => ⟨[a, b], [], [], [], [], []⟩
  | .mget a b => ⟨[a, b], [], [], [], [], []⟩
  | .mlock a => ⟨[a], [], [], [], [], []⟩
  | .cfgrd d a => ⟨[a], [d], [], [], [], []⟩
  | .cfgwr a b => ⟨[a, b], [], [], [], [], []⟩
  | _ => ⟨[], [], [], [], [], []⟩

/-- Integer types are codes 0 to 5 (R43). -/
def VType.isInt : VType → Bool
  | .i8 => true
  | .u8 => true
  | .i16 => true
  | .u16 => true
  | .i32 => true
  | .u32 => true
  | .bf16 => false
  | .fp32 => false
  | .e4m3 => false
  | .e5m2 => false

/-- Float types are codes 6 to 9 (R44). -/
def VType.isFloat (t : VType) : Bool := !t.isInt

/-- Does a system register number name a register of this kind of core (R24, R392, R393)? -/
def sysregAssigned : CoreKind → BitVec 6 → Bool
  | .tile, r =>
    decide (r.toNat ≤ 0x0D) || (decide (0x11 ≤ r.toNat) && decide (r.toNat ≤ 0x24)) ||
      (decide (0x28 ≤ r.toNat) && decide (r.toNat ≤ 0x2C))
  | .croft, r =>
    decide (0x28 ≤ r.toNat) && decide (r.toNat ≤ 0x2A) || (decide (0x30 ≤ r.toNat) && decide (r.toNat ≤ 0x35))

/-- The system registers of the C-stream: FPC, VSHAPE, VSTAT, AMAX (R113). -/
def isCStreamReg (r : BitVec 6) : Bool := decide (r.toNat < 4)

/-- May this kind of core execute the instruction at all (R392, R394)? A tile reserves major 0x3E (R76). -/
def Instr.coreOk : CoreKind → Instr → Bool
  | .tile, .mext _ _ => false
  | .tile, .mget _ _ => false
  | .tile, .mlock _ => false
  | .tile, .cfgrd _ _ => false
  | .tile, .cfgwr _ _ => false
  | .tile, .fret => false
  | .tile, _ => true
  | .croft, .part _ _ _ => false
  | .croft, .partY _ _ _ => false
  | .croft, .fadd _ _ _ => false
  | .croft, .fsub _ _ _ => false
  | .croft, .fmul _ _ _ => false
  | .croft, .ffma _ _ _ => false
  | .croft, .fmin _ _ _ => false
  | .croft, .fmax _ _ _ => false
  | .croft, .feq _ _ _ => false
  | .croft, .flt _ _ _ => false
  | .croft, .fle _ _ _ => false
  | .croft, .fcvtSI _ _ => false
  | .croft, .fcvtIS _ _ => false
  | .croft, .rpt _ _ => false
  | .croft, .done => false
  | .croft, .yield => false
  | .croft, .step => false
  | .croft, .safept _ => false
  | .croft, .tokreq _ _ => false
  | .croft, .tokret _ _ => false
  | .croft, .toklend _ _ _ => false
  | .croft, .tokwait _ => false
  | .croft, .tokq _ => false
  | .croft, .ldfW _ _ _ _ => false
  | .croft, .ldfD _ _ _ _ => false
  | .croft, .ldtW _ _ _ _ => false
  | .croft, .ldtD _ _ _ _ => false
  | .croft, .stfW _ _ _ _ => false
  | .croft, .stfD _ _ _ _ => false
  | .croft, .stxW _ _ _ _ => false
  | .croft, .stxD _ _ _ _ => false
  | .croft, .vld _ _ _ _ => false
  | .croft, .vst _ _ _ _ => false
  | .croft, .vldx _ _ _ _ => false
  | .croft, .vstx _ _ _ _ => false
  | .croft, .vldb _ _ _ _ => false
  | .croft, .disc _ _ => false
  | .croft, .pf _ _ => false
  | .croft, .pf2 _ _ => false
  | .croft, .pmig _ _ => false
  | .croft, .fefill _ _ => false
  | .croft, .feempty _ _ => false
  | .croft, .atopk _ _ _ _ _ => false
  | .croft, .alink _ _ _ => false
  | .croft, .bwait _ => false
  | .croft, .barr _ => false
  | .croft, .bredMin _ _ _ => false
  | .croft, .bredSum _ _ _ => false
  | .croft, .bredOr _ _ _ => false
  | .croft, .harm _ _ _ => false
  | .croft, .harr _ _ => false
  | .croft, .hwait _ _ => false
  | .croft, .hexp _ _ _ => false
  | .croft, .qfence _ => false
  | .croft, .vshape _ _ => false
  | .croft, .vadd _ _ _ _ => false
  | .croft, .vsub _ _ _ _ => false
  | .croft, .vmul _ _ _ _ => false
  | .croft, .vmla _ _ _ _ => false
  | .croft, .vmin _ _ _ _ => false
  | .croft, .vmax _ _ _ _ => false
  | .croft, .vabs _ _ _ => false
  | .croft, .vneg _ _ _ => false
  | .croft, .vand _ _ _ _ => false
  | .croft, .vor _ _ _ _ => false
  | .croft, .vxor _ _ _ _ => false
  | .croft, .vnot _ _ _ => false
  | .croft, .vshl _ _ _ _ => false
  | .croft, .vshr _ _ _ _ => false
  | .croft, .vadds _ _ _ _ => false
  | .croft, .vsubs _ _ _ _ => false
  | .croft, .vsel _ _ _ _ => false
  | .croft, .vdiv _ _ _ _ => false
  | .croft, .vrcp _ _ _ => false
  | .croft, .vrsq _ _ _ => false
  | .croft, .vsqrt _ _ _ => false
  | .croft, .vmov _ _ _ => false
  | .croft, .vtrans _ _ _ => false
  | .croft, .vmulh _ _ _ _ => false
  | .croft, .vtacc _ _ _ _ => false
  | .croft, .vdot4 _ _ _ _ => false
  | .croft, .vcmp _ _ _ _ _ => false
  | .croft, .vcvt _ _ _ _ _ _ => false
  | .croft, .vrint _ _ _ => false
  | .croft, .vfloor _ _ _ => false
  | .croft, .vceil _ _ _ => false
  | .croft, .vtrunc _ _ _ => false
  | .croft, .vrne _ _ _ => false
  | .croft, .vexf _ _ _ => false
  | .croft, .vinse _ _ _ _ => false
  | .croft, .vgetexp _ _ _ => false
  | .croft, .vgetman _ _ _ => false
  | .croft, .vaddS _ _ _ _ => false
  | .croft, .vsubS _ _ _ _ => false
  | .croft, .vmulS _ _ _ _ => false
  | .croft, .vmlaS _ _ _ _ => false
  | .croft, .vminS _ _ _ _ => false
  | .croft, .vmaxS _ _ _ _ => false
  | .croft, .vbcast _ _ _ => false
  | .croft, .vshlS _ _ _ _ => false
  | .croft, .vshrS _ _ _ _ => false
  | .croft, .vredsum _ _ _ _ => false
  | .croft, .vredmax _ _ _ _ => false
  | .croft, .vredmin _ _ _ _ => false
  | .croft, .vrot _ _ _ _ => false
  | .croft, .vperm _ _ _ _ => false
  | .croft, .vunp3 _ _ => false
  | .croft, .vunp4 _ _ => false
  | .croft, .vunp3i _ _ => false
  | .croft, .vpack4 _ _ => false
  | .croft, .vpack3 _ _ => false
  | .croft, .vzip _ _ _ _ => false
  | .croft, .vunzip _ _ _ => false
  | .croft, .vsplat _ _ _ => false
  | .croft, .mma _ _ _ _ => false
  | .croft, .mmaZ _ _ _ _ => false
  | .croft, .mmaT _ _ _ _ => false
  | .croft, .mmaTz _ _ _ _ => false
  | .croft, .mzero _ => false
  | .croft, .mrd _ _ _ => false
  | .croft, .mwr _ _ _ => false
  | .croft, .mscl _ _ _ _ => false
  | .croft, .smma _ _ _ _ => false
  | .croft, .smmaZ _ _ _ _ => false
  | .croft, .smmaB _ _ _ _ => false
  | .croft, .attnQk _ _ _ _ => false
  | .croft, .attnSm _ _ => false
  | .croft, .attnPv _ _ _ => false
  | .croft, .attnFin _ _ => false
  | .croft, .attnStep _ _ _ _ => false
  | .croft, .ppop _ _ _ => false
  | .croft, .ppopNb _ _ _ => false
  | .croft, .steal _ _ _ => false
  | .croft, .ppush _ _ _ => false
  | .croft, .rule _ _ _ => false
  | .croft, .rewr _ _ _ => false
  | .croft, .rcall _ _ _ => false
  | .croft, .rgroup _ _ _ => false
  | .croft, .nalloc _ _ _ => false
  | .croft, .nfree _ _ => false
  | .croft, _ => true

/-- The remaining checks of step 3 of R75: types outside the instruction's list, widths, reserved values. -/
def Instr.fieldsOk (k : CoreKind) (i : Instr) : Bool :=
  i.coreOk k && match i with
  -- R76: these two words are permanently illegal
  | .add _ d a b => !(d == 0 && a == 0 && b == 0)
  -- R98: the field lies inside the register
  | .bfx _ _ _ p w => decide (p.toNat + w.toNat + 1 ≤ 64)
  | .bfxu _ _ _ p w => decide (p.toNat + w.toNat + 1 ≤ 64)
  | .bfi _ _ _ p w => decide (p.toNat + w.toNat + 1 ≤ 64)
  -- R24, R113
  | .sysrd _ _ r => sysregAssigned k r
  | .syswr m _ r => sysregAssigned k r && !(m == .A && isCStreamReg r && k == .tile)
  -- R78: the vector memory instructions name vector queues
  | .vld v _ _ _ => decide (28 ≤ v.toNat)
  | .vst v _ _ _ => decide (28 ≤ v.toNat)
  | .vldx v _ _ _ => decide (28 ≤ v.toNat)
  | .vstx v _ _ _ => decide (28 ≤ v.toNat)
  | .vldb v _ _ _ => decide (28 ≤ v.toNat)
  -- R163: VSHAPE takes any rows and columns its fields hold
  | .vshl _ _ _ t => t.isInt
  | .vshr _ _ _ t => t.isInt
  | .vadds _ _ _ t => t.isInt
  | .vsubs _ _ _ t => t.isInt
  | .vmulh _ _ _ t => t.isInt
  | .vdiv _ _ _ t => t.isFloat
  | .vsqrt _ _ t => t.isFloat
  | .vrcp _ _ t => t == .bf16 || t == .fp32
  | .vrsq _ _ t => t == .bf16 || t == .fp32
  | .vtacc _ _ _ t => t == .i8 || t == .i16
  | .vdot4 _ _ _ t => t == .i8 || t == .u8
  -- R168
  | .vcmp _ _ _ t c => !(t.isInt && (c == .ord || c == .unord))
  -- R81
  | .vcvt _ _ src sa am dst => !(am && src.isInt) && !(sa && !(src.isInt && dst.isInt))
  | .vrint _ _ t => t.isFloat
  | .vfloor _ _ t => t.isFloat
  | .vceil _ _ t => t.isFloat
  | .vtrunc _ _ t => t.isFloat
  | .vrne _ _ t => t.isFloat
  | .vexf _ _ t => t == .fp32
  | .vinse _ _ _ t => t == .fp32
  | .vgetexp _ _ t => t == .bf16 || t == .fp32
  | .vgetman _ _ t => t == .bf16 || t == .fp32
  | .vshlS _ _ _ t => t.isInt
  | .vshrS _ _ _ t => t.isInt
  | _ => true

/-- Step 4 of R75: the stream has the specifier (R17). A Croft core has no queues and no ports (DEDUCED, log 10). -/
def specExists (k : CoreKind) (m : Stream) (f : Spec) : Bool :=
  match k, m with
  | .croft, _ => decide (f.toNat < 48)
  | .tile, .A => !(f == 60 || f == 61)
  | .tile, .C => decide (f.toNat < 56) || f == 60 || f == 61

/-- Step 4 of R75 over all scalar specifiers of the word. -/
def Instr.specsExist (k : CoreKind) (i : Instr) : Bool :=
  let u := i.uses
  (u.src ++ u.dst ++ u.both).all (specExists k i.stream)

/-- Can the stream read from this specifier (R17, R18, R19)? -/
def canRead (m : Stream) (f : Spec) : Bool :=
  match m with
  | .A => !(f == 48 || f == 49 || f == 50 || f == 51 || f == 56 || f == 58 || f == 62)
  | .C => !(f == 52 || f == 53 || f == 54 || f == 55 || f == 60)

/-- Can the stream write to this specifier (R17, R18, R19)? -/
def canWrite (m : Stream) (f : Spec) : Bool :=
  match m with
  | .A => !(f == 52 || f == 53 || f == 54 || f == 55 || f == 57 || f == 59 || f == 63)
  | .C => !(f == 48 || f == 49 || f == 50 || f == 51 || f == 61)

/-- Step 5 of R75: every queue and port is named from its right side (R19). vq2 and vq3 are no sources, vq0 and vq1
no destinations; a specifier that is both read and written names a register. The vector memory instructions are the
A-stream's side of the vector queues (R21). -/
def Instr.dirsOk (i : Instr) : Bool :=
  let u := i.uses
  u.src.all (canRead i.stream) && u.dst.all (canWrite i.stream) &&
    u.both.all (fun f => decide (f.toNat < 48)) &&
    u.vsrc.all (fun v => decide (v.toNat < 30)) &&
    u.vdst.all (fun v => decide (v.toNat < 28) || decide (30 ≤ v.toNat)) &&
    u.vreg.all (fun v => decide (v.toNat < 28)) &&
    match i with
    | .vld v _ _ _ => decide (v.toNat < 30)
    | .vldx v _ _ _ => decide (v.toNat < 30)
    | .vldb v _ _ _ => decide (v.toNat < 30)
    | .vst v _ _ _ => decide (30 ≤ v.toNat)
    | .vstx v _ _ _ => decide (30 ≤ v.toNat)
    | _ => true

/-- A well-formed instruction of this kind of core: the checks of steps 3 to 5 of R75 pass, and a Croft core's word is
of the A-stream (R392). -/
def Instr.wellFormed (k : CoreKind) (i : Instr) : Bool :=
  i.fieldsOk k && i.specsExist k && i.dirsOk && (k == .tile || i.stream == .A)

end Sys2Proof
end

