-- ==== Sys2Proof/Decode.lean ====
section
/-! DEFINITION. Decoding a word (R68 to R83, R394) in the order of R75, total on every word, and the encoder. -/

namespace Sys2Proof

/-- Why a word is no instruction (steps 1 to 5 of R75). -/
inductive DecodeError where
  | illop
  | illstrm
deriving DecidableEq, Repr

/-- Bit 31 (R15). -/
def streamOf (w : IWord) : Stream := if fld w 31 1 = 1 then .A else .C

/-- A type code (R83); 10 to 15 name no type. -/
def vtypeOf (c : BitVec 4) : Option VType :=
  match c.toNat with
  | 0 => some .i8
  | 1 => some .u8
  | 2 => some .i16
  | 3 => some .u16
  | 4 => some .i32
  | 5 => some .u32
  | 6 => some .bf16
  | 7 => some .fp32
  | 8 => some .e4m3
  | 9 => some .e5m2
  | _ => none

/-- The code of a type (R83). -/
def vtypeCode : VType → BitVec 4
  | .i8 => 0
  | .u8 => 1
  | .i16 => 2
  | .u16 => 3
  | .i32 => 4
  | .u32 => 5
  | .bf16 => 6
  | .fp32 => 7
  | .e4m3 => 8
  | .e5m2 => 9

/-- The ordering field (R79). -/
def orderOf (c : BitVec 2) : Option MemOrder :=
  match c.toNat with
  | 0 => some .rlx
  | 1 => some .acq
  | 2 => some .rel
  | _ => some .ar

/-- The code of an ordering (R79). -/
def orderCode : MemOrder → BitVec 2
  | .rlx => 0
  | .acq => 1
  | .rel => 2
  | .ar => 3

/-- The scope field (R78); 3 is reserved (R131). -/
def scopeOf (c : BitVec 2) : Option Scope :=
  match c.toNat with
  | 0 => some .t
  | 1 => some .g
  | 2 => some .h
  | _ => none

/-- The code of a scope (R78). -/
def scopeCode : Scope → BitVec 2
  | .t => 0
  | .g => 1
  | .h => 2

/-- The fn of vcmp (R80, R168). -/
def condOf (c : BitVec 6) : Option VCond :=
  match c.toNat with
  | 0 => some .eq
  | 1 => some .ne
  | 2 => some .lt
  | 3 => some .le
  | 4 => some .gt
  | 5 => some .ge
  | 6 => some .ord
  | 7 => some .unord
  | _ => none

/-- The code of a vcmp condition (R80). -/
def condCode : VCond → BitVec 6
  | .eq => 0
  | .ne => 1
  | .lt => 2
  | .le => 3
  | .gt => 4
  | .ge => 5
  | .ord => 6
  | .unord => 7

/-- The direction of a reduction (R80); 3 is reserved (R179). -/
def dirOf (c : BitVec 2) : Option RedDir :=
  match c.toNat with
  | 0 => some .rows
  | 1 => some .cols
  | 2 => some .all
  | _ => none

/-- The code of a direction (R80). -/
def dirCode : RedDir → BitVec 2
  | .rows => 0
  | .cols => 1
  | .all => 2

/-- The stream marker of a stream (R15). -/
def mBit : Stream → BitVec 1
  | .A => 1
  | .C => 0

/-- Major 0x00 (R93 and on): the row its selector names, with its zero fields checked. -/
def decode00 (w : IWord) : Option Instr :=
  match (fld w 0 7).toNat with
  | 0 => some (.add (streamOf w) (fld w 19 6) (fld w 13 6) (fld w 7 6))
  | 1 => some (.sub (streamOf w) (fld w 19 6) (fld w 13 6) (fld w 7 6))
  | 2 => some (.and (streamOf w) (fld w 19 6) (fld w 13 6) (fld w 7 6))
  | 3 => some (.or (streamOf w) (fld w 19 6) (fld w 13 6) (fld w 7 6))
  | 4 => some (.xor (streamOf w) (fld w 19 6) (fld w 13 6) (fld w 7 6))
  | 5 => some (.sll (streamOf w) (fld w 19 6) (fld w 13 6) (fld w 7 6))
  | 6 => some (.srl (streamOf w) (fld w 19 6) (fld w 13 6) (fld w 7 6))
  | 7 => some (.sra (streamOf w) (fld w 19 6) (fld w 13 6) (fld w 7 6))
  | 8 => some (.slt (streamOf w) (fld w 19 6) (fld w 13 6) (fld w 7 6))
  | 9 => some (.sltu (streamOf w) (fld w 19 6) (fld w 13 6) (fld w 7 6))
  | 10 => some (.min (streamOf w) (fld w 19 6) (fld w 13 6) (fld w 7 6))
  | 11 => some (.max (streamOf w) (fld w 19 6) (fld w 13 6) (fld w 7 6))
  | 12 => some (.minu (streamOf w) (fld w 19 6) (fld w 13 6) (fld w 7 6))
  | 13 => some (.maxu (streamOf w) (fld w 19 6) (fld w 13 6) (fld w 7 6))
  | 14 => some (.mul (streamOf w) (fld w 19 6) (fld w 13 6) (fld w 7 6))
  | 15 => some (.mulh (streamOf w) (fld w 19 6) (fld w 13 6) (fld w 7 6))
  | 16 => some (.mulhu (streamOf w) (fld w 19 6) (fld w 13 6) (fld w 7 6))
  | 17 => some (.div (streamOf w) (fld w 19 6) (fld w 13 6) (fld w 7 6))
  | 18 => some (.divu (streamOf w) (fld w 19 6) (fld w 13 6) (fld w 7 6))
  | 19 => some (.rem (streamOf w) (fld w 19 6) (fld w 13 6) (fld w 7 6))
  | 20 => some (.remu (streamOf w) (fld w 19 6) (fld w 13 6) (fld w 7 6))
  | 21 => if w &&& 0x1f80#32 = 0 then some (.clz (streamOf w) (fld w 19 6) (fld w 13 6)) else none
  | 22 => if w &&& 0x1f80#32 = 0 then some (.ctz (streamOf w) (fld w 19 6) (fld w 13 6)) else none
  | 23 => if w &&& 0x1f80#32 = 0 then some (.popc (streamOf w) (fld w 19 6) (fld w 13 6)) else none
  | 24 => some (.addsl1 (streamOf w) (fld w 19 6) (fld w 13 6) (fld w 7 6))
  | 25 => some (.addsl2 (streamOf w) (fld w 19 6) (fld w 13 6) (fld w 7 6))
  | 26 => some (.addsl3 (streamOf w) (fld w 19 6) (fld w 13 6) (fld w 7 6))
  | 27 => some (.addsl4 (streamOf w) (fld w 19 6) (fld w 13 6) (fld w 7 6))
  | _ => none

/-- Major 0x01 (R95 and on): the row its selector names, with its zero fields checked. -/
def decode01 (w : IWord) : Option Instr :=
  some (.addi (streamOf w) (fld w 19 6) (fld w 13 6) (fld w 0 13))

/-- Major 0x02 (R95 and on): the row its selector names, with its zero fields checked. -/
def decode02 (w : IWord) : Option Instr :=
  some (.andi (streamOf w) (fld w 19 6) (fld w 13 6) (fld w 0 13))

/-- Major 0x03 (R95 and on): the row its selector names, with its zero fields checked. -/
def decode03 (w : IWord) : Option Instr :=
  some (.ori (streamOf w) (fld w 19 6) (fld w 13 6) (fld w 0 13))

/-- Major 0x04 (R95 and on): the row its selector names, with its zero fields checked. -/
def decode04 (w : IWord) : Option Instr :=
  some (.xori (streamOf w) (fld w 19 6) (fld w 13 6) (fld w 0 13))

/-- Major 0x05 (R95 and on): the row its selector names, with its zero fields checked. -/
def decode05 (w : IWord) : Option Instr :=
  some (.slti (streamOf w) (fld w 19 6) (fld w 13 6) (fld w 0 13))

/-- Major 0x06 (R96 and on): the row its selector names, with its zero fields checked. -/
def decode06 (w : IWord) : Option Instr :=
  match (fld w 11 2).toNat with
  | 0 => if w &&& 0x7c0#32 = 0 then some (.slli (streamOf w) (fld w 19 6) (fld w 13 6) (fld w 0 6)) else none
  | 1 => if w &&& 0x7c0#32 = 0 then some (.srli (streamOf w) (fld w 19 6) (fld w 13 6) (fld w 0 6)) else none
  | 2 => if w &&& 0x7c0#32 = 0 then some (.srai (streamOf w) (fld w 19 6) (fld w 13 6) (fld w 0 6)) else none
  | _ => none

/-- Major 0x07 (R97 and on): the row its selector names, with its zero fields checked. -/
def decode07 (w : IWord) : Option Instr :=
  some (.li (streamOf w) (fld w 19 6) (fld w 0 19))

/-- Major 0x08 (R97 and on): the row its selector names, with its zero fields checked. -/
def decode08 (w : IWord) : Option Instr :=
  some (.lih (streamOf w) (fld w 19 6) (fld w 0 19))

/-- Major 0x09 (R98 and on): the row its selector names, with its zero fields checked. -/
def decode09 (w : IWord) : Option Instr :=
  match (fld w 12 1).toNat with
  | 0 => some (.bfx (streamOf w) (fld w 19 6) (fld w 13 6) (fld w 6 6) (fld w 0 6))
  | 1 => some (.bfxu (streamOf w) (fld w 19 6) (fld w 13 6) (fld w 6 6) (fld w 0 6))
  | _ => none

/-- Major 0x0A (R98 and on): the row its selector names, with its zero fields checked. -/
def decode0A (w : IWord) : Option Instr :=
  if w &&& 0x1000#32 = 0 then some (.bfi (streamOf w) (fld w 19 6) (fld w 13 6) (fld w 6 6) (fld w 0 6)) else none

/-- Major 0x0B (R99 and on): the row its selector names, with its zero fields checked. -/
def decode0B (w : IWord) : Option Instr :=
  match (fld w 0 7).toNat with
  | 0 => some (.part (fld w 19 6) (fld w 13 6) (fld w 7 6))
  | 1 => some (.partY (fld w 19 6) (fld w 13 6) (fld w 7 6))
  | _ => none

/-- Major 0x0C (R100 and on): the row its selector names, with its zero fields checked. -/
def decode0C (w : IWord) : Option Instr :=
  match (fld w 0 7).toNat with
  | 0 => some (.fadd (fld w 19 6) (fld w 13 6) (fld w 7 6))
  | 1 => some (.fsub (fld w 19 6) (fld w 13 6) (fld w 7 6))
  | 2 => some (.fmul (fld w 19 6) (fld w 13 6) (fld w 7 6))
  | 3 => some (.ffma (fld w 19 6) (fld w 13 6) (fld w 7 6))
  | 4 => some (.fmin (fld w 19 6) (fld w 13 6) (fld w 7 6))
  | 5 => some (.fmax (fld w 19 6) (fld w 13 6) (fld w 7 6))
  | 6 => some (.feq (fld w 19 6) (fld w 13 6) (fld w 7 6))
  | 7 => some (.flt (fld w 19 6) (fld w 13 6) (fld w 7 6))
  | 8 => some (.fle (fld w 19 6) (fld w 13 6) (fld w 7 6))
  | 9 => if w &&& 0x1f80#32 = 0 then some (.fcvtSI (fld w 19 6) (fld w 13 6)) else none
  | 10 => if w &&& 0x1f80#32 = 0 then some (.fcvtIS (fld w 19 6) (fld w 13 6)) else none
  | _ => none

/-- Major 0x10 (R102 and on): the row its selector names, with its zero fields checked. -/
def decode10 (w : IWord) : Option Instr :=
  match (fld w 21 4).toNat with
  | 0 => some (.beqz (fld w 15 6) (fld w 0 15))
  | 1 => some (.bnez (fld w 15 6) (fld w 0 15))
  | 2 => some (.bltz (fld w 15 6) (fld w 0 15))
  | 3 => some (.bgez (fld w 15 6) (fld w 0 15))
  | 4 => some (.bgtz (fld w 15 6) (fld w 0 15))
  | 5 => some (.blez (fld w 15 6) (fld w 0 15))
  | _ => none

/-- Major 0x11 (R103 and on): the row its selector names, with its zero fields checked. -/
def decode11 (w : IWord) : Option Instr :=
  some (.jal (fld w 19 6) (fld w 0 19))

/-- Major 0x12 (R104 and on): the row its selector names, with its zero fields checked. -/
def decode12 (w : IWord) : Option Instr :=
  some (.jalr (fld w 19 6) (fld w 13 6) (fld w 0 13))

/-- Major 0x13 (R105 and on): the row its selector names, with its zero fields checked. -/
def decode13 (w : IWord) : Option Instr :=
  if w &&& 0x1f8001f#32 = 0 then some (.rpt (fld w 11 8) (fld w 5 6)) else none

/-- Major 0x14 (R106 and on): the row its selector names, with its zero fields checked. -/
def decode14 (w : IWord) : Option Instr :=
  match (fld w 8 5).toNat with
  | 0 => if w &&& 0x1ffe0ff#32 = 0 then some (.nop (streamOf w)) else none
  | 1 => if w &&& 0x1ffe0ff#32 = 0 then some .done else none
  | 2 => if w &&& 0x1ffe0ff#32 = 0 then some .yield else none
  | 3 => if w &&& 0x1ffe0ff#32 = 0 then some .step else none
  | 4 => if w &&& 0x1ffe000#32 = 0 then some (.safept (fld w 0 8)) else none
  | 5 => if w &&& 0x1ffe000#32 = 0 then some (.trap (fld w 0 8)) else none
  | 6 => if w &&& 0x1ffe000#32 = 0 then some (.brk (fld w 0 8)) else none
  | _ => none

/-- Major 0x15 (R112 and on): the row its selector names, with its zero fields checked. -/
def decode15 (w : IWord) : Option Instr :=
  match (fld w 12 1).toNat with
  | 0 => if w &&& 0x7efc0#32 = 0 then some (.sysrd (streamOf w) (fld w 19 6) (fld w 0 6)) else none
  | 1 => if w &&& 0x1f80fc0#32 = 0 then some (.syswr (streamOf w) (fld w 13 6) (fld w 0 6)) else none
  | _ => none

/-- Major 0x16 (R115 and on): the row its selector names, with its zero fields checked. -/
def decode16 (w : IWord) : Option Instr :=
  match (fld w 0 7).toNat with
  | 0 => if w &&& 0x1f80#32 = 0 then some (.tokreq (fld w 19 6) (fld w 13 6)) else none
  | 1 => if w &&& 0x1f80#32 = 0 then some (.tokret (fld w 19 6) (fld w 13 6)) else none
  | 2 => some (.toklend (fld w 19 6) (fld w 13 6) (fld w 7 6))
  | 3 => if w &&& 0x7ff80#32 = 0 then some (.tokwait (fld w 19 6)) else none
  | 4 => if w &&& 0x7ff80#32 = 0 then some (.tokq (fld w 19 6)) else none
  | _ => none

/-- Major 0x18 (R124 and on): the row its selector names, with its zero fields checked. -/
def decode18 (w : IWord) : Option Instr :=
  match (fld w 7 3).toNat with
  | 0 => some (.ldB (fld w 19 6) (fld w 13 6) (fld w 10 3) (fld w 0 7))
  | 1 => some (.ldBu (fld w 19 6) (fld w 13 6) (fld w 10 3) (fld w 0 7))
  | 2 => some (.ldH (fld w 19 6) (fld w 13 6) (fld w 10 3) (fld w 0 7))
  | 3 => some (.ldHu (fld w 19 6) (fld w 13 6) (fld w 10 3) (fld w 0 7))
  | 4 => some (.ldW (fld w 19 6) (fld w 13 6) (fld w 10 3) (fld w 0 7))
  | 5 => some (.ldWu (fld w 19 6) (fld w 13 6) (fld w 10 3) (fld w 0 7))
  | 6 => some (.ldD (fld w 19 6) (fld w 13 6) (fld w 10 3) (fld w 0 7))
  | _ => none

/-- Major 0x19 (R124 and on): the row its selector names, with its zero fields checked. -/
def decode19 (w : IWord) : Option Instr :=
  match (fld w 7 3).toNat with
  | 0 => some (.stB (fld w 19 6) (fld w 13 6) (fld w 10 3) (fld w 0 7))
  | 2 => some (.stH (fld w 19 6) (fld w 13 6) (fld w 10 3) (fld w 0 7))
  | 4 => some (.stW (fld w 19 6) (fld w 13 6) (fld w 10 3) (fld w 0 7))
  | 6 => some (.stD (fld w 19 6) (fld w 13 6) (fld w 10 3) (fld w 0 7))
  | _ => none

/-- Major 0x1A (R126 and on): the row its selector names, with its zero fields checked. -/
def decode1A (w : IWord) : Option Instr :=
  match (fld w 7 3).toNat with
  | 0 => some (.ldfW (fld w 19 6) (fld w 13 6) (fld w 10 3) (fld w 0 7))
  | 1 => some (.ldfD (fld w 19 6) (fld w 13 6) (fld w 10 3) (fld w 0 7))
  | 2 => some (.ldtW (fld w 19 6) (fld w 13 6) (fld w 10 3) (fld w 0 7))
  | 3 => some (.ldtD (fld w 19 6) (fld w 13 6) (fld w 10 3) (fld w 0 7))
  | 4 => some (.stfW (fld w 19 6) (fld w 13 6) (fld w 10 3) (fld w 0 7))
  | 5 => some (.stfD (fld w 19 6) (fld w 13 6) (fld w 10 3) (fld w 0 7))
  | 6 => some (.stxW (fld w 19 6) (fld w 13 6) (fld w 10 3) (fld w 0 7))
  | 7 => some (.stxD (fld w 19 6) (fld w 13 6) (fld w 10 3) (fld w 0 7))
  | _ => none

/-- Major 0x1B (R128 and on): the row its selector names, with its zero fields checked. -/
def decode1B (w : IWord) : Option Instr :=
  match (fld w 0 4).toNat with
  | 0 => if w &&& 0x1000000#32 = 0 then some (.vld (fld w 19 5) (fld w 13 6) (fld w 7 6) (fld w 4 3)) else none
  | 1 => if w &&& 0x1000000#32 = 0 then some (.vst (fld w 19 5) (fld w 13 6) (fld w 7 6) (fld w 4 3)) else none
  | 2 => if w &&& 0x1000000#32 = 0 then some (.vldx (fld w 19 5) (fld w 13 6) (fld w 7 6) (fld w 4 3)) else none
  | 3 => if w &&& 0x1000000#32 = 0 then some (.vstx (fld w 19 5) (fld w 13 6) (fld w 7 6) (fld w 4 3)) else none
  | 4 => if w &&& 0x1000000#32 = 0 then some (.vldb (fld w 19 5) (fld w 13 6) (fld w 7 6) (fld w 4 3)) else none
  | _ => none

/-- Major 0x1C (R132 and on): the row its selector names, with its zero fields checked. -/
def decode1C (w : IWord) : Option Instr :=
  match (fld w 11 2).toNat with
  | 0 => if w &&& 0x1ffe7fc#32 = 0 then (scopeOf (fld w 0 2)).bind fun ys => some (.acq ys) else none
  | 1 => if w &&& 0x1ffe7fc#32 = 0 then (scopeOf (fld w 0 2)).bind fun ys => some (.rel ys) else none
  | 2 => if w &&& 0x1ffe7ff#32 = 0 then some .fence else none
  | _ => none

/-- Major 0x1D (R135 and on): the row its selector names, with its zero fields checked. -/
def decode1D (w : IWord) : Option Instr :=
  match (fld w 0 7).toNat with
  | 0 => if w &&& 0x1f80000#32 = 0 then some (.cwb (fld w 13 6) (fld w 7 6)) else none
  | 1 => if w &&& 0x1f80000#32 = 0 then some (.cinv (fld w 13 6) (fld w 7 6)) else none
  | 2 => if w &&& 0x1f80000#32 = 0 then some (.disc (fld w 13 6) (fld w 7 6)) else none
  | 3 => if w &&& 0x1f80000#32 = 0 then some (.pf (fld w 13 6) (fld w 7 6)) else none
  | 4 => if w &&& 0x1f80000#32 = 0 then some (.pf2 (fld w 13 6) (fld w 7 6)) else none
  | 5 => if w &&& 0x1f80000#32 = 0 then some (.pmig (fld w 13 6) (fld w 7 6)) else none
  | 6 => if w &&& 0x1f80000#32 = 0 then some (.fefill (fld w 13 6) (fld w 7 6)) else none
  | 7 => if w &&& 0x1f80000#32 = 0 then some (.feempty (fld w 13 6) (fld w 7 6)) else none
  | _ => none

/-- Major 0x20 (R138 and on): the row its selector names, with its zero fields checked. -/
def decode20 (w : IWord) : Option Instr :=
  match (fld w 0 5).toNat with
  | 0 => (orderOf (fld w 5 2)).bind fun yo => some (.aadd (fld w 19 6) (fld w 13 6) (fld w 7 6) yo)
  | 1 => (orderOf (fld w 5 2)).bind fun yo => some (.aaddW (fld w 19 6) (fld w 13 6) (fld w 7 6) yo)
  | 2 => (orderOf (fld w 5 2)).bind fun yo => some (.faadd (fld w 19 6) (fld w 13 6) (fld w 7 6) yo)
  | 3 => (orderOf (fld w 5 2)).bind fun yo => some (.aand (fld w 19 6) (fld w 13 6) (fld w 7 6) yo)
  | 4 => (orderOf (fld w 5 2)).bind fun yo => some (.aor (fld w 19 6) (fld w 13 6) (fld w 7 6) yo)
  | 5 => (orderOf (fld w 5 2)).bind fun yo => some (.axor (fld w 19 6) (fld w 13 6) (fld w 7 6) yo)
  | 6 => (orderOf (fld w 5 2)).bind fun yo => some (.amin (fld w 19 6) (fld w 13 6) (fld w 7 6) yo)
  | 7 => (orderOf (fld w 5 2)).bind fun yo => some (.amax (fld w 19 6) (fld w 13 6) (fld w 7 6) yo)
  | 8 => (orderOf (fld w 5 2)).bind fun yo => some (.aminu (fld w 19 6) (fld w 13 6) (fld w 7 6) yo)
  | 9 => (orderOf (fld w 5 2)).bind fun yo => some (.amaxu (fld w 19 6) (fld w 13 6) (fld w 7 6) yo)
  | 10 => (orderOf (fld w 5 2)).bind fun yo => some (.aswap (fld w 19 6) (fld w 13 6) (fld w 7 6) yo)
  | 11 => if w &&& 0x1f80#32 = 0 then (orderOf (fld w 5 2)).bind fun yo => some (.aload (fld w 19 6) (fld w 13 6) yo) else none
  | 12 => if w &&& 0x1f80000#32 = 0 then (orderOf (fld w 5 2)).bind fun yo => some (.astore (fld w 13 6) (fld w 7 6) yo) else none
  | _ => none

/-- Major 0x21 (R141 and on): the row its selector names, with its zero fields checked. -/
def decode21 (w : IWord) : Option Instr :=
  match (fld w 0 5).toNat with
  | 0 => (orderOf (fld w 5 2)).bind fun yo => some (.acas (fld w 19 6) (fld w 13 6) (fld w 7 6) yo)
  | 1 => (orderOf (fld w 5 2)).bind fun yo => some (.acasW (fld w 19 6) (fld w 13 6) (fld w 7 6) yo)
  | _ => none

/-- Major 0x22 (R143 and on): the row its selector names, with its zero fields checked. -/
def decode22 (w : IWord) : Option Instr :=
  if w &&& 0x1c#32 = 0 then (orderOf (fld w 5 2)).bind fun yo => some (.atopk (fld w 19 6) (fld w 13 6) (fld w 7 6) yo (fld w 0 2)) else none

/-- Major 0x23 (R145 and on): the row its selector names, with its zero fields checked. -/
def decode23 (w : IWord) : Option Instr :=
  if w &&& 0x7f#32 = 0 then some (.alink (fld w 19 6) (fld w 13 6) (fld w 7 6)) else none

/-- Major 0x24 (R149 and on): the row its selector names, with its zero fields checked. -/
def decode24 (w : IWord) : Option Instr :=
  match (fld w 12 1).toNat with
  | 0 => if w &&& 0x1ffeff8#32 = 0 then some (.bwait (fld w 0 3)) else none
  | 1 => if w &&& 0x1ffeff8#32 = 0 then some (.barr (fld w 0 3)) else none
  | _ => none

/-- Major 0x25 (R150 and on): the row its selector names, with its zero fields checked. -/
def decode25 (w : IWord) : Option Instr :=
  match (fld w 0 7).toNat with
  | 0 => some (.bredMin (fld w 19 6) (fld w 13 6) (fld w 7 6))
  | 1 => some (.bredSum (fld w 19 6) (fld w 13 6) (fld w 7 6))
  | 2 => some (.bredOr (fld w 19 6) (fld w 13 6) (fld w 7 6))
  | 3 => some (.harm (fld w 19 6) (fld w 13 6) (fld w 7 6))
  | 4 => if w &&& 0x1f80000#32 = 0 then some (.harr (fld w 13 6) (fld w 7 6)) else none
  | 5 => if w &&& 0x1f80000#32 = 0 then some (.hwait (fld w 13 6) (fld w 7 6)) else none
  | 6 => some (.hexp (fld w 19 6) (fld w 13 6) (fld w 7 6))
  | 7 => if w &&& 0x1f81f80#32 = 0 then some (.qfence (fld w 13 6)) else none
  | _ => none

/-- Major 0x27 (R163 and on): the row its selector names, with its zero fields checked. -/
def decode27 (w : IWord) : Option Instr :=
  if w &&& 0x1f8001f#32 = 0 then some (.vshape (fld w 13 6) (fld w 5 8)) else none

/-- Major 0x28 (R165 and on): the row its selector names, with its zero fields checked. -/
def decode28 (w : IWord) : Option Instr :=
  match (fld w 0 6).toNat with
  | 0 => (vtypeOf (fld w 6 4)).bind fun yt => some (.vadd (fld w 20 5) (fld w 15 5) (fld w 10 5) yt)
  | 1 => (vtypeOf (fld w 6 4)).bind fun yt => some (.vsub (fld w 20 5) (fld w 15 5) (fld w 10 5) yt)
  | 2 => (vtypeOf (fld w 6 4)).bind fun yt => some (.vmul (fld w 20 5) (fld w 15 5) (fld w 10 5) yt)
  | 3 => (vtypeOf (fld w 6 4)).bind fun yt => some (.vmla (fld w 20 5) (fld w 15 5) (fld w 10 5) yt)
  | 4 => (vtypeOf (fld w 6 4)).bind fun yt => some (.vmin (fld w 20 5) (fld w 15 5) (fld w 10 5) yt)
  | 5 => (vtypeOf (fld w 6 4)).bind fun yt => some (.vmax (fld w 20 5) (fld w 15 5) (fld w 10 5) yt)
  | 6 => if w &&& 0x7c00#32 = 0 then (vtypeOf (fld w 6 4)).bind fun yt => some (.vabs (fld w 20 5) (fld w 15 5) yt) else none
  | 7 => if w &&& 0x7c00#32 = 0 then (vtypeOf (fld w 6 4)).bind fun yt => some (.vneg (fld w 20 5) (fld w 15 5) yt) else none
  | 8 => (vtypeOf (fld w 6 4)).bind fun yt => some (.vand (fld w 20 5) (fld w 15 5) (fld w 10 5) yt)
  | 9 => (vtypeOf (fld w 6 4)).bind fun yt => some (.vor (fld w 20 5) (fld w 15 5) (fld w 10 5) yt)
  | 10 => (vtypeOf (fld w 6 4)).bind fun yt => some (.vxor (fld w 20 5) (fld w 15 5) (fld w 10 5) yt)
  | 11 => if w &&& 0x7c00#32 = 0 then (vtypeOf (fld w 6 4)).bind fun yt => some (.vnot (fld w 20 5) (fld w 15 5) yt) else none
  | 12 => (vtypeOf (fld w 6 4)).bind fun yt => some (.vshl (fld w 20 5) (fld w 15 5) (fld w 10 5) yt)
  | 13 => (vtypeOf (fld w 6 4)).bind fun yt => some (.vshr (fld w 20 5) (fld w 15 5) (fld w 10 5) yt)
  | 14 => (vtypeOf (fld w 6 4)).bind fun yt => some (.vadds (fld w 20 5) (fld w 15 5) (fld w 10 5) yt)
  | 15 => (vtypeOf (fld w 6 4)).bind fun yt => some (.vsubs (fld w 20 5) (fld w 15 5) (fld w 10 5) yt)
  | 16 => (vtypeOf (fld w 6 4)).bind fun yt => some (.vsel (fld w 20 5) (fld w 15 5) (fld w 10 5) yt)
  | 17 => (vtypeOf (fld w 6 4)).bind fun yt => some (.vdiv (fld w 20 5) (fld w 15 5) (fld w 10 5) yt)
  | 18 => if w &&& 0x7c00#32 = 0 then (vtypeOf (fld w 6 4)).bind fun yt => some (.vrcp (fld w 20 5) (fld w 15 5) yt) else none
  | 19 => if w &&& 0x7c00#32 = 0 then (vtypeOf (fld w 6 4)).bind fun yt => some (.vrsq (fld w 20 5) (fld w 15 5) yt) else none
  | 20 => if w &&& 0x7c00#32 = 0 then (vtypeOf (fld w 6 4)).bind fun yt => some (.vsqrt (fld w 20 5) (fld w 15 5) yt) else none
  | 21 => if w &&& 0x7c00#32 = 0 then (vtypeOf (fld w 6 4)).bind fun yt => some (.vmov (fld w 20 5) (fld w 15 5) yt) else none
  | 22 => if w &&& 0x7c00#32 = 0 then (vtypeOf (fld w 6 4)).bind fun yt => some (.vtrans (fld w 20 5) (fld w 15 5) yt) else none
  | 23 => (vtypeOf (fld w 6 4)).bind fun yt => some (.vmulh (fld w 20 5) (fld w 15 5) (fld w 10 5) yt)
  | 24 => (vtypeOf (fld w 6 4)).bind fun yt => some (.vtacc (fld w 20 5) (fld w 15 5) (fld w 10 5) yt)
  | 25 => (vtypeOf (fld w 6 4)).bind fun yt => some (.vdot4 (fld w 20 5) (fld w 15 5) (fld w 10 5) yt)
  | _ => none

/-- Major 0x29 (R168 and on): the row its selector names, with its zero fields checked. -/
def decode29 (w : IWord) : Option Instr :=
  (vtypeOf (fld w 6 4)).bind fun yt => (condOf (fld w 0 6)).bind fun yc => some (.vcmp (fld w 20 5) (fld w 15 5) (fld w 10 5) yt yc)

/-- Major 0x2A (R171 and on): the row its selector names, with its zero fields checked. -/
def decode2A (w : IWord) : Option Instr :=
  if w &&& 0x7c00#32 = 0 then (vtypeOf (fld w 6 4)).bind fun ysrc => (vtypeOf (fld w 0 4)).bind fun ydst => some (.vcvt (fld w 20 5) (fld w 15 5) ysrc (fld w 5 1 == 1) (fld w 4 1 == 1) ydst) else none

/-- Major 0x2B (R172 and on): the row its selector names, with its zero fields checked. -/
def decode2B (w : IWord) : Option Instr :=
  match (fld w 0 6).toNat with
  | 0 => if w &&& 0x7c00#32 = 0 then (vtypeOf (fld w 6 4)).bind fun yt => some (.vrint (fld w 20 5) (fld w 15 5) yt) else none
  | 1 => if w &&& 0x7c00#32 = 0 then (vtypeOf (fld w 6 4)).bind fun yt => some (.vfloor (fld w 20 5) (fld w 15 5) yt) else none
  | 2 => if w &&& 0x7c00#32 = 0 then (vtypeOf (fld w 6 4)).bind fun yt => some (.vceil (fld w 20 5) (fld w 15 5) yt) else none
  | 3 => if w &&& 0x7c00#32 = 0 then (vtypeOf (fld w 6 4)).bind fun yt => some (.vtrunc (fld w 20 5) (fld w 15 5) yt) else none
  | 4 => if w &&& 0x7c00#32 = 0 then (vtypeOf (fld w 6 4)).bind fun yt => some (.vrne (fld w 20 5) (fld w 15 5) yt) else none
  | 5 => if w &&& 0x7c00#32 = 0 then (vtypeOf (fld w 6 4)).bind fun yt => some (.vexf (fld w 20 5) (fld w 15 5) yt) else none
  | 6 => (vtypeOf (fld w 6 4)).bind fun yt => some (.vinse (fld w 20 5) (fld w 15 5) (fld w 10 5) yt)
  | 7 => if w &&& 0x7c00#32 = 0 then (vtypeOf (fld w 6 4)).bind fun yt => some (.vgetexp (fld w 20 5) (fld w 15 5) yt) else none
  | 8 => if w &&& 0x7c00#32 = 0 then (vtypeOf (fld w 6 4)).bind fun yt => some (.vgetman (fld w 20 5) (fld w 15 5) yt) else none
  | _ => none

/-- Major 0x2C (R177 and on): the row its selector names, with its zero fields checked. -/
def decode2C (w : IWord) : Option Instr :=
  match (fld w 0 5).toNat with
  | 0 => (vtypeOf (fld w 5 4)).bind fun yt => some (.vaddS (fld w 20 5) (fld w 15 5) (fld w 9 6) yt)
  | 1 => (vtypeOf (fld w 5 4)).bind fun yt => some (.vsubS (fld w 20 5) (fld w 15 5) (fld w 9 6) yt)
  | 2 => (vtypeOf (fld w 5 4)).bind fun yt => some (.vmulS (fld w 20 5) (fld w 15 5) (fld w 9 6) yt)
  | 3 => (vtypeOf (fld w 5 4)).bind fun yt => some (.vmlaS (fld w 20 5) (fld w 15 5) (fld w 9 6) yt)
  | 4 => (vtypeOf (fld w 5 4)).bind fun yt => some (.vminS (fld w 20 5) (fld w 15 5) (fld w 9 6) yt)
  | 5 => (vtypeOf (fld w 5 4)).bind fun yt => some (.vmaxS (fld w 20 5) (fld w 15 5) (fld w 9 6) yt)
  | 6 => if w &&& 0xf8000#32 = 0 then (vtypeOf (fld w 5 4)).bind fun yt => some (.vbcast (fld w 20 5) (fld w 9 6) yt) else none
  | 7 => (vtypeOf (fld w 5 4)).bind fun yt => some (.vshlS (fld w 20 5) (fld w 15 5) (fld w 9 6) yt)
  | 8 => (vtypeOf (fld w 5 4)).bind fun yt => some (.vshrS (fld w 20 5) (fld w 15 5) (fld w 9 6) yt)
  | _ => none

/-- Major 0x2D (R179 and on): the row its selector names, with its zero fields checked. -/
def decode2D (w : IWord) : Option Instr :=
  match (fld w 0 2).toNat with
  | 0 => if w &&& 0x7c30#32 = 0 then (vtypeOf (fld w 6 4)).bind fun yt => (dirOf (fld w 2 2)).bind fun yr => some (.vredsum (fld w 20 5) (fld w 15 5) yt yr) else none
  | 1 => if w &&& 0x7c30#32 = 0 then (vtypeOf (fld w 6 4)).bind fun yt => (dirOf (fld w 2 2)).bind fun yr => some (.vredmax (fld w 20 5) (fld w 15 5) yt yr) else none
  | 2 => if w &&& 0x7c30#32 = 0 then (vtypeOf (fld w 6 4)).bind fun yt => (dirOf (fld w 2 2)).bind fun yr => some (.vredmin (fld w 20 5) (fld w 15 5) yt yr) else none
  | _ => none

/-- Major 0x2E (R181 and on): the row its selector names, with its zero fields checked. -/
def decode2E (w : IWord) : Option Instr :=
  match (fld w 0 6).toNat with
  | 0 => (vtypeOf (fld w 6 4)).bind fun yt => some (.vrot (fld w 20 5) (fld w 15 5) (fld w 10 5) yt)
  | 1 => (vtypeOf (fld w 6 4)).bind fun yt => some (.vperm (fld w 20 5) (fld w 15 5) (fld w 10 5) yt)
  | 2 => if w &&& 0x7fc0#32 = 0 then some (.vunp3 (fld w 20 5) (fld w 15 5)) else none
  | 3 => if w &&& 0x7fc0#32 = 0 then some (.vunp4 (fld w 20 5) (fld w 15 5)) else none
  | 4 => if w &&& 0x7fc0#32 = 0 then some (.vunp3i (fld w 20 5) (fld w 15 5)) else none
  | 5 => if w &&& 0x7fc0#32 = 0 then some (.vpack4 (fld w 20 5) (fld w 15 5)) else none
  | 6 => if w &&& 0x7fc0#32 = 0 then some (.vpack3 (fld w 20 5) (fld w 15 5)) else none
  | 7 => (vtypeOf (fld w 6 4)).bind fun yt => some (.vzip (fld w 20 5) (fld w 15 5) (fld w 10 5) yt)
  | 8 => if w &&& 0x7c00#32 = 0 then (vtypeOf (fld w 6 4)).bind fun yt => some (.vunzip (fld w 20 5) (fld w 15 5) yt) else none
  | _ => none

/-- Major 0x2F (R164 and on): the row its selector names, with its zero fields checked. -/
def decode2F (w : IWord) : Option Instr :=
  (vtypeOf (fld w 0 4)).bind fun yt => some (.vsplat (fld w 20 5) (fld w 4 16) yt)

/-- Major 0x30 (R193 and on): the row its selector names, with its zero fields checked. -/
def decode30 (w : IWord) : Option Instr :=
  match (fld w 0 4).toNat with
  | 0 => some (.mma (fld w 22 3) (fld w 16 6) (fld w 10 6) (fld w 4 6))
  | 1 => some (.mmaZ (fld w 22 3) (fld w 16 6) (fld w 10 6) (fld w 4 6))
  | 2 => some (.mmaT (fld w 22 3) (fld w 16 6) (fld w 10 6) (fld w 4 6))
  | 3 => some (.mmaTz (fld w 22 3) (fld w 16 6) (fld w 10 6) (fld w 4 6))
  | _ => none

/-- Major 0x31 (R194 and on): the row its selector names, with its zero fields checked. -/
def decode31 (w : IWord) : Option Instr :=
  match (fld w 0 4).toNat with
  | 0 => if w &&& 0x3ffff0#32 = 0 then some (.mzero (fld w 22 3)) else none
  | 1 => if w &&& 0xfc00#32 = 0 then some (.mrd (fld w 22 3) (fld w 16 6) (fld w 4 6)) else none
  | 2 => if w &&& 0xfc00#32 = 0 then some (.mwr (fld w 22 3) (fld w 16 6) (fld w 4 6)) else none
  | 3 => some (.mscl (fld w 22 3) (fld w 16 6) (fld w 10 6) (fld w 4 6))
  | _ => none

/-- Major 0x32 (R198 and on): the row its selector names, with its zero fields checked. -/
def decode32 (w : IWord) : Option Instr :=
  match (fld w 0 4).toNat with
  | 0 => some (.smma (fld w 22 3) (fld w 16 6) (fld w 10 6) (fld w 4 6))
  | 1 => some (.smmaZ (fld w 22 3) (fld w 16 6) (fld w 10 6) (fld w 4 6))
  | 2 => some (.smmaB (fld w 22 3) (fld w 16 6) (fld w 10 6) (fld w 4 6))
  | _ => none

/-- Major 0x33 (R200 and on): the row its selector names, with its zero fields checked. -/
def decode33 (w : IWord) : Option Instr :=
  match (fld w 0 4).toNat with
  | 0 => some (.attnQk (fld w 22 3) (fld w 16 6) (fld w 10 6) (fld w 4 6))
  | 1 => if w &&& 0x3ffc00#32 = 0 then some (.attnSm (fld w 22 3) (fld w 4 6)) else none
  | 2 => if w &&& 0xfc00#32 = 0 then some (.attnPv (fld w 22 3) (fld w 16 6) (fld w 4 6)) else none
  | 3 => if w &&& 0x3ffc00#32 = 0 then some (.attnFin (fld w 22 3) (fld w 4 6)) else none
  | 4 => some (.attnStep (fld w 22 3) (fld w 16 6) (fld w 10 6) (fld w 4 6))
  | _ => none

/-- Major 0x34 (R223 and on): the row its selector names, with its zero fields checked. -/
def decode34 (w : IWord) : Option Instr :=
  match (fld w 0 7).toNat with
  | 0 => some (.ppop (fld w 19 6) (fld w 13 6) (fld w 7 6))
  | 1 => some (.ppopNb (fld w 19 6) (fld w 13 6) (fld w 7 6))
  | 2 => some (.steal (fld w 19 6) (fld w 13 6) (fld w 7 6))
  | 3 => some (.ppush (fld w 19 6) (fld w 13 6) (fld w 7 6))
  | _ => none

/-- Major 0x35 (R226 and on): the row its selector names, with its zero fields checked. -/
def decode35 (w : IWord) : Option Instr :=
  if w &&& 0x7f#32 = 0 then some (.rule (fld w 19 6) (fld w 13 6) (fld w 7 6)) else none

/-- Major 0x36 (R228 and on): the row its selector names, with its zero fields checked. -/
def decode36 (w : IWord) : Option Instr :=
  match (fld w 0 7).toNat with
  | 0 => some (.rewr (fld w 19 6) (fld w 13 6) (fld w 7 6))
  | 1 => some (.rcall (fld w 19 6) (fld w 13 6) (fld w 7 6))
  | 2 => some (.rgroup (fld w 19 6) (fld w 13 6) (fld w 7 6))
  | _ => none

/-- Major 0x37 (R231 and on): the row its selector names, with its zero fields checked. -/
def decode37 (w : IWord) : Option Instr :=
  match (fld w 0 7).toNat with
  | 0 => some (.nalloc (fld w 19 6) (fld w 13 6) (fld w 7 6))
  | 1 => if w &&& 0x1f80000#32 = 0 then some (.nfree (fld w 13 6) (fld w 7 6)) else none
  | _ => none

/-- Major 0x3E (R394 and on): the row its selector names, with its zero fields checked. -/
def decode3E (w : IWord) : Option Instr :=
  match (fld w 0 7).toNat with
  | 0 => if w &&& 0x1f80000#32 = 0 then some (.mext (fld w 13 6) (fld w 7 6)) else none
  | 1 => if w &&& 0x1f80000#32 = 0 then some (.mget (fld w 13 6) (fld w 7 6)) else none
  | 2 => if w &&& 0x1f81f80#32 = 0 then some (.mlock (fld w 13 6)) else none
  | 3 => if w &&& 0x1f80#32 = 0 then some (.cfgrd (fld w 19 6) (fld w 13 6)) else none
  | 4 => if w &&& 0x1f80000#32 = 0 then some (.cfgwr (fld w 13 6) (fld w 7 6)) else none
  | 5 => if w &&& 0x1ffff80#32 = 0 then some .fret else none
  | _ => none

/-- Step 3 of R75 up to the value lists: the row a word's fields name, or none for a reserved fn, cond, kind or
type code or a non-zero unused field. -/
def decodeRaw (w : IWord) : Option Instr :=
  match (fld w 25 6).toNat with
  | 0x00 => decode00 w
  | 0x01 => decode01 w
  | 0x02 => decode02 w
  | 0x03 => decode03 w
  | 0x04 => decode04 w
  | 0x05 => decode05 w
  | 0x06 => decode06 w
  | 0x07 => decode07 w
  | 0x08 => decode08 w
  | 0x09 => decode09 w
  | 0x0A => decode0A w
  | 0x0B => decode0B w
  | 0x0C => decode0C w
  | 0x10 => decode10 w
  | 0x11 => decode11 w
  | 0x12 => decode12 w
  | 0x13 => decode13 w
  | 0x14 => decode14 w
  | 0x15 => decode15 w
  | 0x16 => decode16 w
  | 0x18 => decode18 w
  | 0x19 => decode19 w
  | 0x1A => decode1A w
  | 0x1B => decode1B w
  | 0x1C => decode1C w
  | 0x1D => decode1D w
  | 0x20 => decode20 w
  | 0x21 => decode21 w
  | 0x22 => decode22 w
  | 0x23 => decode23 w
  | 0x24 => decode24 w
  | 0x25 => decode25 w
  | 0x27 => decode27 w
  | 0x28 => decode28 w
  | 0x29 => decode29 w
  | 0x2A => decode2A w
  | 0x2B => decode2B w
  | 0x2C => decode2C w
  | 0x2D => decode2D w
  | 0x2E => decode2E w
  | 0x2F => decode2F w
  | 0x30 => decode30 w
  | 0x31 => decode31 w
  | 0x32 => decode32 w
  | 0x33 => decode33 w
  | 0x34 => decode34 w
  | 0x35 => decode35 w
  | 0x36 => decode36 w
  | 0x37 => decode37 w
  | 0x3E => decode3E w
  | _ => none

/-- Step 1 of R75: a reserved major opcode or a permanent word (R76). -/
def reservedWord (k : CoreKind) (w : IWord) : Bool :=
  let m := (fld w 25 6).toNat
  w == 0 || w == 0x80000000#32 || w == 0xFFFFFFFF#32 ||
    (decide (0x0D ≤ m) && decide (m ≤ 0x0F)) || m == 0x17 || m == 0x1E || m == 0x1F || m == 0x26 ||
    (decide (0x38 ≤ m) && !(m == 0x3E && k == .croft))

/-- The A-stream's major opcodes (R16). -/
def aMajor (m : Nat) : Bool :=
  decide (m ≤ 0x0B) || (decide (0x10 ≤ m) && decide (m ≤ 0x12)) || (decide (0x14 ≤ m) && decide (m ≤ 0x16)) ||
    (decide (0x18 ≤ m) && decide (m ≤ 0x1D)) || (decide (0x20 ≤ m) && decide (m ≤ 0x25)) ||
    (decide (0x34 ≤ m) && decide (m ≤ 0x37))

/-- The C-stream's major opcodes (R16); 0x14 only in its nop form. -/
def cMajor (m : Nat) : Bool :=
  decide (m ≤ 0x0A) || m == 0x0C || (decide (0x13 ≤ m) && decide (m ≤ 0x15)) ||
    (decide (0x27 ≤ m) && decide (m ≤ 0x33))

/-- Step 2 of R75: the word's stream executes its major opcode, and for 0x14 its fn; a `syswr.a` of FPC, VSHAPE,
VSTAT or AMAX counts here (R113). A Croft core executes A-stream words only (R392). -/
def streamOk (k : CoreKind) (w : IWord) : Bool :=
  let m := (fld w 25 6).toNat
  match k, streamOf w with
  | .croft, .A => true
  | .croft, .C => false
  | .tile, .A => aMajor m && !(m == 0x15 && fld w 12 1 == 1 && isCStreamReg (fld w 0 6))
  | .tile, .C => cMajor m && !(m == 0x14 && fld w 8 5 != 0)

/-- Steps 1 to 5 of R75. -/
def decode (k : CoreKind) (w : IWord) : Except DecodeError Instr :=
  if reservedWord k w then .error .illop
  else if !streamOk k w then .error .illstrm
  else match decodeRaw w with
    | none => .error .illop
    | some i =>
      if !i.fieldsOk k then .error .illop
      else if !i.specsExist k then .error .illstrm
      else if !i.dirsOk then .error .illop
      else .ok i

/-- Which core's decoder reads a word of the table: major 0x3E is the Croft cores' (R76, R392). -/
def coreOfWord (w : IWord) : CoreKind := if fld w 25 6 = 0x3E then .croft else .tile

/-- The instruction the decoder reads from a table word: bit 0 is the least significant bit of the one 32-bit word
(R68). The bits above `nbits` are 0; a number wider than a word is none. -/
def decodeTableWord (nbits w : Nat) : Option Instr :=
  if w < 2 ^ nbits ∧ w < 2 ^ 32 then
    match decode (coreOfWord (BitVec.ofNat 32 w)) (BitVec.ofNat 32 w) with
    | .ok i => some i
    | .error _ => none
  else none

/-- The word of an instruction, written from the formats of R69 and the tables of R77 to R82 and R394; none for an
engine command or an event, which have no word. -/
def encode : Instr → Option IWord
  | .add m d a b => some (mBit m ++ 0x0#6 ++ d ++ a ++ b ++ 0x0#7)
  | .sub m d a b => some (mBit m ++ 0x0#6 ++ d ++ a ++ b ++ 0x1#7)
  | .and m d a b => some (mBit m ++ 0x0#6 ++ d ++ a ++ b ++ 0x2#7)
  | .or m d a b => some (mBit m ++ 0x0#6 ++ d ++ a ++ b ++ 0x3#7)
  | .xor m d a b => some (mBit m ++ 0x0#6 ++ d ++ a ++ b ++ 0x4#7)
  | .sll m d a b => some (mBit m ++ 0x0#6 ++ d ++ a ++ b ++ 0x5#7)
  | .srl m d a b => some (mBit m ++ 0x0#6 ++ d ++ a ++ b ++ 0x6#7)
  | .sra m d a b => some (mBit m ++ 0x0#6 ++ d ++ a ++ b ++ 0x7#7)
  | .slt m d a b => some (mBit m ++ 0x0#6 ++ d ++ a ++ b ++ 0x8#7)
  | .sltu m d a b => some (mBit m ++ 0x0#6 ++ d ++ a ++ b ++ 0x9#7)
  | .min m d a b => some (mBit m ++ 0x0#6 ++ d ++ a ++ b ++ 0xa#7)
  | .max m d a b => some (mBit m ++ 0x0#6 ++ d ++ a ++ b ++ 0xb#7)
  | .minu m d a b => some (mBit m ++ 0x0#6 ++ d ++ a ++ b ++ 0xc#7)
  | .maxu m d a b => some (mBit m ++ 0x0#6 ++ d ++ a ++ b ++ 0xd#7)
  | .mul m d a b => some (mBit m ++ 0x0#6 ++ d ++ a ++ b ++ 0xe#7)
  | .mulh m d a b => some (mBit m ++ 0x0#6 ++ d ++ a ++ b ++ 0xf#7)
  | .mulhu m d a b => some (mBit m ++ 0x0#6 ++ d ++ a ++ b ++ 0x10#7)
  | .div m d a b => some (mBit m ++ 0x0#6 ++ d ++ a ++ b ++ 0x11#7)
  | .divu m d a b => some (mBit m ++ 0x0#6 ++ d ++ a ++ b ++ 0x12#7)
  | .rem m d a b => some (mBit m ++ 0x0#6 ++ d ++ a ++ b ++ 0x13#7)
  | .remu m d a b => some (mBit m ++ 0x0#6 ++ d ++ a ++ b ++ 0x14#7)
  | .clz m d a => some (mBit m ++ 0x0#6 ++ d ++ a ++ 0x15#13)
  | .ctz m d a => some (mBit m ++ 0x0#6 ++ d ++ a ++ 0x16#13)
  | .popc m d a => some (mBit m ++ 0x0#6 ++ d ++ a ++ 0x17#13)
  | .addsl1 m d a b => some (mBit m ++ 0x0#6 ++ d ++ a ++ b ++ 0x18#7)
  | .addsl2 m d a b => some (mBit m ++ 0x0#6 ++ d ++ a ++ b ++ 0x19#7)
  | .addsl3 m d a b => some (mBit m ++ 0x0#6 ++ d ++ a ++ b ++ 0x1a#7)
  | .addsl4 m d a b => some (mBit m ++ 0x0#6 ++ d ++ a ++ b ++ 0x1b#7)
  | .addi m d a i => some (mBit m ++ 0x1#6 ++ d ++ a ++ i)
  | .andi m d a i => some (mBit m ++ 0x2#6 ++ d ++ a ++ i)
  | .ori m d a i => some (mBit m ++ 0x3#6 ++ d ++ a ++ i)
  | .xori m d a i => some (mBit m ++ 0x4#6 ++ d ++ a ++ i)
  | .slti m d a i => some (mBit m ++ 0x5#6 ++ d ++ a ++ i)
  | .slli m d a s => some (mBit m ++ 0x6#6 ++ d ++ a ++ 0x0#7 ++ s)
  | .srli m d a s => some (mBit m ++ 0x6#6 ++ d ++ a ++ 0x20#7 ++ s)
  | .srai m d a s => some (mBit m ++ 0x6#6 ++ d ++ a ++ 0x40#7 ++ s)
  | .li m d i => some (mBit m ++ 0x7#6 ++ d ++ i)
  | .lih m d i => some (mBit m ++ 0x8#6 ++ d ++ i)
  | .bfx m d a p w => some (mBit m ++ 0x9#6 ++ d ++ a ++ 0x0#1 ++ p ++ w)
  | .bfxu m d a p w => some (mBit m ++ 0x9#6 ++ d ++ a ++ 0x1#1 ++ p ++ w)
  | .bfi m d a p w => some (mBit m ++ 0xa#6 ++ d ++ a ++ 0x0#1 ++ p ++ w)
  | .part d a b => some (0x1#1 ++ 0xb#6 ++ d ++ a ++ b ++ 0x0#7)
  | .partY d a b => some (0x1#1 ++ 0xb#6 ++ d ++ a ++ b ++ 0x1#7)
  | .fadd d a b => some (0x0#1 ++ 0xc#6 ++ d ++ a ++ b ++ 0x0#7)
  | .fsub d a b => some (0x0#1 ++ 0xc#6 ++ d ++ a ++ b ++ 0x1#7)
  | .fmul d a b => some (0x0#1 ++ 0xc#6 ++ d ++ a ++ b ++ 0x2#7)
  | .ffma d a b => some (0x0#1 ++ 0xc#6 ++ d ++ a ++ b ++ 0x3#7)
  | .fmin d a b => some (0x0#1 ++ 0xc#6 ++ d ++ a ++ b ++ 0x4#7)
  | .fmax d a b => some (0x0#1 ++ 0xc#6 ++ d ++ a ++ b ++ 0x5#7)
  | .feq d a b => some (0x0#1 ++ 0xc#6 ++ d ++ a ++ b ++ 0x6#7)
  | .flt d a b => some (0x0#1 ++ 0xc#6 ++ d ++ a ++ b ++ 0x7#7)
  | .fle d a b => some (0x0#1 ++ 0xc#6 ++ d ++ a ++ b ++ 0x8#7)
  | .fcvtSI d a => some (0x0#1 ++ 0xc#6 ++ d ++ a ++ 0x9#13)
  | .fcvtIS d a => some (0x0#1 ++ 0xc#6 ++ d ++ a ++ 0xa#13)
  | .beqz a o => some (0x1#1 ++ 0x10#6 ++ 0x0#4 ++ a ++ o)
  | .bnez a o => some (0x1#1 ++ 0x10#6 ++ 0x1#4 ++ a ++ o)
  | .bltz a o => some (0x1#1 ++ 0x10#6 ++ 0x2#4 ++ a ++ o)
  | .bgez a o => some (0x1#1 ++ 0x10#6 ++ 0x3#4 ++ a ++ o)
  | .bgtz a o => some (0x1#1 ++ 0x10#6 ++ 0x4#4 ++ a ++ o)
  | .blez a o => some (0x1#1 ++ 0x10#6 ++ 0x5#4 ++ a ++ o)
  | .jal d o => some (0x1#1 ++ 0x11#6 ++ d ++ o)
  | .jalr d a i => some (0x1#1 ++ 0x12#6 ++ d ++ a ++ i)
  | .rpt n k => some (0x0#1 ++ 0x13#6 ++ 0x0#6 ++ n ++ k ++ 0x0#5)
  | .nop m => some (mBit m ++ 0x14#6 ++ 0x0#25)
  | .done => some (0x1#1 ++ 0x14#6 ++ 0x100#25)
  | .yield => some (0x1#1 ++ 0x14#6 ++ 0x200#25)
  | .step => some (0x1#1 ++ 0x14#6 ++ 0x300#25)
  | .safept n => some (0x1#1 ++ 0x14#6 ++ 0x4#17 ++ n)
  | .trap n => some (0x1#1 ++ 0x14#6 ++ 0x5#17 ++ n)
  | .brk n => some (0x1#1 ++ 0x14#6 ++ 0x6#17 ++ n)
  | .sysrd m d r => some (mBit m ++ 0x15#6 ++ d ++ 0x0#13 ++ r)
  | .syswr m a r => some (mBit m ++ 0x15#6 ++ 0x0#6 ++ a ++ 0x40#7 ++ r)
  | .tokreq d a => some (0x1#1 ++ 0x16#6 ++ d ++ a ++ 0x0#13)
  | .tokret d a => some (0x1#1 ++ 0x16#6 ++ d ++ a ++ 0x1#13)
  | .toklend d a b => some (0x1#1 ++ 0x16#6 ++ d ++ a ++ b ++ 0x2#7)
  | .tokwait d => some (0x1#1 ++ 0x16#6 ++ d ++ 0x3#19)
  | .tokq d => some (0x1#1 ++ 0x16#6 ++ d ++ 0x4#19)
  | .ldB d b s o => some (0x1#1 ++ 0x18#6 ++ d ++ b ++ s ++ 0x0#3 ++ o)
  | .ldBu d b s o => some (0x1#1 ++ 0x18#6 ++ d ++ b ++ s ++ 0x1#3 ++ o)
  | .ldH d b s o => some (0x1#1 ++ 0x18#6 ++ d ++ b ++ s ++ 0x2#3 ++ o)
  | .ldHu d b s o => some (0x1#1 ++ 0x18#6 ++ d ++ b ++ s ++ 0x3#3 ++ o)
  | .ldW d b s o => some (0x1#1 ++ 0x18#6 ++ d ++ b ++ s ++ 0x4#3 ++ o)
  | .ldWu d b s o => some (0x1#1 ++ 0x18#6 ++ d ++ b ++ s ++ 0x5#3 ++ o)
  | .ldD d b s o => some (0x1#1 ++ 0x18#6 ++ d ++ b ++ s ++ 0x6#3 ++ o)
  | .stB d b s o => some (0x1#1 ++ 0x19#6 ++ d ++ b ++ s ++ 0x0#3 ++ o)
  | .stH d b s o => some (0x1#1 ++ 0x19#6 ++ d ++ b ++ s ++ 0x2#3 ++ o)
  | .stW d b s o => some (0x1#1 ++ 0x19#6 ++ d ++ b ++ s ++ 0x4#3 ++ o)
  | .stD d b s o => some (0x1#1 ++ 0x19#6 ++ d ++ b ++ s ++ 0x6#3 ++ o)
  | .ldfW d b s o => some (0x1#1 ++ 0x1a#6 ++ d ++ b ++ s ++ 0x0#3 ++ o)
  | .ldfD d b s o => some (0x1#1 ++ 0x1a#6 ++ d ++ b ++ s ++ 0x1#3 ++ o)
  | .ldtW d b s o => some (0x1#1 ++ 0x1a#6 ++ d ++ b ++ s ++ 0x2#3 ++ o)
  | .ldtD d b s o => some (0x1#1 ++ 0x1a#6 ++ d ++ b ++ s ++ 0x3#3 ++ o)
  | .stfW d b s o => some (0x1#1 ++ 0x1a#6 ++ d ++ b ++ s ++ 0x4#3 ++ o)
  | .stfD d b s o => some (0x1#1 ++ 0x1a#6 ++ d ++ b ++ s ++ 0x5#3 ++ o)
  | .stxW d b s o => some (0x1#1 ++ 0x1a#6 ++ d ++ b ++ s ++ 0x6#3 ++ o)
  | .stxD d b s o => some (0x1#1 ++ 0x1a#6 ++ d ++ b ++ s ++ 0x7#3 ++ o)
  | .vld v a b s => some (0x1#1 ++ 0x1b#6 ++ 0x0#1 ++ v ++ a ++ b ++ s ++ 0x0#4)
  | .vst v a b s => some (0x1#1 ++ 0x1b#6 ++ 0x0#1 ++ v ++ a ++ b ++ s ++ 0x1#4)
  | .vldx v a b s => some (0x1#1 ++ 0x1b#6 ++ 0x0#1 ++ v ++ a ++ b ++ s ++ 0x2#4)
  | .vstx v a b s => some (0x1#1 ++ 0x1b#6 ++ 0x0#1 ++ v ++ a ++ b ++ s ++ 0x3#4)
  | .vldb v a b s => some (0x1#1 ++ 0x1b#6 ++ 0x0#1 ++ v ++ a ++ b ++ s ++ 0x4#4)
  | .acq s => some (0x1#1 ++ 0x1c#6 ++ 0x0#23 ++ scopeCode s)
  | .rel s => some (0x1#1 ++ 0x1c#6 ++ 0x200#23 ++ scopeCode s)
  | .fence => some (0x1#1 ++ 0x1c#6 ++ 0x1000#25)
  | .cwb a b => some (0x1#1 ++ 0x1d#6 ++ 0x0#6 ++ a ++ b ++ 0x0#7)
  | .cinv a b => some (0x1#1 ++ 0x1d#6 ++ 0x0#6 ++ a ++ b ++ 0x1#7)
  | .disc a b => some (0x1#1 ++ 0x1d#6 ++ 0x0#6 ++ a ++ b ++ 0x2#7)
  | .pf a b => some (0x1#1 ++ 0x1d#6 ++ 0x0#6 ++ a ++ b ++ 0x3#7)
  | .pf2 a b => some (0x1#1 ++ 0x1d#6 ++ 0x0#6 ++ a ++ b ++ 0x4#7)
  | .pmig a b => some (0x1#1 ++ 0x1d#6 ++ 0x0#6 ++ a ++ b ++ 0x5#7)
  | .fefill a b => some (0x1#1 ++ 0x1d#6 ++ 0x0#6 ++ a ++ b ++ 0x6#7)
  | .feempty a b => some (0x1#1 ++ 0x1d#6 ++ 0x0#6 ++ a ++ b ++ 0x7#7)
  | .aadd d a b o => some (0x1#1 ++ 0x20#6 ++ d ++ a ++ b ++ orderCode o ++ 0x0#5)
  | .aaddW d a b o => some (0x1#1 ++ 0x20#6 ++ d ++ a ++ b ++ orderCode o ++ 0x1#5)
  | .faadd d a b o => some (0x1#1 ++ 0x20#6 ++ d ++ a ++ b ++ orderCode o ++ 0x2#5)
  | .aand d a b o => some (0x1#1 ++ 0x20#6 ++ d ++ a ++ b ++ orderCode o ++ 0x3#5)
  | .aor d a b o => some (0x1#1 ++ 0x20#6 ++ d ++ a ++ b ++ orderCode o ++ 0x4#5)
  | .axor d a b o => some (0x1#1 ++ 0x20#6 ++ d ++ a ++ b ++ orderCode o ++ 0x5#5)
  | .amin d a b o => some (0x1#1 ++ 0x20#6 ++ d ++ a ++ b ++ orderCode o ++ 0x6#5)
  | .amax d a b o => some (0x1#1 ++ 0x20#6 ++ d ++ a ++ b ++ orderCode o ++ 0x7#5)
  | .aminu d a b o => some (0x1#1 ++ 0x20#6 ++ d ++ a ++ b ++ orderCode o ++ 0x8#5)
  | .amaxu d a b o => some (0x1#1 ++ 0x20#6 ++ d ++ a ++ b ++ orderCode o ++ 0x9#5)
  | .aswap d a b o => some (0x1#1 ++ 0x20#6 ++ d ++ a ++ b ++ orderCode o ++ 0xa#5)
  | .aload d a o => some (0x1#1 ++ 0x20#6 ++ d ++ a ++ 0x0#6 ++ orderCode o ++ 0xb#5)
  | .astore a b o => some (0x1#1 ++ 0x20#6 ++ 0x0#6 ++ a ++ b ++ orderCode o ++ 0xc#5)
  | .acas d a b o => some (0x1#1 ++ 0x21#6 ++ d ++ a ++ b ++ orderCode o ++ 0x0#5)
  | .acasW d a b o => some (0x1#1 ++ 0x21#6 ++ d ++ a ++ b ++ orderCode o ++ 0x1#5)
  | .atopk d a b o k => some (0x1#1 ++ 0x22#6 ++ d ++ a ++ b ++ orderCode o ++ 0x0#3 ++ k)
  | .alink d a b => some (0x1#1 ++ 0x23#6 ++ d ++ a ++ b ++ 0x0#7)
  | .bwait t => some (0x1#1 ++ 0x24#6 ++ 0x0#22 ++ t)
  | .barr t => some (0x1#1 ++ 0x24#6 ++ 0x200#22 ++ t)
  | .bredMin d a b => some (0x1#1 ++ 0x25#6 ++ d ++ a ++ b ++ 0x0#7)
  | .bredSum d a b => some (0x1#1 ++ 0x25#6 ++ d ++ a ++ b ++ 0x1#7)
  | .bredOr d a b => some (0x1#1 ++ 0x25#6 ++ d ++ a ++ b ++ 0x2#7)
  | .harm d a b => some (0x1#1 ++ 0x25#6 ++ d ++ a ++ b ++ 0x3#7)
  | .harr a b => some (0x1#1 ++ 0x25#6 ++ 0x0#6 ++ a ++ b ++ 0x4#7)
  | .hwait a b => some (0x1#1 ++ 0x25#6 ++ 0x0#6 ++ a ++ b ++ 0x5#7)
  | .hexp d a b => some (0x1#1 ++ 0x25#6 ++ d ++ a ++ b ++ 0x6#7)
  | .qfence a => some (0x1#1 ++ 0x25#6 ++ 0x0#6 ++ a ++ 0x7#13)
  | .vshape r c => some (0x0#1 ++ 0x27#6 ++ 0x0#6 ++ r ++ c ++ 0x0#5)
  | .vadd d a b t => some (0x0#1 ++ 0x28#6 ++ d ++ a ++ b ++ vtypeCode t ++ 0x0#6)
  | .vsub d a b t => some (0x0#1 ++ 0x28#6 ++ d ++ a ++ b ++ vtypeCode t ++ 0x1#6)
  | .vmul d a b t => some (0x0#1 ++ 0x28#6 ++ d ++ a ++ b ++ vtypeCode t ++ 0x2#6)
  | .vmla d a b t => some (0x0#1 ++ 0x28#6 ++ d ++ a ++ b ++ vtypeCode t ++ 0x3#6)
  | .vmin d a b t => some (0x0#1 ++ 0x28#6 ++ d ++ a ++ b ++ vtypeCode t ++ 0x4#6)
  | .vmax d a b t => some (0x0#1 ++ 0x28#6 ++ d ++ a ++ b ++ vtypeCode t ++ 0x5#6)
  | .vabs d a t => some (0x0#1 ++ 0x28#6 ++ d ++ a ++ 0x0#5 ++ vtypeCode t ++ 0x6#6)
  | .vneg d a t => some (0x0#1 ++ 0x28#6 ++ d ++ a ++ 0x0#5 ++ vtypeCode t ++ 0x7#6)
  | .vand d a b t => some (0x0#1 ++ 0x28#6 ++ d ++ a ++ b ++ vtypeCode t ++ 0x8#6)
  | .vor d a b t => some (0x0#1 ++ 0x28#6 ++ d ++ a ++ b ++ vtypeCode t ++ 0x9#6)
  | .vxor d a b t => some (0x0#1 ++ 0x28#6 ++ d ++ a ++ b ++ vtypeCode t ++ 0xa#6)
  | .vnot d a t => some (0x0#1 ++ 0x28#6 ++ d ++ a ++ 0x0#5 ++ vtypeCode t ++ 0xb#6)
  | .vshl d a b t => some (0x0#1 ++ 0x28#6 ++ d ++ a ++ b ++ vtypeCode t ++ 0xc#6)
  | .vshr d a b t => some (0x0#1 ++ 0x28#6 ++ d ++ a ++ b ++ vtypeCode t ++ 0xd#6)
  | .vadds d a b t => some (0x0#1 ++ 0x28#6 ++ d ++ a ++ b ++ vtypeCode t ++ 0xe#6)
  | .vsubs d a b t => some (0x0#1 ++ 0x28#6 ++ d ++ a ++ b ++ vtypeCode t ++ 0xf#6)
  | .vsel d a b t => some (0x0#1 ++ 0x28#6 ++ d ++ a ++ b ++ vtypeCode t ++ 0x10#6)
  | .vdiv d a b t => some (0x0#1 ++ 0x28#6 ++ d ++ a ++ b ++ vtypeCode t ++ 0x11#6)
  | .vrcp d a t => some (0x0#1 ++ 0x28#6 ++ d ++ a ++ 0x0#5 ++ vtypeCode t ++ 0x12#6)
  | .vrsq d a t => some (0x0#1 ++ 0x28#6 ++ d ++ a ++ 0x0#5 ++ vtypeCode t ++ 0x13#6)
  | .vsqrt d a t => some (0x0#1 ++ 0x28#6 ++ d ++ a ++ 0x0#5 ++ vtypeCode t ++ 0x14#6)
  | .vmov d a t => some (0x0#1 ++ 0x28#6 ++ d ++ a ++ 0x0#5 ++ vtypeCode t ++ 0x15#6)
  | .vtrans d a t => some (0x0#1 ++ 0x28#6 ++ d ++ a ++ 0x0#5 ++ vtypeCode t ++ 0x16#6)
  | .vmulh d a b t => some (0x0#1 ++ 0x28#6 ++ d ++ a ++ b ++ vtypeCode t ++ 0x17#6)
  | .vtacc d a b t => some (0x0#1 ++ 0x28#6 ++ d ++ a ++ b ++ vtypeCode t ++ 0x18#6)
  | .vdot4 d a b t => some (0x0#1 ++ 0x28#6 ++ d ++ a ++ b ++ vtypeCode t ++ 0x19#6)
  | .vcmp d a b t c => some (0x0#1 ++ 0x29#6 ++ d ++ a ++ b ++ vtypeCode t ++ condCode c)
  | .vcvt d a src sa am dst => some (0x0#1 ++ 0x2a#6 ++ d ++ a ++ 0x0#5 ++ vtypeCode src ++ BitVec.ofBool sa ++ BitVec.ofBool am ++ vtypeCode dst)
  | .vrint d a t => some (0x0#1 ++ 0x2b#6 ++ d ++ a ++ 0x0#5 ++ vtypeCode t ++ 0x0#6)
  | .vfloor d a t => some (0x0#1 ++ 0x2b#6 ++ d ++ a ++ 0x0#5 ++ vtypeCode t ++ 0x1#6)
  | .vceil d a t => some (0x0#1 ++ 0x2b#6 ++ d ++ a ++ 0x0#5 ++ vtypeCode t ++ 0x2#6)
  | .vtrunc d a t => some (0x0#1 ++ 0x2b#6 ++ d ++ a ++ 0x0#5 ++ vtypeCode t ++ 0x3#6)
  | .vrne d a t => some (0x0#1 ++ 0x2b#6 ++ d ++ a ++ 0x0#5 ++ vtypeCode t ++ 0x4#6)
  | .vexf d a t => some (0x0#1 ++ 0x2b#6 ++ d ++ a ++ 0x0#5 ++ vtypeCode t ++ 0x5#6)
  | .vinse d a b t => some (0x0#1 ++ 0x2b#6 ++ d ++ a ++ b ++ vtypeCode t ++ 0x6#6)
  | .vgetexp d a t => some (0x0#1 ++ 0x2b#6 ++ d ++ a ++ 0x0#5 ++ vtypeCode t ++ 0x7#6)
  | .vgetman d a t => some (0x0#1 ++ 0x2b#6 ++ d ++ a ++ 0x0#5 ++ vtypeCode t ++ 0x8#6)
  | .vaddS d a s t => some (0x0#1 ++ 0x2c#6 ++ d ++ a ++ s ++ vtypeCode t ++ 0x0#5)
  | .vsubS d a s t => some (0x0#1 ++ 0x2c#6 ++ d ++ a ++ s ++ vtypeCode t ++ 0x1#5)
  | .vmulS d a s t => some (0x0#1 ++ 0x2c#6 ++ d ++ a ++ s ++ vtypeCode t ++ 0x2#5)
  | .vmlaS d a s t => some (0x0#1 ++ 0x2c#6 ++ d ++ a ++ s ++ vtypeCode t ++ 0x3#5)
  | .vminS d a s t => some (0x0#1 ++ 0x2c#6 ++ d ++ a ++ s ++ vtypeCode t ++ 0x4#5)
  | .vmaxS d a s t => some (0x0#1 ++ 0x2c#6 ++ d ++ a ++ s ++ vtypeCode t ++ 0x5#5)
  | .vbcast d s t => some (0x0#1 ++ 0x2c#6 ++ d ++ 0x0#5 ++ s ++ vtypeCode t ++ 0x6#5)
  | .vshlS d a s t => some (0x0#1 ++ 0x2c#6 ++ d ++ a ++ s ++ vtypeCode t ++ 0x7#5)
  | .vshrS d a s t => some (0x0#1 ++ 0x2c#6 ++ d ++ a ++ s ++ vtypeCode t ++ 0x8#5)
  | .vredsum d a t r => some (0x0#1 ++ 0x2d#6 ++ d ++ a ++ 0x0#5 ++ vtypeCode t ++ 0x0#2 ++ dirCode r ++ 0x0#2)
  | .vredmax d a t r => some (0x0#1 ++ 0x2d#6 ++ d ++ a ++ 0x0#5 ++ vtypeCode t ++ 0x0#2 ++ dirCode r ++ 0x1#2)
  | .vredmin d a t r => some (0x0#1 ++ 0x2d#6 ++ d ++ a ++ 0x0#5 ++ vtypeCode t ++ 0x0#2 ++ dirCode r ++ 0x2#2)
  | .vrot d a b t => some (0x0#1 ++ 0x2e#6 ++ d ++ a ++ b ++ vtypeCode t ++ 0x0#6)
  | .vperm d a b t => some (0x0#1 ++ 0x2e#6 ++ d ++ a ++ b ++ vtypeCode t ++ 0x1#6)
  | .vunp3 d a => some (0x0#1 ++ 0x2e#6 ++ d ++ a ++ 0x2#15)
  | .vunp4 d a => some (0x0#1 ++ 0x2e#6 ++ d ++ a ++ 0x3#15)
  | .vunp3i d a => some (0x0#1 ++ 0x2e#6 ++ d ++ a ++ 0x4#15)
  | .vpack4 d a => some (0x0#1 ++ 0x2e#6 ++ d ++ a ++ 0x5#15)
  | .vpack3 d a => some (0x0#1 ++ 0x2e#6 ++ d ++ a ++ 0x6#15)
  | .vzip d a b t => some (0x0#1 ++ 0x2e#6 ++ d ++ a ++ b ++ vtypeCode t ++ 0x7#6)
  | .vunzip d a t => some (0x0#1 ++ 0x2e#6 ++ d ++ a ++ 0x0#5 ++ vtypeCode t ++ 0x8#6)
  | .vsplat d i t => some (0x0#1 ++ 0x2f#6 ++ d ++ i ++ vtypeCode t)
  | .mma k a b c => some (0x0#1 ++ 0x30#6 ++ k ++ a ++ b ++ c ++ 0x0#4)
  | .mmaZ k a b c => some (0x0#1 ++ 0x30#6 ++ k ++ a ++ b ++ c ++ 0x1#4)
  | .mmaT k a b c => some (0x0#1 ++ 0x30#6 ++ k ++ a ++ b ++ c ++ 0x2#4)
  | .mmaTz k a b c => some (0x0#1 ++ 0x30#6 ++ k ++ a ++ b ++ c ++ 0x3#4)
  | .mzero k => some (0x0#1 ++ 0x31#6 ++ k ++ 0x0#22)
  | .mrd k a c => some (0x0#1 ++ 0x31#6 ++ k ++ a ++ 0x0#6 ++ c ++ 0x1#4)
  | .mwr k a c => some (0x0#1 ++ 0x31#6 ++ k ++ a ++ 0x0#6 ++ c ++ 0x2#4)
  | .mscl k a b c => some (0x0#1 ++ 0x31#6 ++ k ++ a ++ b ++ c ++ 0x3#4)
  | .smma k a b c => some (0x0#1 ++ 0x32#6 ++ k ++ a ++ b ++ c ++ 0x0#4)
  | .smmaZ k a b c => some (0x0#1 ++ 0x32#6 ++ k ++ a ++ b ++ c ++ 0x1#4)
  | .smmaB k a b c => some (0x0#1 ++ 0x32#6 ++ k ++ a ++ b ++ c ++ 0x2#4)
  | .attnQk k a b c => some (0x0#1 ++ 0x33#6 ++ k ++ a ++ b ++ c ++ 0x0#4)
  | .attnSm k c => some (0x0#1 ++ 0x33#6 ++ k ++ 0x0#12 ++ c ++ 0x1#4)
  | .attnPv k a c => some (0x0#1 ++ 0x33#6 ++ k ++ a ++ 0x0#6 ++ c ++ 0x2#4)
  | .attnFin k c => some (0x0#1 ++ 0x33#6 ++ k ++ 0x0#12 ++ c ++ 0x3#4)
  | .attnStep k a b c => some (0x0#1 ++ 0x33#6 ++ k ++ a ++ b ++ c ++ 0x4#4)
  | .ppop d a b => some (0x1#1 ++ 0x34#6 ++ d ++ a ++ b ++ 0x0#7)
  | .ppopNb d a b => some (0x1#1 ++ 0x34#6 ++ d ++ a ++ b ++ 0x1#7)
  | .steal d a b => some (0x1#1 ++ 0x34#6 ++ d ++ a ++ b ++ 0x2#7)
  | .ppush d a b => some (0x1#1 ++ 0x34#6 ++ d ++ a ++ b ++ 0x3#7)
  | .rule d a b => some (0x1#1 ++ 0x35#6 ++ d ++ a ++ b ++ 0x0#7)
  | .rewr d a b => some (0x1#1 ++ 0x36#6 ++ d ++ a ++ b ++ 0x0#7)
  | .rcall d a b => some (0x1#1 ++ 0x36#6 ++ d ++ a ++ b ++ 0x1#7)
  | .rgroup d a b => some (0x1#1 ++ 0x36#6 ++ d ++ a ++ b ++ 0x2#7)
  | .nalloc d a b => some (0x1#1 ++ 0x37#6 ++ d ++ a ++ b ++ 0x0#7)
  | .nfree a b => some (0x1#1 ++ 0x37#6 ++ 0x0#6 ++ a ++ b ++ 0x1#7)
  | .mext a b => some (0x1#1 ++ 0x3e#6 ++ 0x0#6 ++ a ++ b ++ 0x0#7)
  | .mget a b => some (0x1#1 ++ 0x3e#6 ++ 0x0#6 ++ a ++ b ++ 0x1#7)
  | .mlock a => some (0x1#1 ++ 0x3e#6 ++ 0x0#6 ++ a ++ 0x2#13)
  | .cfgrd d a => some (0x1#1 ++ 0x3e#6 ++ d ++ a ++ 0x3#13)
  | .cfgwr a b => some (0x1#1 ++ 0x3e#6 ++ 0x0#6 ++ a ++ b ++ 0x4#7)
  | .fret => some (0x1#1 ++ 0x3e#6 ++ 0x5#25)
  | _ => none

/-- Has the instruction a word? -/
def Instr.isWord (i : Instr) : Bool := (encode i).isSome

end Sys2Proof
end

