-- ==== Sys2Proof/Machine/Num.lean ====
section
/-! DEFINITION. Exact numbers and their one rounding (R43 to R53): every floating-point result is the exact result
rounded once. -/

namespace Sys2Proof.Machine

/-- Exception flags in the order of FPC [15:11] and VSTAT [4:0]: IV, DZ, OF, UF, IX from bit 4 down (R24). -/
abbrev Flags := BitVec 5

def flagIV : Flags := 0b10000
def flagDZ : Flags := 0b01000
def flagOF : Flags := 0b00100
def flagUF : Flags := 0b00010
def flagIX : Flags := 0b00001

/-- The rounding modes of FPC.RM (R24, R46). -/
inductive RM where
  | rne
  | rz
  | ru
  | rd
deriving DecidableEq, Repr

/-- FPC's rounding mode, flush mode and FP8 saturation (R24). -/
structure Modes where
  rm   : RM := .rne
  fz   : Bool := false
  sat8 : Bool := false
deriving DecidableEq, Repr

/-- Round to nearest-even with FZ and SAT8 clear (R90). -/
def Modes.ne : Modes := {}

/-- The value of a floating-point pattern: (-1)^neg x m x 2^e, infinity or NaN (R44, R45). `fin neg 0 e` is a zero. -/
inductive FVal where
  | nan
  | inf (neg : Bool)
  | fin (neg : Bool) (m : Nat) (e : Int)
deriving DecidableEq, Repr

/-- A floating-point format (R44). -/
inductive Fmt where
  | fp32
  | bf16
  | e4m3
  | e5m2
deriving DecidableEq, Repr

/-- Exponent bits. -/
def Fmt.ebits : Fmt → Nat
  | .fp32 => 8
  | .bf16 => 8
  | .e4m3 => 4
  | .e5m2 => 5

/-- Mantissa bits. -/
def Fmt.mbits : Fmt → Nat
  | .fp32 => 23
  | .bf16 => 7
  | .e4m3 => 3
  | .e5m2 => 2

/-- Bias. -/
def Fmt.bias : Fmt → Int
  | .fp32 => 127
  | .bf16 => 127
  | .e4m3 => 7
  | .e5m2 => 15

/-- Bits of the format. -/
def Fmt.bits (f : Fmt) : Nat := 1 + f.ebits + f.mbits

/-- The exponent of the smallest normal number. -/
def Fmt.emin (f : Fmt) : Int := 1 - f.bias

/-- The canonical NaN (R45). -/
def Fmt.nan : Fmt → Nat
  | .fp32 => 0x7FC00000
  | .bf16 => 0x7FC0
  | .e4m3 => 0x7F
  | .e5m2 => 0x7E

/-- The largest finite pattern (R44). -/
def Fmt.maxPat : Fmt → Nat
  | .fp32 => 0x7F7FFFFF
  | .bf16 => 0x7F7F
  | .e4m3 => 0x7E
  | .e5m2 => 0x7B

/-- The positive infinity pattern of the formats that have one (R44). -/
def Fmt.infPat : Fmt → Nat
  | .fp32 => 0x7F800000
  | .bf16 => 0x7F80
  | .e4m3 => 0x7F
  | .e5m2 => 0x7C

/-- The sign bit of a pattern. -/
def Fmt.signBit (f : Fmt) (neg : Bool) : Nat := if neg then 2 ^ (f.ebits + f.mbits) else 0

/-- The value of a pattern (R44). -/
def Fmt.unpack (f : Fmt) (p : Nat) : FVal :=
  let mant := p % 2 ^ f.mbits
  let ex := p / 2 ^ f.mbits % 2 ^ f.ebits
  let neg := decide (p / 2 ^ (f.ebits + f.mbits) % 2 = 1)
  if ex = 0 then .fin neg mant (f.emin - f.mbits)
  else if f = .e4m3 then
    if ex = 15 ∧ mant = 7 then .nan else .fin neg (2 ^ f.mbits + mant) (ex - f.bias - f.mbits)
  else if ex = 2 ^ f.ebits - 1 then (if mant = 0 then .inf neg else .nan)
  else .fin neg (2 ^ f.mbits + mant) (ex - f.bias - f.mbits)

/-- Is the pattern a NaN? -/
def Fmt.isNaN (f : Fmt) (p : Nat) : Bool := f.unpack p == .nan

/-- Does the discarded part round the magnitude up? `odd` is the last kept bit; `r` of `2^k` is discarded, `st` says
that something below it is discarded too. -/
def roundUp (rm : RM) (neg odd : Bool) (r k : Nat) (st : Bool) : Bool :=
  match rm with
  | .rz => false
  | .ru => !neg && (decide (r ≠ 0) || st)
  | .rd => neg && (decide (r ≠ 0) || st)
  | .rne =>
    if k = 0 then false
    else decide (2 ^ (k - 1) < r) || (decide (r = 2 ^ (k - 1)) && (st || odd))

/-- An infinity that is no overflow (an infinite operand, x/0, a sum of infinities): SAT8 replaces it in E4M3 alone,
which has no infinity (R51, R170, R180). -/
def Fmt.exactInf (f : Fmt) (sat8 neg : Bool) : Nat :=
  match f with
  | .fp32 => f.signBit neg + f.infPat
  | .bf16 => f.signBit neg + f.infPat
  | .e4m3 => if sat8 then f.signBit neg + f.maxPat else f.nan
  | .e5m2 => f.signBit neg + f.infPat

/-- The infinity of R47's overflow table as a format writes it: E4M3 has none, and SAT8 saturates the FP8 formats. -/
def Fmt.infResult (f : Fmt) (sat8 neg : Bool) : Nat :=
  match f with
  | .fp32 => f.signBit neg + f.infPat
  | .bf16 => f.signBit neg + f.infPat
  | .e4m3 => if sat8 then f.signBit neg + f.maxPat else f.nan
  | .e5m2 => if sat8 then f.signBit neg + f.maxPat else f.signBit neg + f.infPat

/-- The result of an overflow by rounding mode (R47). -/
def Fmt.overflow (f : Fmt) (md : Modes) (neg : Bool) : Nat :=
  let toInf := match md.rm with
    | .rne => true
    | .rz => false
    | .ru => !neg
    | .rd => neg
  if toInf then f.infResult md.sat8 neg else f.signBit neg + f.maxPat

/-- Round (-1)^neg x (m + part) x 2^e into the format, `part` below 1 and non-zero when `st`, with the flags of R47
and R48. Callers with `st` give an `m` of more bits than the format keeps. -/
def Fmt.roundMag (f : Fmt) (md : Modes) (neg : Bool) (m : Nat) (e : Int) (st : Bool) : Nat × Flags :=
  if m = 0 ∧ st = false then (f.signBit neg, 0)
  else
    let lead : Int := e + m.log2
    let tiny := decide (lead < f.emin)
    if tiny ∧ md.fz then (f.signBit neg, flagUF ||| flagIX)
    else
      let q : Int := if tiny then f.emin - f.mbits else lead - f.mbits
      let k : Nat := (q - e).toNat
      let sig := if e ≤ q then m >>> k else m <<< (e - q).toNat
      let r := if e ≤ q then m % 2 ^ k else 0
      let inexact := decide (r ≠ 0) || st
      let sig := if roundUp md.rm neg (decide (sig % 2 = 1)) r k st then sig + 1 else sig
      let carry := decide (sig = 2 ^ (f.mbits + 1))
      let sig := if carry then 2 ^ f.mbits else sig
      let q := if carry then q + 1 else q
      let ix : Flags := if inexact then flagIX else 0
      let uf : Flags := if tiny && inexact then flagUF else 0
      if sig < 2 ^ f.mbits then (f.signBit neg + sig, ix ||| uf)
      else
        let ex : Int := q + f.mbits + f.bias
        let pat := ex.toNat * 2 ^ f.mbits + (sig - 2 ^ f.mbits)
        if f.maxPat < pat then (f.overflow md neg, flagOF ||| flagIX)
        else (f.signBit neg + pat, ix ||| uf)

/-- Round a value into the format. An infinity that is a result keeps its sign and sets no flag here; the entry says
how E4M3 writes it. -/
def Fmt.round (f : Fmt) (md : Modes) (v : FVal) : Nat × Flags :=
  match v with
  | .nan => (f.nan, 0)
  | .inf neg => (f.exactInf md.sat8 neg, 0)
  | .fin neg m e => f.roundMag md neg m e false

/-- An exact value with flags already raised. -/
abbrev Ex := FVal × Flags

/-- Round a value with flags already raised. -/
def Fmt.roundEx (f : Fmt) (md : Modes) (x : Ex) : Nat × Flags :=
  let r := f.round md x.1
  (r.1, r.2 ||| x.2)

/-- The signed integer m x 2^(e - g) for g at most e. -/
def alignTo (g : Int) (neg : Bool) (m : Nat) (e : Int) : Int :=
  let k : Int := (m <<< (e - g).toNat : Nat)
  if neg then -k else k

/-- Negate. -/
def FVal.neg : FVal → FVal
  | .nan => .nan
  | .inf n => .inf (!n)
  | .fin n m e => .fin (!n) m e

/-- The sign of an exact zero sum (R46): the common sign of two zeros, else + and - under RD. -/
def zeroSign (rm : RM) (a b : Bool) (bothZero : Bool) : Bool :=
  if bothZero && a == b then a else rm == .rd

/-- Exact sum (R45, R46). -/
def FVal.add (rm : RM) : FVal → FVal → Ex
  | .nan, _ => (.nan, 0)
  | _, .nan => (.nan, 0)
  | .inf a, .inf b => if a = b then (.inf a, 0) else (.nan, flagIV)
  | .inf a, .fin _ _ _ => (.inf a, 0)
  | .fin _ _ _, .inf b => (.inf b, 0)
  | .fin na ma ea, .fin nb mb eb =>
    let g := min ea eb
    let t := alignTo g na ma ea + alignTo g nb mb eb
    if t = 0 then (.fin (zeroSign rm na nb (decide (ma = 0) && decide (mb = 0))) 0 0, 0)
    else (.fin (decide (t < 0)) t.natAbs g, 0)

/-- Exact product (R45). -/
def FVal.mul : FVal → FVal → Ex
  | .nan, _ => (.nan, 0)
  | _, .nan => (.nan, 0)
  | .inf a, .inf b => (.inf (a != b), 0)
  | .inf a, .fin b m _ => if m = 0 then (.nan, flagIV) else (.inf (a != b), 0)
  | .fin a m _, .inf b => if m = 0 then (.nan, flagIV) else (.inf (a != b), 0)
  | .fin na ma ea, .fin nb mb eb => (.fin (na != nb) (ma * mb) (ea + eb), 0)

/-- Exact a x b + c (R46: rounded once). Under a NaN addend 0 x infinity still sets IV. (DESIGN CHOICE, log 107.) -/
def FVal.fma (rm : RM) (a b c : FVal) : Ex :=
  let p := a.mul b
  let t := p.1.add rm c
  (t.1, p.2 ||| t.2)

/-- floor(sqrt n) by the bits of the root from `k` down. -/
def isqrtFrom (n : Nat) : Nat → Nat → Nat
  | 0, r => if (r + 1) * (r + 1) ≤ n then r + 1 else r
  | k + 1, r =>
    let t := r + 2 ^ (k + 1)
    isqrtFrom n k (if t * t ≤ n then t else r)

/-- floor(sqrt n). -/
def isqrt (n : Nat) : Nat := if n = 0 then 0 else isqrtFrom n (n.log2 / 2 + 1) 0

/-- Quotient rounded once (R46, R170), with x/0 and 0/0. -/
def Fmt.div (f : Fmt) (md : Modes) (a b : FVal) : Nat × Flags :=
  match a, b with
  | .nan, _ => (f.nan, 0)
  | _, .nan => (f.nan, 0)
  | .inf _, .inf _ => (f.nan, flagIV)
  | .inf na, .fin nb _ _ => (f.exactInf md.sat8 (na != nb), 0)
  | .fin na _ _, .inf nb => (f.signBit (na != nb), 0)
  | .fin na ma ea, .fin nb mb eb =>
    let neg := na != nb
    if mb = 0 then (if ma = 0 then (f.nan, flagIV) else (f.exactInf md.sat8 neg, flagDZ))
    else if ma = 0 then (f.signBit neg, 0)
    else
      let k := 40 + mb.log2
      let n := ma <<< k
      f.roundMag md neg (n / mb) (ea - eb - k) (decide (n % mb ≠ 0))

/-- Square root rounded once (R170). -/
def Fmt.sqrt (f : Fmt) (md : Modes) (a : FVal) : Nat × Flags :=
  match a with
  | .nan => (f.nan, 0)
  | .inf neg => if neg then (f.nan, flagIV) else (f.exactInf md.sat8 false, 0)
  | .fin neg m e =>
    if m = 0 then (f.signBit neg, 0)
    else if neg then (f.nan, flagIV)
    else
      let k : Nat := 64 + (e % 2).toNat
      let n := m <<< k
      let r := isqrt n
      f.roundMag md false r ((e - k) / 2) (decide (r * r ≠ n))

/-- Round a finite magnitude to an integer: the integer and whether it differs. -/
def roundInt (rm : RM) (neg : Bool) (m : Nat) (e : Int) : Nat × Bool :=
  if 0 ≤ e then (m <<< e.toNat, false)
  else
    let k := (-e).toNat
    let t := m >>> k
    let r := m % 2 ^ k
    (if roundUp rm neg (decide (t % 2 = 1)) r k false then t + 1 else t, decide (r ≠ 0))

/-- Less-than on values that are no NaN. -/
def FVal.lt : FVal → FVal → Bool
  | .nan, _ => false
  | _, .nan => false
  | .inf a, .inf b => a && !b
  | .inf a, .fin _ _ _ => a
  | .fin _ _ _, .inf b => !b
  | .fin na ma ea, .fin nb mb eb =>
    let g := min ea eb
    decide (alignTo g na ma ea < alignTo g nb mb eb)

/-- Equality of values; +0 equals -0, a NaN equals nothing. -/
def FVal.eqv : FVal → FVal → Bool
  | .nan, _ => false
  | _, .nan => false
  | .inf a, .inf b => a == b
  | .inf _, .fin _ _ _ => false
  | .fin _ _ _, .inf _ => false
  | .fin na ma ea, .fin nb mb eb =>
    let g := min ea eb
    decide (alignTo g na ma ea = alignTo g nb mb eb)

/-- Is the value negative, by its sign? -/
def FVal.sign : FVal → Bool
  | .nan => false
  | .inf n => n
  | .fin n _ _ => n

/-- The order of minimum and maximum (R45): -0 below +0. -/
def FVal.below (a b : FVal) : Bool := a.lt b || (a.eqv b && a.sign && !b.sign)

/-- Minimum of two patterns (R45): the other operand of one NaN, the canonical NaN of two. -/
def Fmt.min (f : Fmt) (a b : Nat) : Nat :=
  if f.isNaN a then (if f.isNaN b then f.nan else b)
  else if f.isNaN b then a
  else if (f.unpack b).below (f.unpack a) then b else a

/-- Maximum of two patterns (R45). -/
def Fmt.max (f : Fmt) (a b : Nat) : Nat :=
  if f.isNaN a then (if f.isNaN b then f.nan else b)
  else if f.isNaN b then a
  else if (f.unpack a).below (f.unpack b) then b else a

/-- Float to float (R51). -/
def Fmt.convert (f : Fmt) (md : Modes) (v : FVal) : Nat × Flags :=
  match v, f with
  | .inf neg, .e4m3 => if md.sat8 then (f.signBit neg + f.maxPat, flagOF ||| flagIX) else (f.nan, flagIV)
  | .inf neg, _ => (f.signBit neg + f.infPat, 0)
  | v, _ => f.round md v

/-- Float to integer in [lo, hi] (R52): saturating with IV, NaN gives 0 with IV, IX when inexact. -/
def toInt (rm : RM) (lo hi : Int) (v : FVal) : Int × Flags :=
  match v with
  | .nan => (0, flagIV)
  | .inf neg => (if neg then lo else hi, flagIV)
  | .fin neg m e =>
    let r := roundInt rm neg m e
    let t : Int := if neg then -(r.1 : Int) else r.1
    if t < lo then (lo, flagIV) else if hi < t then (hi, flagIV)
    else (t, if r.2 then flagIX else 0)

/-- Integer to float (R53). -/
def Fmt.ofInt (f : Fmt) (md : Modes) (t : Int) : Nat × Flags := f.roundMag md (decide (t < 0)) t.natAbs 0 false

/-- The float format of a type. -/
def fmtOf : VType → Option Fmt
  | .bf16 => some .bf16
  | .fp32 => some .fp32
  | .e4m3 => some .e4m3
  | .e5m2 => some .e5m2
  | .i8 => none
  | .u8 => none
  | .i16 => none
  | .u16 => none
  | .i32 => none
  | .u32 => none

end Sys2Proof.Machine

namespace Sys2Proof

/-- Bytes of an element (R43, R44). -/
def VType.size : VType → Nat
  | .i8 => 1
  | .u8 => 1
  | .i16 => 2
  | .u16 => 2
  | .i32 => 4
  | .u32 => 4
  | .bf16 => 2
  | .fp32 => 4
  | .e4m3 => 1
  | .e5m2 => 1

/-- Bits of an element. -/
def VType.width (t : VType) : Nat := 8 * t.size

/-- Is an integer type signed (R43)? -/
def VType.signed : VType → Bool
  | .i8 => true
  | .i16 => true
  | .i32 => true
  | .u8 => false
  | .u16 => false
  | .u32 => false
  | .bf16 => false
  | .fp32 => false
  | .e4m3 => false
  | .e5m2 => false

/-- The integer a pattern stands for in an integer type (R43). -/
def VType.toInt (t : VType) (p : Nat) : Int :=
  let p := p % 2 ^ t.width
  if t.signed && decide (2 ^ (t.width - 1) ≤ p) then (p : Int) - 2 ^ t.width else p

/-- The pattern of an integer modulo 2^w (R43). -/
def VType.wrap (t : VType) (z : Int) : Nat := (z % (2 ^ t.width : Nat)).toNat

/-- The least value of an integer type. -/
def VType.lo (t : VType) : Int := if t.signed then -(2 ^ (t.width - 1) : Nat) else 0

/-- The greatest value of an integer type. -/
def VType.hi (t : VType) : Int := if t.signed then (2 ^ (t.width - 1) : Nat) - 1 else (2 ^ t.width : Nat) - 1

/-- Clamp to the range of the type; says whether it clamped (R43). -/
def VType.clamp (t : VType) (z : Int) : Int × Bool :=
  if z < t.lo then (t.lo, true) else if t.hi < z then (t.hi, true) else (z, false)

end Sys2Proof
end

