-- ==== Sys2Proof/Config.lean ====
section
/-! DEFINITION. What an implementation fixes, and the values the spec leaves open. An `opaque` constant has no body,
so no proof can lean on a value of it. -/

namespace Sys2Proof.Config

/-- Signature check of Ed25519 (R397, R399): key, message bytes, signature. The spec names the algorithm (RFC 8032)
and does not define it (log 5). -/
opaque ed25519Verify : BitVec 256 → List Byte → BitVec 512 → Bool
/-- Ed25519 signature by the module's identity key, which never leaves the engine (R398; log 5). -/
opaque identitySign : List Byte → BitVec 512
/-- The public half of the identity key, derived from the physically unclonable function (R398; log 5). -/
opaque identityKey : BitVec 256
/-- The firmware key held in the ROM (R396; log 5). -/
opaque firmwareKey : BitVec 256
/-- The grant key held in the ROM (R399; log 5). -/
opaque grantKey : BitVec 256
/-- SHA-512 of a byte string (R394, R396); named and not defined by the spec (log 5). -/
opaque sha512 : List Byte → BitVec 512
/-- CRC-32C of a staged router map (R417); named and not defined by the spec (log 5). -/
opaque crc32c : List Byte → BitVec 32
/-- The ASID under which a Croft core at level D names unbacked lines; the spec gives CROOT and no ASID (log 14). -/
opaque croftAsid : Nat
/-- The value that the spec does not state, drawn for the n-th time (log 2). -/
opaque freeValue : Nat → Word
/-- What a line beyond HBM, where the spec states no bytes, reads as: by count of draws and by line (log 100). -/
opaque freeLine : Nat → Nat → BitVec 512

/-- Fields of the wafer (R7, R11). -/
def fields : Nat := 84
/-- HBM below 1,152 GiB (R295). -/
def hbmBytes : Nat := 1152 * 2 ^ 30
/-- The token budget (R7, R302). -/
def tokenBudget : Nat := 196608
/-- The most tokens a tile holds (R115). -/
def tileTokens : Nat := 128
/-- The most tokens of a pool (R302). -/
def poolMax : Nat := 3072
/-- Fold entries on chip (R33). -/
def foldEntries : Nat := 8192
/-- Words of the C-stream front end; an implementation may hold more than 64 (R421; DESIGN CHOICE, log 6). -/
def frontWords : Nat := 64
/-- A-stream words fetched ahead that wait to issue; the spec gives no number (DESIGN CHOICE, log 85). -/
def aFrontWords : Nat := 64
/-- Messages of an inbox (R258). -/
def inboxMessages : Nat := 32
/-- Entries of a range scoreboard (R281). -/
def scoreboard : Nat := 16
/-- A cluster TLB has 4,096 entries in 8 ways (R373). -/
def tlbWays : Nat := 8
def tlbSets : Nat := 512
/-- The first 4 KiB register page (R405). -/
def pageBase : Nat := 0xF000000000000
/-- The first window aperture (R405). -/
def windowBase : Nat := 0xF000001000000
/-- The first root-port window (R405). -/
def portBase : Nat := 0xE000000000000
/-- Where the Croft cores' ROM lies and where core 0 starts; the spec gives no address (DESIGN CHOICE, log 3). -/
def romBase : Word := 0

/-! Byte offsets inside configuration units whose place the spec does not give (DESIGN CHOICE, log 7). -/

/-- Drover base share in a field unit. -/
def offBaseShare : Nat := 0x10
/-- Epoch of the field's time keeper. -/
def offEpoch : Nat := 0x18
/-- Slice enables of the field unit. -/
def offSlices : Nat := 0x20
/-- GBAND; R409 writes 0x100, which the 8-bit offset of R395 cannot hold: the low byte of it. -/
def offGband : Nat := 0x00
/-- WEARST; R409 writes 0x108: the low byte of it. -/
def offWearst : Nat := 0x08
/-- First of the counters of a field or rim unit: one EN and OVF word, then the counters. -/
def offCounters : Nat := 0x40
/-- Name purge of a router unit. -/
def offPurge : Nat := 0x00
/-- Staged map bytes of a router unit (one doubleword appended at each write). -/
def offStage : Nat := 0x18
/-- Launch Unit: FMASK0, FMASK1, TOKCAP, ASIDs (first in [11:0], count in [27:16]), root ports. -/
def offFmask0 : Nat := 0x00
def offFmask1 : Nat := 0x08
def offTokcap : Nat := 0x10
def offAsids : Nat := 0x18
def offPorts : Nat := 0x20
/-- Root port: ASID in [27:16]. -/
def offPort : Nat := 0x00
/-- Module link: [20:0] module number, [32] up; then routing entries. -/
def offLink : Nat := 0x00
def offRoute : Nat := 0x08
/-- Rim controller: training state. -/
def offTrain : Nat := 0x00

end Sys2Proof.Config
end

