-- ==== Sys2Proof/Machine/State.lean ====
section
/-! DEFINITION. The state of the module: every object chapters 02, 10 to 13 and 19 to 22 name, as plain data.
Things of which the wafer has thousands are kept as lists of (number, record) with rising numbers; a number not
listed holds the record's reset value. -/

namespace Sys2Proof.Machine

/-- Records by number, with rising numbers. -/
abbrev Sparse (α : Type) := List (Nat × α)

/-- Bytes by address (Host.Cell), addresses rising, no byte listed that equals what an unlisted address reads as,
which is 0 (log 4). -/
abbrev Memory := List Host.Cell

/-- The fault codes of R381. -/
inductive Code where
  | illop
  | illstrm
  | illclass
  | priv
  | illdom
  | rptframe
  | pagenp
  | prot
  | align
  | attrsplit
  | unbfull
  | winfmt
  | localrange
  | shape
  | linkerr
  | rulemiss
  | nodeexh
  | foldspill
  | barovr
  | waittmo
  | uce
  | timing
  | poison
  | swtrap
  | brk
deriving DecidableEq, Repr

/-- Trap(code) of R6 with the detail and the fault address of its record (R379). -/
structure Trap where
  code   : Code
  detail : Word := 0
  addr   : Word := 0
deriving DecidableEq, Repr

/-- What a full/empty access does at a port (R126): one word or two, the state of their tags it waits for, the state
afterwards, and the data it writes if it stores. -/
structure FePort where
  two    : Bool
  wants  : Bool
  after  : Bool
  stores : Bool
  data   : Word
deriving DecidableEq, Repr

/-- What a stream waits for (R42). A full/empty access has its place in the order of arrival at the port, and once it has
acted there the value it read. -/
inductive WaitKind where
  | queue
  | fullEmpty (site word : Nat) (f : FePort) (arrival : Nat) (served : Option Word)
  | scoreboard
  | hurdle (site off : Nat) (released : Bool)
  | bell (tag phase : Nat)
  | step (phase : Nat)
  | token
  | array
  | retire
  | fence
  | page
deriving DecidableEq, Repr

/-- A wait, the tile tick at which it began, and the instruction that waits. -/
structure Wait where
  kind  : WaitKind
  since : Nat
  inst  : Instr
deriving DecidableEq, Repr

/-- The place of a task in its launch grid or sub-grid (R24, R230): GX, GY, W, H. -/
structure Grid where
  gx : BitVec 16 := 0
  gy : BitVec 16 := 0
  w  : BitVec 16 := 1
  h  : BitVec 16 := 1
deriving DecidableEq, Repr

/-- A message that starts a task (R219, R230, R249), with what the sender gives it (R250, R298); `dispatch` marks the
message of an `rcall` or `rgroup` (R265). -/
structure Message where
  words  : List Word
  vi     : Nat := 0
  launch : Nat := 0
  dom    : BitVec 8 := 0
  ts     : BitVec 32 := 0
  delta  : BitVec 16 := 0
  ec     : BitVec 3 := 0
  prio   : Option Nat := none
  grid   : Option Grid := none
  sender : Nat := 0
  dispatch : Bool := false
deriving DecidableEq, Repr

/-- The input snapshot of a restartable task (R274, R275): bytes and tags of its ranges by offset, the doublewords whose
poison travels with them (R386), and the place of its slot in the launch's snapshot area (R384). -/
structure Snapshot where
  ranges : List (Nat × Nat)
  bytes  : Memory
  tags   : List Nat
  poison : List Nat := []
  slot   : Nat := 0
deriving DecidableEq, Repr

/-- A task's identity: the message, its TASKID (R261), its repeat count and last fault (R382), and the mark of a
capacity abort (R270). -/
structure Task where
  msg   : Message
  id    : BitVec 32
  rep   : Nat := 0
  last  : Option (Code × Word) := none
  atHorizon : Bool := false
  /-- Its input snapshot, which it keeps while it exists (R384), and whether its next run starts from it (R275). -/
  snap  : Option Snapshot := none
  again : Bool := false
  /-- The error whose re-run under R275 has not ended yet (R364). -/
  redo  : Option Code := none
deriving DecidableEq, Repr

/-- The key of a line: a physical line, or a line of an unbacked page under its ASID and VA (R283). -/
inductive LineKey where
  | pa (n : Nat)
  | unb (asid line : Nat)
deriving DecidableEq, Repr

/-- A line in its home slice: bytes, dirty mark, and for an unbacked line its home field and slice, where it is
charged (R283, R289). -/
structure L2Line where
  key   : LineKey
  data  : Line
  dirty : Bool := false
  field : Nat := 0
  slice : Nat := 0
deriving DecidableEq, Repr

/-- A line in a tile's L1: virtual tag, the line it was filled from, bytes, one dirty mark a byte (R120, R374). -/
structure L1Line where
  asid  : Nat
  line  : Nat
  key   : LineKey
  data  : Line
  mask  : BitVec 64 := 0
  /-- The page may be written and its D is set, so a store that hits needs no translation. -/
  wr    : Bool := false
  /-- Per doubleword: poison, double-bit and single-bit errors (R385, R386). -/
  poison : BitVec 8 := 0
  bad   : BitVec 8 := 0
  weak  : BitVec 8 := 0
deriving DecidableEq, Repr

/-- A leaf held by a cluster TLB (R373). `span` is the number of 4 KiB pages. -/
structure TlbEntry where
  vi    : Nat
  asid  : Nat
  vpage : Nat
  span  : Nat
  pte   : Word
  pteAt : Nat
deriving DecidableEq, Repr

/-- A pointer entry of the walk cache (R373): level and the VA bits above it. -/
structure WalkEntry where
  vi    : Nat
  asid  : Nat
  level : Nat
  pre   : Nat
  table : Nat
deriving DecidableEq, Repr

/-- An entry of a vector queue (R21): shape, element type, bytes. -/
structure VEntry where
  rows : Nat
  cols : Nat
  ty   : VType
  data : VReg
  /-- Of an entry the C-stream pushed: the place in the tile's order of commands reached then (R310). -/
  mark : Nat := 0
deriving DecidableEq, Repr

/-- A repeat frame (R86 to R88): the 16 captured words with their PCs, n, k, the iteration and the place in it. -/
structure Frame where
  words : List (Word × IWord)
  n     : Nat
  k     : Nat
  iter  : Nat := 0
  idx   : Nat := 0
deriving DecidableEq, Repr

/-- An A-stream word that waits in the A-stream front end: PC, word, the C-stream words fetched before it, and VSHAPE as
of its place in program order (R10, R15). -/
structure AWord where
  pc    : Word
  word  : IWord
  seen  : Nat
  shape : Word
deriving DecidableEq, Repr

/-- A pair (R33), with the launch that holds it. -/
structure Pair where
  a   : BitVec 51
  b   : BitVec 51
  ts  : BitVec 32
  dom : BitVec 8
  launch : Nat := 0
deriving DecidableEq, Repr

/-- A pair a task holds, and the field of the Fold it came from (R222). -/
structure Held where
  pair  : Pair
  field : Nat
  spent : Bool := false
  spilled : Bool := false
deriving DecidableEq, Repr

/-- A task as its interface and domain know it: interface, domain, TASKID (R261). -/
abbrev TaskKey := Nat × BitVec 8 × BitVec 32

/-- Tokens borrowed through `toklend`: how many, from which task, counted in which field (R118). -/
structure Loan where
  n     : Nat
  site  : Nat
  task  : TaskKey
  field : Nat
deriving DecidableEq, Repr

/-- Why a Drover revokes, which says where the tokens go when the notice ends (R303, R305). -/
inductive RevokeFor where
  | recall (lender : Nat)
  | cut
  | request
deriving DecidableEq, Repr

/-- A task's token holding (R24, R115, R118, R305). HELD is `own` plus the borrowed tokens; `by_` is the field whose
Drover gave the running notice. -/
structure Holding where
  own     : Nat := 0
  loans   : List Loan := []
  notice  : Nat := 0
  left    : Nat := 0
  why     : RevokeFor := .request
  by_     : Nat := 0
  want    : Nat := 0
  opened  : Bool := false
  since   : Nat := 0
  /-- The open request's place in the order of age among those of its field (R303). -/
  ord     : Nat := 0
deriving DecidableEq, Repr

/-- The operations of the atomics (R138, R141, R143). -/
inductive AtomOp where
  | add
  | addw
  | fadd
  | and
  | or
  | xor
  | min
  | max
  | minu
  | maxu
  | swap
  | load
  | store
  | cas (cmp : Word)
  | casw (cmp : Word)
  | topk (k : Nat)
deriving DecidableEq, Repr

/-- A complete engine command or message (R89), where it waits or runs. `port` is 0, 2, 4 or 6; `remote` marks one
handed over to this tile's engines (R205), `oseq` then its place in the order of the tile `from_`; `seq` is its place
in this tile's order. An e6 command that its executing tile knows of stays in its port until it starts there (`sent`,
R89). A command has started (`running`), its bytes have moved and matrix work is due (`copied`), its work
is done (`ended`), it has completed (`finished`), its completion is sent (`told`). -/
structure Cmd where
  words   : List Word
  cap     : BitVec 16 := 0
  port    : Nat
  remote  : Bool := false
  seq     : Nat
  slot    : Option Nat := none
  task    : BitVec 32 := 0
  /-- The run of the task that wrote it. -/
  run     : Nat := 0
  msg     : Message
  pc      : Word := 0
  from_   : Nat := 0
  sent    : Bool := false
  running : Bool := false
  copied  : Bool := false
  ended   : Bool := false
  finished : Bool := false
  told    : Bool := false
  oseq    : Nat := 0
  status  : BitVec 8 := 0
  detail  : BitVec 16 := 0
deriving DecidableEq, Repr

/-- A buffered effect of a task in domains 1 to 255 (R266), with the PC of its word. -/
inductive Effect where
  | store (va : Word) (bytes : List Byte) (pc : Word)
  | atomic (op : AtomOp) (va operand : Word) (pc : Word)
  | alink (t l : Word) (pc : Word)
  | rewr (w0 a b : Word) (ts : BitVec 32) (fresh : List Word) (pc : Word)
  | free (lines : List Word) (pc : Word)
  | push (p : Pair) (pc : Word)
  | send (c : Cmd) (pc : Word)
  | dispatch (w0 w1 w2 a b : Word) (ts : BitVec 32) (pc : Word)
  | qfence (mask : Nat) (pc : Word)
deriving DecidableEq, Repr

/-- An inbound or outbound range of the scoreboard (R122, R281), and the command that holds it. -/
structure Range where
  inbound : Bool
  lo  : Nat
  hi  : Nat
  site : Nat
  seq : Nat
deriving DecidableEq, Repr

/-- A fence entry over the queues of `mask` of one run of a task (R154). -/
structure QFence where
  mask : Nat
  seq  : Nat
  task : BitVec 32 := 0
  run  : Nat := 0
deriving DecidableEq, Repr

/-- Matrix work that an engine places on the array (R191, R192, R212). -/
structure MatItem where
  a    : Word
  b    : Word
  cfg  : Word
  ctl  : Word
  rm   : BitVec 2
  fz   : Bool
  sat8 : Bool
  seq  : Nat
  since : Option Nat := none
deriving DecidableEq, Repr

/-- What holds the array (R191): ticks left, the command it belongs to, whether it issued
before the running notice (R305), and whether an engine holding pays for it (R192). -/
structure ArrayItem where
  ticks : Nat
  slot  : Option Nat
  seq   : Option Nat
  pre   : Bool := false
  eng   : Bool := false
deriving DecidableEq, Repr

/-- A storage unit of a context that can hold a bit error (R385). -/
inductive RegUnit where
  | reg (st : Stream) (n : Nat)
  | queue (n : Nat)
  | vreg (n : Nat)
  | bank (n : Nat)
deriving DecidableEq, Repr

/-- A bit error in a unit of a context: double-bit (uncorrectable) or single-bit. -/
structure Mark where
  unit   : RegUnit
  double : Bool
deriving DecidableEq, Repr

/-- A read of operand bytes that a tile's scratchpad served to another tile (R189): its ranges, the window's descriptor,
the cluster tick of the first request, the tiles it served, and the bytes as they stood. -/
structure OpRead where
  ranges : List (Nat × Nat)
  wd     : Word
  since  : Nat
  served : List Nat
  bytes  : Memory
deriving DecidableEq, Repr

/-- A resident task context (R23, R39). -/
structure Ctx where
  task   : Task
  /-- Which of the tile's runs of tasks this is. -/
  run    : Nat := 0
  pc     : Word
  x      : Vector Word 48
  s      : Vector Word 48
  v      : Vector VReg 28
  acc    : Vector Acc 8
  mstat  : Vector MStat 4
  fpc    : Word
  vshape : Word
  vstat  : Word
  amax   : Word
  q      : Vector (List Word) 8
  /-- The marks of the entries in q4 to q7, as those of a vector queue's entries. -/
  qMark  : Vector (List Nat) 4 := Vector.replicate 4 []
  /-- The highest mark the A-stream has popped: commands of e4 before it come before its next local accesses (R310). -/
  popped : Nat := 0
  vq     : Vector (List VEntry) 4
  /-- The partly written commands of e0, e2, e4, e6, oldest word first. -/
  out    : Vector (List Word) 4
  /-- The FPC bits that the header being written captured. -/
  cap    : Vector (BitVec 16) 4
  /-- The unread words of e1, e3, e5, e7. -/
  inp    : Vector (List Word) 4
  front  : List (Word × IWord)
  /-- C-stream words fetched in this run. -/
  fetched : Nat := 0
  /-- The A-stream front end: fetched words from the one at `pc` on, and where the fetch unit goes on after them. -/
  aFront : List AWord := []
  ahead  : Word := 0
  frame  : Option Frame
  safemap : Word
  grid   : Grid
  pairs  : List Held
  lines  : List Word
  tok    : Holding
  buf    : List Effect
  reads  : List LineKey
  specLines : List Nat
  hbmLines : List LineKey
  aWait  : Option Wait
  cWait  : Option Wait
  atDone : Bool
  vecBusy : Nat
  marks  : List Mark := []
deriving DecidableEq, Repr

/-- Retention of a tile held idle (R387). -/
inductive Retain where
  | active
  | entering (left : Nat)
  | retained
  | leaving (left : Nat)
deriving DecidableEq, Repr

/-- A tile (R12, R24, R26, R38, R258, R395). -/
structure Tile where
  named   : Bool := false
  name    : BitVec 16 := 0
  status  : BitVec 2 := 0
  l1sz    : BitVec 2 := 1
  wd      : Vector Word 16 := Vector.replicate 16 0xE
  ruleb   : Word := 0
  bandsh  : BitVec 5 := 0
  prewin  : BitVec 32 := 0x100000
  wdog    : BitVec 32 := 0x4000000
  handlers : Sparse (Vector Word 4) := []
  tlate   : BitVec 32 := 0
  cntOvf  : BitVec 4 := 0
  cntEn   : BitVec 4 := 0
  cntSel  : Vector (BitVec 6) 4 := Vector.replicate 4 0
  cnt     : Vector (BitVec 48) 4 := Vector.replicate 4 0
  stopped : Nat := 0
  /-- Ticks that replays will still take (R388). -/
  owed    : Nat := 0
  spad    : Memory := []
  tags    : List Nat := []
  poison  : List Nat := []
  bad     : List Nat := []
  weak    : List Nat := []
  dirty   : List Nat := []
  l1      : List L1Line := []
  inbox   : List Task := []
  ctxs    : Vector (Option Ctx) 4 := Vector.replicate 4 none
  cur     : Option Nat := none
  done    : List (Ctx) := []
  lastSel : Vector Nat 12 := Vector.replicate 12 63
  /-- How many switches in a row at their level passed over a context (0 to 3) or a channel's message (4 + channel)
  (R260). -/
  passed  : Sparse Nat := []
  ranges  : List Range := []
  cmds    : List Cmd := []
  fences  : List QFence := []
  seq     : Nat := 0
  /-- Runs of tasks started on the tile. -/
  runs    : Nat := 0
  /-- Ticks for which the vector unit is still held (R162). -/
  vecHold : Nat := 0
  items   : List MatItem := []
  array   : Option ArrayItem := none
  /-- The engine holding (R192). -/
  eng     : Holding := {}
  scratchAcc : Vector Acc 8 := Vector.replicate 8 0
  /-- Operand reads of the last 64 ticks that served other tiles (R189). -/
  opReads : List OpRead := []
  launch  : Option Nat := none
  clearing : Option Nat := none
  /-- When firmware began to retire the tile, and its STATE before (R411, R413). -/
  leaving : Option Nat := none
  was     : BitVec 2 := 0
  retain  : Retain := .active
  idle    : Nat := 0
  preempt : Option Nat := none
deriving DecidableEq, Repr

/-- A cluster: TLB, walk cache, its clock (R306, R373) and margin (R24). `period` is the length of a tick in 1/256 of
its nominal length, 256 to 512; `phase` the part of a tick elapsed, in 1/256; `lost` the ticks that stretching took
from the nominal 7 of each ref tick. -/
structure Cluster where
  tlb    : List TlbEntry := []
  walks  : List WalkEntry := []
  lost   : Nat := 0
  phase  : Nat := 0
  period : Nat := 256
  marginMin : BitVec 8 := 0xFF
  marginNow : BitVec 8 := 0xFF
deriving DecidableEq, Repr

/-- An entry of a Fold: on chip or spilled, and reserved while a task holds its pair (R251, R252, R254); `slot` is its
place in the field's share of the spill area. -/
structure FoldEntry where
  pair : Pair
  spilled  : Bool := false
  reserved : Bool := false
  slot     : Nat := 0
deriving DecidableEq, Repr

/-- A Fold (R33, R253, R255). -/
structure Fold where
  entries : List FoldEntry := []
  base    : BitVec 32 := 0
deriving DecidableEq, Repr

/-- A recall of a loan: the lender it goes back to and how much is still owed (R304). -/
structure Recall where
  lender : Nat
  n      : Nat
deriving DecidableEq, Repr

/-- The Drover of a field (R302 to R305). -/
structure Drover where
  share    : Nat
  free     : Nat
  lent     : Sparse Nat := []
  borrowed : Sparse Nat := []
  recalls  : List Recall := []
  cutDebt  : Nat := 0
deriving DecidableEq, Repr

/-- The unbacked reservation of one ASID in a field: standing units, launch units (R288). -/
structure Reserve where
  asid     : Nat
  standing : Nat := 0
  launch   : Sparse Nat := []
deriving DecidableEq, Repr

/-- A migration the rehome engine has queued (R136, R294). -/
structure Migration where
  vi     : Nat
  asid   : Nat
  vpage  : Nat
  target : Nat
deriving DecidableEq, Repr

/-- A part of a collective group (R216). -/
structure ClPart where
  cmd : Cmd
  site : Nat
  since : Nat
  /-- Of a part of another module: the bytes that its own module read from its SRC, each with its mark. -/
  far : Option (List (Byte × Bool)) := none
deriving DecidableEq, Repr

/-- A name a router has learnt, its age, and the tick of its last use (R400). -/
structure RouterName where
  name : BitVec 16
  site : Nat
  age  : Nat := 0
  since : Nat := 0
deriving DecidableEq, Repr

/-- A field: Fold, flock, Drover, slices, rehome engine, monitors, counters, router (R11, R285, R409, R417). -/
structure Field where
  fold    : Fold := ⟨[], 0⟩
  flock   : Sparse (List Word) := []
  drover  : Drover
  live    : BitVec 16 := 0xFFFF
  enabled : BitVec 16 := 0xFFFF
  reserve : List Reserve := []
  migrations : List Migration := []
  ceil    : Nat := 60
  add     : Nat := 0
  worn    : BitVec 4 := 0
  steps   : BitVec 8 := 0
  mmin    : BitVec 8 := 0xFF
  cntEn   : BitVec 16 := 0
  cntOvf  : BitVec 16 := 0
  cntSel  : Vector (BitVec 6) 16 := Vector.replicate 16 0
  cnt     : Vector (BitVec 48) 16 := Vector.replicate 16 0
  names   : List RouterName := []
  staged  : List Byte := []
  installed : List Byte := []
  mapcrc  : BitVec 32 := 0
  rej     : BitVec 8 := 0
  mapst   : BitVec 2 := 0
  /-- Rejections in a row of the update in hand (R418). -/
  attempts : Nat := 0
  epoch   : Option Word := none
  /-- The field is in grade (R416), and suspect (R418). -/
  inGrade : Bool := true
  suspect : Bool := false
  /-- Guard-band checks made (R410). -/
  checks  : Nat := 0
  /-- How far the field's copy of GTIME is ahead of the module's, in ps, at most TSKEW (R308). -/
  lag     : Nat := 0
deriving DecidableEq, Repr

/-- A launch record in a queue (R353, R355, R359). One that was cancelled behind others stays, gone, until those before
it have left, to be their successors' tainted predecessor (R362). -/
structure QRec where
  seq   : BitVec 32
  words : List Word
  valid : Bool := false
  released : Bool := false
  gone  : Bool := false
deriving DecidableEq, Repr

/-- A launch queue of a virtual interface (R352 to R354). -/
structure Queue where
  asid   : BitVec 12 := 0
  ivec   : BitVec 8 := 0
  cqlog  : BitVec 4 := 4
  dev    : Bool := false
  en     : Bool := false
  cqbase : BitVec 57 := 0
  cqhead : BitVec 32 := 0
  cqtail : BitVec 32 := 0
  qseq   : BitVec 32 := 0
  recs   : List QRec := []
  slots  : Sparse Word := []
  pending : List (List Word × Bool) := []
  /-- A launch of the queue has completed tainted (R359). -/
  tainted : Bool := false
deriving DecidableEq, Repr

/-- A handle of an interface's table (R328, R358): the last writer and the readers since, and whether the last
completed writer was tainted; `next` says that a later writer than the one that runs was cancelled (R362). -/
structure Handle where
  writer  : Option Nat := none
  readers : List Nat := []
  tainted : Bool := false
  next    : Bool := false
deriving DecidableEq, Repr

/-- A shoot-down in progress (R375): scope 0, 1, 2, ASID, VA, SIZE. -/
structure Shoot where
  scope : Nat
  asid  : Nat
  va    : Word
  size  : Nat
deriving DecidableEq, Repr

/-- A virtual interface (R351, R375, R378, R401, R404). -/
structure VI where
  tokcap  : Nat := 0
  fmask   : BitVec 84 := 0
  asid0   : BitVec 12 := 0
  asidN   : BitVec 12 := 0
  ports   : BitVec 8 := 0
  unbset  : Word := 0
  vlogidx : BitVec 32 := 0
  vlog    : Vector (Word × Word) 8 := Vector.replicate 8 (0, 0)
  queues  : Sparse Queue := []
  roottab : Word := 0
  shva    : Word := 0
  shdone  : BitVec 32 := 0
  shoots  : List Shoot := []
  frbase  : Word := 0
  frctl   : Word := 0x40000
  frhead  : BitVec 32 := 0
  frtail  : BitVec 32 := 0
  frpend  : List (List Word) := []
  imgbase : Word := 0
  imglen  : BitVec 32 := 0
  imgused : BitVec 32 := 0
  qbuf    : Word := 0
  qdone   : BitVec 32 := 0
  quoting : Bool := false
  taskids : Sparse (BitVec 32) := []
  lastCommit : Sparse (BitVec 32) := []
  handles : Sparse Handle := []
  irqs    : List (BitVec 8) := []
deriving DecidableEq, Repr

/-- A Bell tag of a launch (R149, R150): phases completed, this phase's arrivals (site, form, value), the results of
the completed phases, and the phase of each tile's latest arrival. Form 0 is `barr`, 1 to 3 the reductions. -/
structure Bell where
  phase   : Nat := 0
  arrived : List (Nat × Nat × BitVec 32) := []
  results : List (BitVec 32) := []
  latest  : Sparse Nat := []
deriving DecidableEq, Repr

/-- A running launch (R249, R355 to R357, R363, R364). -/
structure Launch where
  vi      : Nat
  queue   : Nat
  seq     : BitVec 32
  asid    : Nat
  rec_    : List Word
  fields  : List Nat
  cells   : Sparse Nat := []
  /-- The handler tables of the four classes and WD1 to WD15, as the start read them (R249). -/
  tables  : Vector (Sparse (Vector Word 4)) 4 := Vector.replicate 4 []
  wd      : Vector Word 16 := Vector.replicate 16 0
  bells   : Vector Bell 8
  stepPh  : Nat := 0
  stepArr : List Nat := []
  nodeNext : Nat := 0
  frames  : List Word := []
  /-- Which share of the spill area each field has (R356). -/
  shares  : Sparse Nat := []
  started : Word := 0
  ran     : Bool := false
  tasks   : BitVec 32 := 0
  aborts  : BitVec 32 := 0
  corrected : Bool := false
  tainted : Bool := false
  /-- Its tasks and messages are dropped: the driver cancelled it, or no grid holds its cells (R357, R362). -/
  cancelled : Bool := false
  failed  : Option (BitVec 8 × BitVec 32) := none
  ended   : Bool := false
  boundary : Bool := false
deriving DecidableEq, Repr

/-- Where the Launch Unit keeps a task (R262): parked, held, or queued (waiting for its horizon, or for a tile). -/
inductive LuState where
  | parked
  | held
  | queued
deriving DecidableEq, Repr

/-- A task in the Launch Unit, with the site it last ran on or is to run on (R262, R275). -/
structure LuTask where
  task  : Task
  site  : Nat
  state : LuState
deriving DecidableEq, Repr

/-- The image of a pre-empted tile (R276, R277, R389), with the poison of its doublewords (R386). -/
structure Image where
  site   : Nat
  vi     : Nat
  launch : Nat
  bytes  : Memory := []
  blocks : List Nat := []
  tags   : List Nat := []
  poison : List Nat := []
  ctxs   : List Ctx := []
  msgs   : List Task := []
  units  : Nat := 0
  away   : Bool := false
deriving DecidableEq, Repr

/-- A line of a Croft core's data cache, with one dirty mark a byte and one poison mark a doubleword (R386, R392). -/
structure CroftLine where
  key  : LineKey
  data : Line
  mask : BitVec 64 := 0
  poison : BitVec 8 := 0
deriving DecidableEq, Repr

/-- A Croft core (R392, R393). -/
structure Croft where
  x      : Vector Word 48 := Vector.replicate 48 0
  pc     : Word := Config.romBase
  level  : Bool := true
  prev   : Bool := true
  cvec   : Word := Config.romBase
  cepc   : Word := 0
  cflt   : Word := 0
  cfaddr : Word := 0
  croot  : Word := 0
  cache  : List CroftLine := []
  wrote  : List LineKey := []
  held   : Bool := true
deriving DecidableEq, Repr

/-- The security engine (R394, R396, R398, R404, R416). -/
structure Security where
  meas   : Vector (BitVec 512) 16 := Vector.replicate 16 0
  lock   : BitVec 16 := 0
  /-- Counters of the running firmware (R397) and of the grant in force (R399, R404). -/
  fw     : Word := 0
  grant  : Word := 0
  /-- Entries of the wear log's chain (R411). -/
  wear   : Nat := 0
  /-- Power-on hours since manufacture when the power came on, and the periods of 720 hours that have an estimate
  (R411, R412). -/
  hours  : Nat := 0
  lives  : Nat := 0
deriving DecidableEq, Repr

/-- A rim controller (R402, R407). -/
structure Rim where
  trained : Bool := false
  failed  : Bool := false
  cntEn   : BitVec 8 := 0
  cntOvf  : BitVec 8 := 0
  cntSel  : Vector (BitVec 6) 8 := Vector.replicate 8 0
  cnt     : Vector (BitVec 48) 8 := Vector.replicate 8 0
deriving DecidableEq, Repr

/-- How a root port answers a request (R405): Successful Completion, Completer Abort, Unsupported Request. -/
inductive PortStatus where
  | ok
  | abort
  | unsupported
deriving DecidableEq, Repr

/-- A PCIe root port (R405): its ASID, and the last answer to a request, with poisoned data marked (R386, R402). The
interface that owns it is the Launch Unit's to say (R401). -/
structure Port where
  asid   : Nat := 0
  reply  : List Byte := []
  status : PortStatus := .ok
  poison : Bool := false
  /-- The Croft interrupt vectors that its MSI-X writes have raised. -/
  irqs   : List (BitVec 8) := []
deriving DecidableEq, Repr

/-- A module link (R406): up, module number, modules reachable through it. -/
structure Link where
  up     : Bool := false
  number : BitVec 21 := 0
  routes : List (BitVec 21) := []
deriving DecidableEq, Repr

/-- What the mesh carries besides accepted messages (R14): messages to a tile, pairs to a Fold, lent tokens, loans
between Drovers. -/
inductive Flight where
  | message (site : Nat) (m : Message) (reply : Option Cmd) (task : Option Task)
  | request (m : Message) (cmd : Cmd) (since : Nat)
  | pair (field : Nat) (p : Pair)
  | tokens (site : Nat) (task : TaskKey) (loan : Loan)
  | loan (lender borrower n : Nat)
deriving DecidableEq, Repr

/-- Bit errors from outside (R385): a single- or double-bit error of a scratchpad doubleword or of a line. -/
inductive Upset where
  | spad (site dword : Nat) (double : Bool)
  | line (key : LineKey) (double : Bool)
  /-- Data of a physical line that its HBM stack cannot correct. -/
  | hbm (line : Nat)
  | retained (site dword : Nat) (bits : Nat)
  | l1 (site idx dword : Nat) (double : Bool)
  | ctx (site slot : Nat) (unit : RegUnit) (double : Bool)
  /-- A stack serves a read that L2's clean copies do not answer, or tries a refresh again (R407; log 72). -/
  | rim (stack : Nat) (refresh : Bool)
deriving DecidableEq, Repr

/-- The agents that issue words. -/
inductive Agent where
  | tile (site slot : Nat) (st : Stream)
  | croft (n : Nat)
deriving DecidableEq, Repr

/-- An entry of the agenda: what happens next (log 1). -/
inductive Move where
  | turn (a : Agent)
  | event (i : Instr)
  /-- Time passes; the corrections of some fields' copies of GTIME, in ps. -/
  | elapse (refTicks : Nat) (slews : List (Nat × Int))
  | fetch (site slot : Nat)
  | bytesMoved (site seq : Nat) (inbound : Bool)
  | evictL1 (site idx : Nat)
  | evictL2 (idx : Nat)
  | dropTlb (cluster idx : Nat)
  | evictCroft (n idx : Nat)
  | upset (u : Upset)
  /-- A part of another module comes over the links to a group that this module coordinates, at the tile that DEST names. -/
  | farPart (site : Nat) (cmd : Cmd) (bytes : List (Byte × Bool))
  /-- What a group that another module coordinates came to reaches one of its parts here: STATUS, DETAIL, and the result. -/
  | farResult (idx : Nat) (status : BitVec 8) (detail : BitVec 16) (bytes : List (Byte × Bool))
deriving DecidableEq, Repr

/-- Reasons the machine stops. -/
inductive Fault where
  /-- `exec` of a word while the agent whose turn it is does not exist: an empty context or a Croft core that is held.
  Raised by the operations of Machine/Ops.lean that read the context. SAFE: hardware issues no such word. -/
  | noAgent
deriving DecidableEq, Repr

/-- Reasons an instruction has no meaning here. -/
inductive Refusal where
  /-- No meaning written for the row. Raised by exec's arms only. SAFE. -/
  | notModelled (mnemonic : String)
  /-- A Croft access to a PCIe root-port window (R405): the device behind it is not described. Raised by the Croft
  loads and stores. SAFE. -/
  | rootPortWindow (port : Nat)
deriving DecidableEq, Repr

/-- The whole module. The first four fields are the model's own (logs 1 and 2). -/
structure State where
  agenda   : List Move
  turn     : Agent
  choices  : List Nat
  draws    : Nat
  mem      : Memory
  l2       : List L2Line
  readers  : List (LineKey × List (Nat × BitVec 8 × BitVec 32))
  /-- The leaves, A and D set, by which walks have found pages since their last shoot-down after a change of UNB or HOME:
  where lines of a page may be present (R372). -/
  leaves   : List TlbEntry
  poison   : List LineKey
  /-- The HBM lines whose own copy is poisoned while L2 holds a copy that differs (R386). -/
  hbmPoison : List Nat
  weak     : List LineKey
  bad      : List LineKey
  refTicks : Nat
  gtime    : Word
  tskew    : BitVec 16
  clusters : Sparse Cluster
  tiles    : Sparse Tile
  fields   : Sparse Field
  vis      : Sparse VI
  launches : Sparse Launch
  nextLaunch : Nat
  luTasks  : List LuTask
  images   : List Image
  mesh     : List Flight
  parts    : List ClPart
  /-- The fields that wait for a rehome event, and when their slices were retired (R285). -/
  rehome   : Sparse Nat
  crofts   : Sparse Croft
  sec      : Security
  rims     : Sparse Rim
  ports    : Sparse Port
  links    : Sparse Link
  flash    : Memory
  bootCode : Option (BitVec 8)
  /-- How far the stages of R396 have come: 0 before the ROM, 1 with firmware loaded, 2 with the module up. -/
  bootStage : Nat
  /-- Attempts made of the router-map update in hand, and the CRCs by which it is known (R418). -/
  mapTries : Nat := 0
  mapCrcs  : List (BitVec 32) := []
deriving DecidableEq, Repr

/-- The machine right after reset: nothing but the first move, BOOT at power good (R396, log 1). Numbers that no
list holds have their records' reset values. -/
def State.reset : State where
  agenda := [.event .boot]
  turn := .croft 0
  choices := []
  draws := 0
  mem := []
  l2 := []
  readers := []
  leaves := []
  poison := []
  hbmPoison := []
  weak := []
  bad := []
  refTicks := 0
  gtime := 0
  tskew := 0xFFFF
  clusters := []
  tiles := []
  fields := []
  vis := []
  launches := []
  nextLaunch := 1
  luTasks := []
  images := []
  mesh := []
  parts := []
  rehome := []
  crofts := [(0, { ({} : Croft) with held := false })]
  sec := {}
  rims := []
  ports := []
  links := []
  flash := []
  bootCode := none
  bootStage := 0

end Sys2Proof.Machine
end

