-- ==== Sys2Proof/Machine/Maps.lean ====
section
/-! DEFINITION. Records by number, and bytes by address in canonical form. -/

namespace Sys2Proof.Machine

/-- The record of number `k`, or `d` when none is listed. -/
def sget {α : Type} (d : α) (k : Nat) : Sparse α → α
  | [] => d
  | (i, a) :: r => if i = k then a else sget d k r

/-- The listed record of number `k`. -/
def sget? {α : Type} (k : Nat) : Sparse α → Option α
  | [] => none
  | (i, a) :: r => if i = k then some a else sget? k r

/-- List `a` under number `k`, keeping the numbers rising. -/
def sset {α : Type} (k : Nat) (a : α) : Sparse α → Sparse α
  | [] => [(k, a)]
  | (i, b) :: r => if k < i then (k, a) :: (i, b) :: r else if k = i then (k, a) :: r else (i, b) :: sset k a r

/-- Take number `k` off the list. -/
def sdel {α : Type} (k : Nat) (m : Sparse α) : Sparse α := m.filter (fun p => p.1 != k)

/-- The numbers rise strictly. -/
def sorted : List Nat → Bool
  | [] => true
  | [_] => true
  | a :: b :: r => decide (a < b) && sorted (b :: r)

/-- Put a number into a rising list. -/
def sinsert (k : Nat) : List Nat → List Nat
  | [] => [k]
  | i :: r => if k < i then k :: i :: r else if k = i then i :: r else i :: sinsert k r

/-- The canonical form of a memory: addresses rising strictly, no byte 0 listed. -/
def Memory.wf (m : Memory) : Bool := sorted (m.map Prod.fst) && m.all (fun c => c.2 != 0)

/-- What a byte that no entry lists reads as (log 4). -/
def unlistedByte : Byte := 0

/-- The byte at an address. -/
def Memory.read (m : Memory) (a : Nat) : Byte := sget unlistedByte a m

/-- Store one byte, keeping the canonical form: a byte that an unlisted address reads as leaves the list. -/
def Memory.write (a : Nat) (b : Byte) : Memory → Memory
  | [] => if b = unlistedByte then [] else [(a, b)]
  | (i, c) :: r =>
    if a < i then (if b = unlistedByte then (i, c) :: r else (a, b) :: (i, c) :: r)
    else if a = i then (if b = unlistedByte then r else (a, b) :: r)
    else (i, c) :: Memory.write a b r

/-- `n` bytes from `a` on. -/
def Memory.readN (m : Memory) (a n : Nat) : List Byte := (List.range n).map (fun k => m.read (a + k))

/-- Store bytes at rising addresses from `a` on. -/
def Memory.writeN (m : Memory) (a : Nat) : List Byte → Memory
  | [] => m
  | b :: r => (m.write a b).writeN (a + 1) r

/-- Bytes as one little-endian number (R3). -/
def leNat : List Byte → Nat
  | [] => 0
  | b :: r => b.toNat + 256 * leNat r

/-- The `n` bytes of a number, little-endian (R3). -/
def leBytes : Nat → Nat → List Byte
  | 0, _ => []
  | n + 1, v => BitVec.ofNat 8 v :: leBytes n (v / 256)

/-- A doubleword from bytes. -/
def leWord (l : List Byte) : Word := BitVec.ofNat 64 (leNat l)

/-- The bytes of a doubleword. -/
def wordBytes (w : Word) : List Byte := leBytes 8 w.toNat

/-- `n` bytes of a line from offset `o` on. -/
def lineBytes (l : Line) (o n : Nat) : List Byte := (List.range n).map (fun k => l.extractLsb' (8 * (o + k)) 8)

/-- A line with bytes put at offset `o`. -/
def linePut (l : Line) (o : Nat) : List Byte → Line
  | [] => l
  | b :: r =>
    linePut ((l &&& ~~~((0xFF#512) <<< (8 * o))) ||| ((b.setWidth 512) <<< (8 * o))) (o + 1) r

/-- The element at `k` of a vector, or `d` past its end. -/
def vget {α : Type} {n : Nat} (d : α) (v : Vector α n) (k : Nat) : α := (v[k]?).getD d

/-- A vector with its element `k` replaced; past its end nothing changes. -/
def vput {α : Type} {n : Nat} (v : Vector α n) (k : Nat) (a : α) : Vector α n := v.setIfInBounds k a

/-- The element at `k` of a list with `f` applied. -/
def lmod {α : Type} (l : List α) (k : Nat) (f : α → α) : List α := l.modify k f

/-- Put an element before the first one that it does not follow. -/
def linsert {α : Type} (le : α → α → Bool) (a : α) : List α → List α
  | [] => [a]
  | b :: r => if le a b then a :: b :: r else b :: linsert le a r

/-- A list sorted by `le`, equal elements in their order. -/
def lsort {α : Type} (le : α → α → Bool) : List α → List α
  | [] => []
  | a :: r => linsert le a (lsort le r)

/-- The first index at which `p` holds. -/
def lfind {α : Type} (p : α → Bool) : List α → Option Nat
  | [] => none
  | a :: r => if p a then some 0 else (lfind p r).map (· + 1)

end Sys2Proof.Machine
end

