-- ==== Sys2Proof/Machine/Ops.lean ====
section
/-! DEFINITION. The named operations over the machine's records, taking a fault on a tile (R272, R379 to R382) and on
a Croft core (R393), the return from one, and the frame every word's meaning is written in. -/

namespace Sys2Proof.Machine

/-- What ends an instruction without completing it: a trap, a wait (R42), a trap that leaves a record in the state
(R6: the overrun flag of a Hurdle), or a stop of the model. -/
inductive Stop where
  | trap (t : Trap)
  | wait (k : WaitKind)
  | trapAfter (t : Trap) (s : State)
  | fault (f : Fault)
  | refuse (r : Refusal)
  /-- The word ends in this state, which is not the one its completion gives (an abort that is no fault). -/
  | goto (s : State)

/-- A result, or what stopped it. -/
abbrev Try (α : Type) := Except Stop α

/-- What `exec` and `step` answer. -/
abbrev Out := Host.Outcome State Fault Refusal

/-- Trap(code, detail) with a fault address (R6). -/
def trapWith {α : Type} (code : Code) (detail : Word := 0) (addr : Word := 0) : Try α :=
  .error (.trap { code := code, detail := detail, addr := addr })

/-- Trap unless the condition holds. -/
def need (b : Bool) (code : Code) (detail : Word := 0) (addr : Word := 0) : Try Unit :=
  if b then .ok () else trapWith code detail addr

/-- Wait unless the condition holds. -/
def await (b : Bool) (k : WaitKind) : Try Unit := if b then .ok () else .error (.wait k)

/-- The number of a fault code (R381). -/
def Code.num : Code → BitVec 8
  | .illop => 0x01
  | .illstrm => 0x02
  | .illclass => 0x03
  | .priv => 0x04
  | .illdom => 0x05
  | .rptframe => 0x06
  | .pagenp => 0x10
  | .prot => 0x11
  | .align => 0x12
  | .attrsplit => 0x13
  | .unbfull => 0x14
  | .winfmt => 0x15
  | .localrange => 0x16
  | .shape => 0x17
  | .linkerr => 0x20
  | .rulemiss => 0x21
  | .nodeexh => 0x22
  | .foldspill => 0x23
  | .barovr => 0x30
  | .waittmo => 0x31
  | .uce => 0x40
  | .timing => 0x41
  | .poison => 0x42
  | .swtrap => 0x50
  | .brk => 0x51

/-! ## Where a tile lies (R11, R12). A site is 64 x field + 16 x cluster + tile index. -/

/-- The field of a site. -/
def siteField (site : Nat) : Nat := site / 64
/-- The cluster of a site, numbered over the whole wafer. -/
def siteCluster (site : Nat) : Nat := site / 16
/-- The tile index of a site. -/
def siteIdx (site : Nat) : Nat := site % 16

/-- The tile classes of R12. -/
inductive TileClass where
  | dt
  | st
  | at
  | vt
deriving DecidableEq, Repr

/-- The class of a tile index (R12). -/
def classOfIdx (i : Nat) : TileClass :=
  if i < 6 then .dt else if i < 9 then .st else if i < 12 then .at else .vt

/-- The class of a site. -/
def siteClass (site : Nat) : TileClass := classOfIdx (siteIdx site)

/-- The code of a class in rule entries and handler lists (R35, R355). -/
def TileClass.code : TileClass → Nat
  | .dt => 0
  | .st => 1
  | .at => 2
  | .vt => 3

/-- The accumulator banks of a class (R12). -/
def TileClass.banks : TileClass → Nat
  | .dt => 8
  | .st => 4
  | .at => 4
  | .vt => 0

/-- The coordinates (fx, fy) of a field (R11). -/
def fieldXY (f : Nat) : Nat × Nat :=
  if f < 12 then (2 + f % 6, f / 6)
  else if f < 72 then ((f - 12) % 10, 2 + (f - 12) / 10)
  else (2 + (f - 72) % 6, 8 + (f - 72) / 6)

/-- The distance of two numbers. -/
def natDist (a b : Nat) : Nat := (a - b) + (b - a)

/-- Two fields that differ by one in exactly one of fx and fy (R224, R304). -/
def adjacentFields (f g : Nat) : Bool :=
  natDist (fieldXY f).1 (fieldXY g).1 + natDist (fieldXY f).2 (fieldXY g).2 == 1

/-- The wafer-wide coordinates of a site (R12). -/
def siteXY (site : Nat) : Nat × Nat :=
  let c := site / 16 % 4
  let i := site % 16
  (8 * (fieldXY (siteField site)).1 + 4 * (c % 2) + i % 4, 8 * (fieldXY (siteField site)).2 + 4 * (c / 2) + i / 4)

/-- The default base share of a field (R302). -/
def defaultShare (f : Nat) : Nat := if f < 48 then 2341 else 2340

/-- A field right after reset. -/
def fieldReset (f : Nat) : Field := { drover := { share := defaultShare f, free := defaultShare f } }

/-! ## Records of the state by number -/

/-- The tile at a site. -/
def State.tile (s : State) (site : Nat) : Tile := sget {} site s.tiles
/-- Replace a tile. -/
def State.setTile (s : State) (site : Nat) (t : Tile) : State := { s with tiles := sset site t s.tiles }
/-- Change a tile. -/
def State.modTile (s : State) (site : Nat) (f : Tile → Tile) : State := s.setTile site (f (s.tile site))
/-- A cluster. -/
def State.cluster (s : State) (c : Nat) : Cluster := sget {} c s.clusters
/-- Change a cluster. -/
def State.modCluster (s : State) (c : Nat) (f : Cluster → Cluster) : State :=
  { s with clusters := sset c (f (s.cluster c)) s.clusters }
/-- A field. -/
def State.field (s : State) (f : Nat) : Field := sget (fieldReset f) f s.fields
/-- Change a field. -/
def State.modField (s : State) (f : Nat) (g : Field → Field) : State :=
  { s with fields := sset f (g (s.field f)) s.fields }
/-- A virtual interface. -/
def State.vi (s : State) (v : Nat) : VI := sget {} v s.vis
/-- Change a virtual interface. -/
def State.modVI (s : State) (v : Nat) (g : VI → VI) : State := { s with vis := sset v (g (s.vi v)) s.vis }
/-- A running launch. -/
def State.launch? (s : State) (l : Nat) : Option Launch := sget? l s.launches
/-- Change a running launch. -/
def State.modLaunch (s : State) (l : Nat) (g : Launch → Launch) : State :=
  match s.launch? l with
  | some a => { s with launches := sset l (g a) s.launches }
  | none => s
/-- A Croft core; all but core 0 are held at reset (R396). -/
def State.croft (s : State) (n : Nat) : Croft := sget {} n s.crofts
/-- Change a Croft core. -/
def State.modCroft (s : State) (n : Nat) (g : Croft → Croft) : State :=
  { s with crofts := sset n (g (s.croft n)) s.crofts }

/-- A resident context. -/
def State.ctx? (s : State) (site slot : Nat) : Option Ctx := vget none (s.tile site).ctxs slot
/-- Replace a context of a tile. -/
def Tile.setCtx (t : Tile) (slot : Nat) (c : Option Ctx) : Tile := { t with ctxs := vput t.ctxs slot c }
/-- Replace a resident context. -/
def State.setCtx (s : State) (site slot : Nat) (c : Ctx) : State := s.modTile site (·.setCtx slot (some c))
/-- Change a resident context, if there is one. -/
def State.modCtx (s : State) (site slot : Nat) (g : Ctx → Ctx) : State :=
  match s.ctx? site slot with
  | some c => s.setCtx site slot (g c)
  | none => s

/-- Word `k` of a list of words, 0 past its end. -/
def wordAt (l : List Word) (k : Nat) : Word := (l[k]?).getD 0

/-- Word `k` of a launch's record (R355). -/
def Launch.word (l : Launch) (k : Nat) : Word := wordAt l.rec_ k
/-- The domain of a launch (R355 word 0). -/
def Launch.dom (l : Launch) : BitVec 8 := fld (l.word 0) 48 8
/-- Is the launch restartable (R355 word 0)? -/
def Launch.restartable (l : Launch) : Bool := (l.word 0).getLsbD 38

/-- The ASID a tile's accesses use: its launch's. -/
def State.asidOf (s : State) (site : Nat) : Nat :=
  match (s.tile site).launch with
  | some l => ((s.launch? l).map (·.asid)).getD 0
  | none => 0

/-- The ticks elapsed in a cluster since reset (R24 CYC, R306): 7 in each ref tick, less what stretching took. -/
def State.clusterTick (s : State) (c : Nat) : Nat := 7 * s.refTicks - (s.cluster c).lost

/-- The ticks by which a field's router counts: those of its first cluster (DESIGN CHOICE, log 88). -/
def State.routerTick (s : State) (f : Nat) : Nat := s.clusterTick (4 * f)

/-- GTIME as a field's copy shows it (R308). -/
def State.gtimeAt (s : State) (f : Nat) : Word :=
  if s.tskew = 0xFFFF then s.gtime else s.gtime + BitVec.ofNat 64 ((s.field f).lag / 1000)

/-- The ticks elapsed on a tile, less those it stood still for a replay (R42). -/
def State.tick (s : State) (site : Nat) : Nat := s.clusterTick (siteCluster site) - (s.tile site).stopped

/-- Take the next answer to a choice the spec leaves open, below `n` (log 2). -/
def State.choose (s : State) (n : Nat) : Nat × State :=
  ((s.choices.headD 0) % n, { s with choices := s.choices.tail })

/-- Draw a value that the spec does not state (log 2). -/
def State.draw (s : State) : Word × State := (Config.freeValue s.draws, { s with draws := s.draws + 1 })

/-- Count an event on the counters of R407 that select it. (DEDUCED, log 72.) -/
def countOn {n : Nat} (ev k : Nat) (en ovf : BitVec n) (sel : Vector (BitVec 6) n) (cnt : Vector (BitVec 48) n) :
    BitVec n × Vector (BitVec 48) n :=
  (List.range n).foldl (fun (acc : BitVec n × Vector (BitVec 48) n) i =>
    if en.getLsbD i && (vget 0 sel i).toNat == ev then
      let old := (vget 0 acc.2 i).toNat
      let o := if 2 ^ 48 ≤ old + k then acc.1 ||| BitVec.twoPow n i else acc.1
      (o, vput acc.2 i (BitVec.ofNat 48 (old + k)))
    else acc) (ovf, cnt)

/-- Count `k` tile events (R407). -/
def Tile.count (t : Tile) (ev k : Nat) : Tile :=
  if t.cntEn = 0 then t
  else
    let r := countOn ev k t.cntEn t.cntOvf t.cntSel t.cnt
    { t with cntOvf := r.1, cnt := r.2 }

/-- Count `k` field events (R407). -/
def Field.count (f : Field) (ev k : Nat) : Field :=
  if f.cntEn = 0 then f
  else
    let r := countOn ev k f.cntEn f.cntOvf f.cntSel f.cnt
    { f with cntOvf := r.1, cnt := r.2 }

/-- Log a violation of an interface (R351): address, code, queue. -/
def VI.violate (v : VI) (addr : Word) (code queue : Nat) : VI :=
  { v with
    vlog := vput v.vlog (v.vlogidx.toNat % 8) (addr, BitVec.ofNat 64 (code % 256 + 256 * (queue % 256)))
    vlogidx := v.vlogidx + 1 }

/-- The tile of the launch that a name reaches from a field (R151, R219, R400): the one its router learnt; a name that the
router does not know is flooded, and the tile that holds it accepts (the lowest where firmware gave it to several;
DESIGN CHOICE, log 88). -/
def State.siteOfName (s : State) (f launch : Nat) (name : BitVec 16) : Option Nat :=
  let held := (s.tiles.filter (fun p => p.2.named && p.2.name == name && p.2.launch == some launch)).map Prod.fst
  match (s.field f).names.find? (·.name == name) with
  | some n => if held.contains n.site then some n.site else held.head?
  | none => held.head?

/-- The name of a site's tile, 0 when it has none (R400). -/
def State.nameOf (s : State) (site : Nat) : BitVec 16 := if (s.tile site).named then (s.tile site).name else 0

/-! ## Giving back what a task holds (R118, R222, R231, R268) -/

/-- Pay `n` tokens that come free in a field: first what a cut of the share still takes (R305, R408), then recalled
loans (R304), and the rest is free. -/
def State.gainTokens (s : State) (f n : Nat) : State :=
  let d := (s.field f).drover
  let c := Nat.min n d.cutDebt
  let rec pay (rs : List Recall) (n : Nat) (done : List Recall) (s : State) : List Recall × Nat × State :=
    match rs with
    | [] => (done.reverse, n, s)
    | r :: rest =>
      let k := Nat.min n r.n
      let s := if k = 0 then s else
        s.modField r.lender (fun g => { g with drover := { g.drover with
          free := g.drover.free + k, lent := sset f (sget 0 f g.drover.lent - k) g.drover.lent } })
      let s := if k = 0 then s else
        s.modField f (fun g => { g with drover := { g.drover with
          borrowed := sset r.lender (sget 0 r.lender g.drover.borrowed - k) g.drover.borrowed } })
      pay rest (n - k) (if r.n = k then done else ⟨r.lender, r.n - k⟩ :: done) s
  let p := pay d.recalls (n - c) [] s
  p.2.2.modField f (fun g => { g with drover := { g.drover with
    free := g.drover.free + p.2.1, cutDebt := g.drover.cutDebt - c, recalls := p.1 } })

/-- The borrowed tokens of a holding. -/
def Holding.borrowed (h : Holding) : Nat := (h.loans.map (·.n)).foldl (· + ·) 0
/-- HELD (R24). -/
def Holding.held (h : Holding) : Nat := h.own + h.borrowed
/-- The available holding A (R299). -/
def Holding.avail (h : Holding) : Nat := h.held - h.notice

/-- HELD summed over a tile's contexts (R300). -/
def Tile.tokens (t : Tile) : Nat :=
  t.ctxs.toList.foldl (fun n c => match c with | some c => n + c.tok.held | none => n) 0

/-- The task's key. -/
def Task.who (t : Task) : TaskKey := (t.msg.vi, t.msg.dom, t.id)

/-- The slot of a resident task of a tile. -/
def Tile.slotOf (t : Tile) (k : TaskKey) : Option Nat :=
  lfind (fun c => match c with | some (c : Ctx) => c.task.who == k | none => false) t.ctxs.toList

/-- One loan goes back: to the lending task while it runs, within 128 of its tile, else to the lender's Drover
(R118). A re-run or a resumed lender is still the lending task. (DEDUCED, log 55.) -/
def State.returnLoan (s : State) (l : Loan) : State :=
  match (s.tile l.site).slotOf l.task with
  | some slot =>
    let room := Nat.min l.n (Config.tileTokens - (s.tile l.site).tokens)
    let s := s.modCtx l.site slot (fun c => { c with tok := { c.tok with own := c.tok.own + room } })
    if l.n = room then s else s.gainTokens l.field (l.n - room)
  | none => s.gainTokens l.field l.n

/-- A holding ends (R118): own tokens to the field's Drover, borrowed ones as R118 says. -/
def State.endHolding (s : State) (site : Nat) (h : Holding) : State :=
  let s := if h.own = 0 then s else s.gainTokens (siteField site) h.own
  h.loans.foldl State.returnLoan s

/-- The context of a run leaves its slot. -/
def Tile.without (t : Tile) (run : Nat) : Tile := { t with ctxs := t.ctxs.map (fun o => o.filter (·.run != run)) }

/-- A task's holding ends with the task: its context is gone before tokens return, so that none return to it (R118). -/
def State.endTokens (s : State) (site : Nat) (c : Ctx) : State :=
  (s.modTile site (·.without c.run)).endHolding site c.tok

/-- Unreserve one entry that holds this pair (R222, R251). -/
def unreserve (p : Pair) : List FoldEntry → List FoldEntry
  | [] => []
  | e :: r => if e.reserved && e.pair == p then { e with reserved := false } :: r else e :: unreserve p r

/-- Remove one entry reserved for this pair (R222: the pair is consumed). -/
def dropReserved (p : Pair) : List FoldEntry → List FoldEntry
  | [] => []
  | e :: r => if e.reserved && e.pair == p then r else e :: dropReserved p r

/-- Held pairs go back to the Folds they came from (R222). -/
def State.returnPairs (s : State) (hs : List Held) : State :=
  hs.foldl (fun s h => s.modField h.field (fun f =>
    { f with fold := { f.fold with entries := unreserve h.pair f.fold.entries } })) s

/-- Lines go to a field's flock (R231). -/
def State.toFlock (s : State) (f launch : Nat) (ls : List Word) : State :=
  if ls.isEmpty then s
  else s.modField f (fun g => { g with flock := sset launch (sget [] launch g.flock ++ ls) g.flock })

/-- Release the reader registrations of a task (R266, R272). -/
def State.releaseReaders (s : State) (vi : Nat) (dom : BitVec 8) (id : BitVec 32) : State :=
  if dom = 0 then s
  else { s with readers := (s.readers.map (fun p => (p.1, p.2.filter (· != (vi, dom, id))))).filter (!·.2.isEmpty) }

/-- A task gives back what it holds beside tokens (R272): registrations, pairs, allocated lines. -/
def State.takeHeld (s : State) (site : Nat) (c : Ctx) : State :=
  let s := s.releaseReaders c.task.msg.vi c.task.msg.dom c.task.id
  let s := s.returnPairs c.pairs
  s.toFlock (siteField site) c.task.msg.launch c.lines

/-- A task gives back everything an abort takes (R272), tokens too; its context is gone. -/
def State.takeBack (s : State) (site : Nat) (c : Ctx) : State := (s.takeHeld site c).endTokens site c

/-- The context leaves its slot; an array item of it runs on, and what its ports remember of FOLLOW is forgotten. -/
def State.freeSlot (s : State) (site slot : Nat) : State :=
  s.modTile site (fun t => { t.setCtx slot none with
    cur := if t.cur = some slot then none else t.cur
    cmds := t.cmds.filter (fun m => !(m.told && m.slot == some slot))
    array := t.array.map (fun a => if a.slot = some slot then { a with slot := none } else a) })

/-! ## Faults on a tile -/

/-- Where a fault sends the task (R381). -/
inductive Dispo where
  | same
  | parked
  | held
  | other
deriving DecidableEq, Repr

/-- The disposition of a code (R262, R381), `commit` for faults found by the checks of a commit. -/
def dispoOf (code : Code) (detail : Word) (commit restartable : Bool) : Dispo :=
  match code with
  | .pagenp => .parked
  | .unbfull => .parked
  | .priv => .held
  | .prot => .held
  | .attrsplit => .held
  | .waittmo => .held
  | .swtrap => .held
  | .brk => .held
  | .illdom => if detail = 3 then .held else .same
  | .linkerr => if commit then .held else .same
  | .foldspill => if commit then .held else .same
  | .uce => if restartable then .other else .held
  | .timing => if restartable then .other else .held
  | .poison => if restartable then .other else .held
  | .illop => .same
  | .illstrm => .same
  | .illclass => .same
  | .rptframe => .same
  | .align => .same
  | .winfmt => .same
  | .localrange => .same
  | .shape => .same
  | .rulemiss => .same
  | .nodeexh => .same
  | .barovr => .same

/-- The DISP field of a fault record (R379). -/
def Dispo.num : Dispo → Nat
  | .same => 0
  | .parked => 1
  | .held => 2
  | .other => 3

/-- The words of a fault record but PH (R379). A re-run on another tile has SUSP = 1, whatever the tile's STATE is (R384).
DETAIL keeps the low 16 bits of the detail (DEDUCED, log 11). -/
def faultRecord (s : State) (site : Nat) (task : Task) (t : Trap) (pc : Word) (d : Dispo) : List Word :=
  let l := s.launch? task.msg.launch
  let queue := (l.map (·.queue)).getD 0
  let seq := (l.map (·.seq)).getD 0
  let asid := (l.map (·.asid)).getD 0
  [ t.code.num ++ (BitVec.ofNat 8 d.num) ++ task.msg.dom ++ BitVec.ofNat 5 queue ++
      BitVec.ofBool ((s.tile site).status == 1 || d == .other) ++ 0#2 ++ task.id,
    seq ++ s.nameOf site ++ t.detail.setWidth 16,
    (t.addr.setWidth 57).setWidth 64,
    (pc.setWidth 57).setWidth 64,
    BitVec.ofNat 12 asid ++ 0#12 ++ BitVec.ofNat 8 task.rep ++ task.msg.ts,
    0, 0, 0 ]

/-- A tile of the launch, of the same class and other than `site`, in a field of the launch (R275). -/
def State.otherTiles (s : State) (launch site : Nat) : List Nat :=
  (s.tiles.filter (fun p => p.1 != site && p.2.launch == some launch && siteClass p.1 == siteClass site)).map Prod.fst

/-- The task goes to the tail of its tile's inbox (R262), or waits in the Launch Unit while the tile is away from the
launch. An inbox that holds 32 messages already takes it too. (DESIGN CHOICE, log 118.) -/
def State.requeue (s : State) (site : Nat) (task : Task) : State :=
  if (s.tile site).launch = some task.msg.launch then s.modTile site (fun t => { t with inbox := t.inbox ++ [task] })
  else { s with luTasks := s.luTasks ++ [⟨task, site, .queued⟩] }

/-- The repeat count after a fault (R382). -/
def Task.repeated (task : Task) (code : Code) (pc : Word) : Task :=
  { task with rep := if task.last = some (code, pc) then task.rep + 1 else 1, last := some (code, pc) }

/-- An error after which a restartable task runs again from its snapshot (R275, R381, R384). -/
def Code.hard (c : Code) : Bool := c == .uce || c == .poison || c == .timing

/-- The task that is to run again from its snapshot, to make good an error; an error that reached data stays named until
such a run has ended (R364). -/
def Task.restart (k : Task) (c : Code) : Task :=
  { k with again := k.snap.isSome, redo := if k.redo = some .uce ∨ k.redo = some .poison then k.redo else some c }

/-- Where the task goes after its abort (R381, R382), with the fault record of R379. -/
def State.dispose (s : State) (site : Nat) (task : Task) (t : Trap) (pc : Word) (commit : Bool) : State :=
  let restartable := ((s.launch? task.msg.launch).map (·.restartable)).getD false
  let hard := t.code.hard
  let task := task.repeated t.code pc
  let task := if hard && restartable then task.restart t.code else task
  let s := if hard then s.modTile site (fun x => { x with status := if x.status = 0 then 1 else x.status }) else s
  let d := if 16 ≤ task.rep then .held else dispoOf t.code t.detail commit restartable
  let others := s.otherTiles task.msg.launch site
  let d := if d = .other && others.isEmpty then .held else d
  let record (s : State) : State :=
    if (s.vi task.msg.vi).frctl.getLsbD 0 then
      s.modVI task.msg.vi (fun v => { v with frpend := v.frpend ++ [faultRecord s site task t pc d] })
    else s
  match d with
  | .same => s.requeue site task
  | .parked => record { s with luTasks := s.luTasks ++ [⟨task, site, .parked⟩] }
  | .held => record { s with luTasks := s.luTasks ++ [⟨task, site, .held⟩] }
  | .other =>
    let k := s.choose others.length
    let target := (others[k.1]?).getD site
    record { k.2 with luTasks := k.2.luTasks ++ [⟨task, target, .queued⟩] }

/-- The launch saw an uncorrectable error that no other tile re-runs (R364). -/
def State.taint (s : State) (launch : Nat) : State := s.modLaunch launch (fun l => { l with tainted := true })

/-- A task is lost: an uncorrectable error that its re-run was to make good taints its launch (R364). -/
def State.loseTask (s : State) (k : Task) : State :=
  if k.redo = some .uce ∨ k.redo = some .poison then s.taint k.msg.launch else s

/-- Does a TLB entry cover a VA? -/
def TlbEntry.covers (e : TlbEntry) (vi asid : Nat) (va : Word) : Bool :=
  e.vi == vi && e.asid == asid && va.toNat / 4096 / e.span == e.vpage / e.span

/-- No TLB keeps the entry of a page on which an access raised UNBFULL (R373, R383). -/
def State.unlearn (s : State) (site launch : Nat) (t : Trap) : State :=
  match t.code, s.launch? launch with
  | .unbfull, some l => s.modCluster (siteCluster site) (fun c =>
      { c with tlb := c.tlb.filter (fun e => !e.covers l.vi l.asid t.addr) })
  | _, _ => s

/-- What a fault of a task does once the task is taken out of the tile (R272, R364, R381): the abort is counted, a lost
datum taints the launch unless the task is to run again from its snapshot, and the task goes where R381 says. -/
def State.afterFault (s : State) (site : Nat) (task : Task) (t : Trap) (pc : Word) (commit : Bool) : State :=
  let s := (s.modTile site (·.count 10 1)).unlearn site task.msg.launch t
  let s := s.modLaunch task.msg.launch (fun l => { l with aborts := l.aborts + 1 })
  let restartable := ((s.launch? task.msg.launch).map (·.restartable)).getD false
  let s := if (t.code == .uce || t.code == .poison) && !restartable then s.taint task.msg.launch else s
  s.dispose site task t pc commit

/-- A fault on a tile: the task in the slot is aborted (R272) and goes where R381 says. -/
def State.abortFault (s : State) (site slot : Nat) (t : Trap) (pc : Word) : State :=
  match s.ctx? site slot with
  | none => s
  | some c => ((s.takeBack site c).freeSlot site slot).afterFault site c.task t pc false

/-- An abort that is no fault (R262, R382): the message goes to the tail of the same tile's inbox. -/
def State.abortPlain (s : State) (site slot : Nat) : State :=
  match s.ctx? site slot with
  | none => s
  | some c =>
    let s := s.takeBack site c
    let s := s.freeSlot site slot
    let s := s.modTile site (·.count 10 1)
    let s := s.modLaunch c.task.msg.launch (fun l => { l with aborts := l.aborts + 1 })
    s.requeue site c.task

/-! ## Faults on a Croft core -/

/-- A program counter: 57 bits, [1:0] zero (R68). (DEDUCED, log 84.) -/
def pcCut (a : Word) : Word := (fld a 2 55).setWidth 64 <<< 2

/-- A fault on a Croft core vectors to CVEC at level F (R393). -/
def State.croftFault (s : State) (n : Nat) (t : Trap) : State :=
  s.modCroft n (fun c =>
    { c with
      cepc := c.pc
      cflt := (t.code.num.setWidth 64 <<< 16) ||| (t.detail.setWidth 16).setWidth 64
      cfaddr := t.addr.setWidth 57 |>.setWidth 64
      prev := c.level
      level := true
      pc := pcCut c.cvec })

/-- The return of `fret` (R394). -/
def Croft.ret (c : Croft) : Croft := { c with level := c.prev, pc := pcCut c.cepc }

/-! ## Bit errors in a context's own storage (R385) -/

/-- Read a unit of a context: a single-bit error is corrected and counted, a double-bit error raises UCE. -/
def State.scrub (s : State) (site slot : Nat) (u : RegUnit) : Try State :=
  match s.ctx? site slot with
  | none => .ok s
  | some c =>
    if c.marks.isEmpty then .ok s
    else if c.marks.any (fun m => m.unit == u && m.double) then trapWith .uce
    else if c.marks.any (fun m => m.unit == u) then
      let s := s.setCtx site slot { c with marks := c.marks.filter (·.unit != u) }
      let s := s.modTile site (·.count 13 1)
      .ok (s.modLaunch c.task.msg.launch (fun l => { l with corrected := true }))
    else .ok s

/-- Writing a unit replaces its contents and the error with them. -/
def Ctx.unmark (c : Ctx) (u : RegUnit) : Ctx :=
  if c.marks.isEmpty then c else { c with marks := c.marks.filter (·.unit != u) }

/-- The C-stream words fetched before the A-stream word that issues next. -/
def Ctx.seen (c : Ctx) : Nat := (c.aFront.head?.map (·.seen)).getD c.fetched

/-- The C-stream words of the front end that come before it. -/
def Ctx.earlier (c : Ctx) : List (Word × IWord) := c.front.take (c.front.length - (c.fetched - c.seen))

/-- Does a repeat frame with a word that comes before it still run? Its `rpt` and its words are the last 17 to have left
the front end. -/
def Ctx.frameEarlier (c : Ctx) : Bool := c.frame.isSome && decide (c.fetched - c.front.length < c.seen + 17)

/-- Has every C-stream word before it issued? -/
def Ctx.cIssued (c : Ctx) : Bool := c.earlier.isEmpty && !c.frameEarlier

/-- A context as a task starts in it (R23): everything reads zero, e7 holds the message. -/
def Ctx.fresh (task : Task) (pc fpc vshape : Word) (grid : Grid) (safemap : Word) : Ctx where
  task := task
  pc := pc
  x := Vector.replicate 48 0
  s := Vector.replicate 48 0
  v := Vector.replicate 28 0
  acc := Vector.replicate 8 0
  mstat := Vector.replicate 4 0
  fpc := fpc
  vshape := vshape
  vstat := 0
  amax := 0
  q := Vector.replicate 8 []
  vq := Vector.replicate 4 []
  out := Vector.replicate 4 []
  cap := Vector.replicate 4 0
  inp := vput (Vector.replicate 4 []) 3 task.msg.words
  front := []
  frame := none
  safemap := safemap
  grid := grid
  pairs := []
  lines := []
  tok := {}
  buf := []
  reads := []
  specLines := []
  hbmLines := []
  aWait := none
  cWait := none
  atDone := false
  vecBusy := 0

/-! ## The frame of a word's meaning -/

/-- The PC and word that a stream of a context issues next: the word at the pc, or the head of the repeat frame or of
the front end. -/
def Ctx.nextC (c : Ctx) : Option (Word × IWord) :=
  match c.frame with
  | some f => f.words[f.idx]?
  | none => c.front.head?

/-- The PC of the word a stream is issuing. -/
def Ctx.pcOf (c : Ctx) : Stream → Word
  | .A => c.pc
  | .C => (c.nextC.map Prod.fst).getD c.pc

/-- Raise a fault in the word that the agent whose turn it is issues. -/
def State.raise (s : State) (st : Stream) (t : Trap) : State :=
  match s.turn with
  | .croft n => s.croftFault n t
  | .tile site slot _ =>
    match s.ctx? site slot with
    | some c => s.abortFault site slot t (c.pcOf st)
    | none => s

/-- Is it the same wait (R42: each wait is counted from when it first blocks)? -/
def WaitKind.same : WaitKind → WaitKind → Bool
  | .hurdle a b _, .hurdle c d _ => a == c && b == d
  | .fullEmpty a b _ _ _, .fullEmpty c d _ _ _ => a == c && b == d
  | a, b => a == b

/-- The wait of a stream. -/
def Ctx.waitOf (c : Ctx) : Stream → Option Wait
  | .A => c.aWait
  | .C => c.cWait

/-- Set or clear the wait of a stream. -/
def Ctx.setWait (c : Ctx) (st : Stream) (w : Option Wait) : Ctx :=
  match st with
  | .A => { c with aWait := w }
  | .C => { c with cWait := w }

/-- The stream waits; a wait that goes on keeps its beginning. A full/empty wait takes its place in the order of
arrival at the port (R126). -/
def State.block (s : State) (i : Instr) (k : WaitKind) : State :=
  match s.turn with
  | .croft _ => s
  | .tile site slot _ =>
    match s.ctx? site slot with
    | none => s
    | some c =>
      let again := match c.waitOf i.stream with
        | some w => w.kind.same k && w.inst == i
        | none => false
      if again then s
      else
        let s := s.setCtx site slot (c.setWait i.stream (some ⟨k, s.tick site, i⟩))
        match k with
        | .fullEmpty target _ _ _ _ => s.modTile target (fun t => { t with seq := t.seq + 1 })
        | _ => s

/-- The next word of an A-stream (R68): the next in its front end, or where the fetch unit stands. -/
def Ctx.retireA (c : Ctx) : Ctx :=
  match c.aFront with
  | [] => { c with pc := pcCut (c.pc + 4), aWait := none }
  | [_] => { c with pc := c.ahead, aFront := [], aWait := none }
  | _ :: a :: r => { c with pc := a.pc, aFront := a :: r, aWait := none }

/-- The A-stream goes on at an address; nothing is fetched past a word that may do so. -/
def Ctx.jumpTo (c : Ctx) (pc : Word) : Ctx := { c with pc := pcCut pc, aFront := [], aWait := none }

/-- The next word of a C-stream: the frame advances, or the head leaves the front end (R86, R88). -/
def Ctx.retireC (c : Ctx) : Ctx :=
  match c.frame with
  | none => { c with front := c.front.tail, cWait := none }
  | some f =>
    if f.idx + 1 < f.words.length then { c with frame := some { f with idx := f.idx + 1 }, cWait := none }
    else if f.iter + 1 < f.n then { c with frame := some { f with idx := 0, iter := f.iter + 1 }, cWait := none }
    else { c with frame := none, cWait := none }

/-- The word completes and the stream goes on with the next one; issued words are counted (R407). -/
def State.retire (s : State) (st : Stream) : State :=
  match s.turn with
  | .croft n => s.modCroft n (fun c => { c with pc := pcCut (c.pc + 4) })
  | .tile site slot _ =>
    match st with
    | .A => (s.modCtx site slot Ctx.retireA).modTile site (·.count 1 1)
    | .C => (s.modCtx site slot Ctx.retireC).modTile site (·.count 2 1)

/-- The word completes and the A-stream goes on at `pc`. -/
def State.jump (s : State) (pc : Word) : State :=
  match s.turn with
  | .croft n => s.modCroft n (fun c => { c with pc := pcCut pc })
  | .tile site slot _ => (s.modCtx site slot (·.jumpTo pc)).modTile site (·.count 1 1)

/-- The pc of the A-stream whose turn it is. -/
def State.pc (s : State) : Word :=
  match s.turn with
  | .croft n => (s.croft n).pc
  | .tile site slot _ => ((s.ctx? site slot).map (·.pc)).getD 0

/-- The step's answer from a word's result. A trap or a wait leaves nothing of what the word began (R6, R20). -/
def conclude (s : State) (i : Instr) (r : Try State) : Out :=
  match r with
  | .ok t => .next t
  | .error (.trap t) => .next (s.raise i.stream t)
  | .error (.wait k) => .next (s.block i k)
  | .error (.trapAfter t s') => .next (s'.raise i.stream t)
  | .error (.fault f) => .fault f
  | .error (.refuse r) => .refused r
  | .error (.goto s') => .next s'

/-- The context whose turn it is. -/
def State.here (s : State) : Try (Nat × Nat × Ctx) :=
  match s.turn with
  | .croft _ => trapWith .illop
  | .tile site slot _ =>
    match s.ctx? site slot with
    | some c => .ok (site, slot, c)
    | none => .error (.fault .noAgent)

end Sys2Proof.Machine
end

