-- ==== Sys2Proof/Machine/Flags.lean ====
section
/-! DEFINITION. The fields of FPC, VSHAPE, VSTAT and AMAX (R24), and the flag rules of R25 and R101. -/

namespace Sys2Proof.Machine

/-- FPC.RM (R24). -/
def rmOf (c : BitVec 2) : RM :=
  match c.toNat with
  | 0 => .rne
  | 1 => .rz
  | 2 => .ru
  | _ => .rd

/-- The rounding mode, flush and FP8 saturation bits of an FPC value (R24). -/
def modesOf (fpc : BitVec 16) : Modes :=
  { rm := rmOf (fld fpc 0 2), fz := fpc.getLsbD 2, sat8 := fpc.getLsbD 3 }

/-- The modes that a C-stream instruction reads when it issues (R25). -/
def Ctx.modes (c : Ctx) : Modes := modesOf (c.fpc.setWidth 16)

/-- The modes of a scalar floating-point instruction, which ignores SAT8 (R100). -/
def Ctx.scalarModes (c : Ctx) : Modes := { c.modes with sat8 := false }

/-- The trap enables of FPC [10:6] (R24). -/
def Ctx.enables (c : Ctx) : Flags := fld c.fpc 6 5

/-- OR flags into FPC [15:11] (R101). -/
def Ctx.stickFpc (c : Ctx) (f : Flags) : Ctx := { c with fpc := c.fpc ||| (f.setWidth 64 <<< 11) }

/-- The number of the highest flag set. -/
def highFlag (f : Flags) : Nat :=
  if f.getLsbD 4 then 4 else if f.getLsbD 3 then 3 else if f.getLsbD 2 then 2 else if f.getLsbD 1 then 1 else 0

/-- The exceptions of a scalar floating-point instruction (R101): SWTRAP for an enabled one, else they stick. -/
def Ctx.scalarFlags (c : Ctx) (f : Flags) : Try Ctx :=
  if f &&& c.enables = 0 then .ok (c.stickFpc f)
  else trapWith .swtrap (BitVec.ofNat 64 (0x100 + 11 + highFlag (f &&& c.enables)))

/-- OR flags into VSTAT [4:0] (R25). -/
def Ctx.stickV (c : Ctx) (f : Flags) : Ctx := { c with vstat := c.vstat ||| f.setWidth 64 }

/-- Set VSTAT.SAT (R24). -/
def Ctx.stickSat (c : Ctx) (b : Bool) : Ctx := if b then { c with vstat := c.vstat ||| 0x20 } else c

/-- Set VSTAT.TERNBAD (R24). -/
def Ctx.stickTern (c : Ctx) (b : Bool) : Ctx := if b then { c with vstat := c.vstat ||| 0x40 } else c

/-- Rows of VSHAPE (R24). -/
def shapeRows (v : Word) : Nat := (fld v 0 6).toNat + 1

/-- Columns of VSHAPE (R24). -/
def shapeCols (v : Word) : Nat := (fld v 8 8).toNat + 1

/-- The writable bits of FPC (R24). -/
def fpcMask : Word := 0xFFCF
/-- The writable bits of VSHAPE (R24). -/
def vshapeMask : Word := 0xFF3F
/-- The writable bits of VSTAT (R24). -/
def vstatMask : Word := 0x7F
/-- The writable bits of AMAX (R24). -/
def amaxMask : Word := 0x1FFFFFFFF

end Sys2Proof.Machine
end

