-- ==== Sys2Proof/Machine/Operands.lean ====
section
/-! DEFINITION. Operand forms: Src and Dst over registers, queues and ports (R17 to R21), the issue rule of R20, and
how words written to a port become commands (R89, R208). -/

namespace Sys2Proof.Machine

/-! ## Local addresses (R27) -/

/-- Is the value a local address (R73)? -/
def isLocal (a : Word) : Bool := fld a 36 28 == 0
/-- WIN. -/
def locWin (a : Word) : Nat := (fld a 32 4).toNat
/-- TILE. -/
def locTile (a : Word) : Nat := (fld a 28 4).toNat
/-- OFF. -/
def locOff (a : Word) : Nat := (fld a 0 22).toNat
/-- The zero fields of the layout are zero. -/
def locForm (a : Word) : Bool := fld a 36 28 == 0 && fld a 22 6 == 0

/-- The bytes of the scratchpad under an L1SZ code (R26). -/
def spadSize (l1sz : BitVec 2) : Nat := 4 * 2 ^ 20 - 2 ^ (18 + l1sz.toNat)

/-- The site of tile index `i` in the cluster of `site`. -/
def clusterSite (site i : Nat) : Nat := 16 * siteCluster site + i

/-- `n` bytes from `a` lie in the scratchpad of tile `i`, which has `top` bytes (windows ignored, R205). -/
def ownRange (i top : Nat) (a : Word) (n : Nat) : Bool :=
  n == 0 || (locForm a && locTile a == i && decide (locOff a + n ≤ top))

/-! ## Command headers (R89, R91) -/

/-- OPC. -/
def hdrOpc (h : Word) : Nat := (fld h 56 8).toNat
/-- CHAN. -/
def hdrChan (h : Word) : Nat := (fld h 50 6).toNat
/-- CNT. -/
def hdrCnt (h : Word) : Nat := (fld h 46 4).toNat
/-- FPCF. -/
def hdrFpcf (h : Word) : Bool := h.getLsbD 43
/-- FOLLOW. -/
def hdrFollow (h : Word) : Bool := h.getLsbD 42
/-- HURD. -/
def hdrHurd (h : Word) : Bool := h.getLsbD 41
/-- REPLY. -/
def hdrReply (h : Word) : Bool := h.getLsbD 40
/-- DEST. -/
def hdrDest (h : Word) : BitVec 16 := fld h 24 16
/-- RNAME. -/
def hdrRname (h : Word) : BitVec 16 := fld h 8 16
/-- TAG. -/
def hdrTag (h : Word) : BitVec 8 := fld h 0 8

/-- The header of a command. -/
def Cmd.hdr (c : Cmd) : Word := wordAt c.words 0
/-- Word `k` of a command. -/
def Cmd.word (c : Cmd) (k : Nat) : Word := wordAt c.words k
/-- The Hurdle word, which comes last (R90). -/
def Cmd.hurdWord (c : Cmd) : Word := c.word (hdrCnt c.hdr)

/-- The modes of a command that computes (R90). -/
def Cmd.modes (c : Cmd) : Modes := if hdrFpcf c.hdr then modesOf c.cap else Modes.ne

/-- In domains 1 to 255, does the command run at once (R208)? `i` is the writing tile's index, `top` the bytes of its
scratchpad, `name` its name. -/
def Cmd.runsAtOnce (c : Cmd) (i top : Nat) (name : BitVec 16) : Bool :=
  let own (a : Word) (n : Nat) := ownRange i top a n
  let w := c.word
  let dstOwn : Bool :=
    match hdrOpc c.hdr with
    | 0x01 => own (w 2) (fld (w 3) 0 32).toNat
    | 0x02 => (List.range (fld (w 3) 32 32).toNat).all
        (fun r => own (w 2 + BitVec.ofNat 64 r * w 5) (fld (w 3) 0 32).toNat)
    | 0x03 => own (w 1) (fld (w 3) 0 32).toNat
    | 0x04 => own (w 2) (fld (w 3) 0 32).toNat
    | 0x10 => own (w 2) ((fld (w 4) 32 32).toNat * (fld (w 4) 0 32).toNat)
    | 0x11 => false
    | 0x12 => false
    | _ => true
  c.port != 6 && dstOwn && (!hdrHurd c.hdr || fld c.hurdWord 24 16 == name)

/-! ## Registers, queues and ports -/

/-- The port number (0, 2, 4, 6) of an outbound port's place in `out`. -/
def portOf (k : Nat) : Nat := 2 * k

/-- The place of an engine port specifier: e0 to e7 are 56 to 63. -/
def portIdx (f : Spec) : Nat := (f.toNat - 56) / 2

/-- The words of one of the task's ports that are in use (R89): the partly written command, and the complete ones
that have not started. -/
def portUsed (t : Tile) (slot : Nat) (c : Ctx) (k : Nat) : Nat :=
  (vget [] c.out k).length +
    (t.cmds.filter (fun m => !m.running && !m.finished && !m.remote && m.port == portOf k && m.slot == some slot &&
      m.run == c.run)).foldl (fun n m => n + m.words.length) 0

/-- The general register of a stream, register 0 reading zero (R17). -/
def Ctx.reg (c : Ctx) (st : Stream) (f : Spec) : Word :=
  if f = 0 then 0 else match st with
    | .A => vget 0 c.x f.toNat
    | .C => vget 0 c.s f.toNat

/-- Write a general register; writes to register 0 are discarded (R17). -/
def Ctx.setReg (c : Ctx) (st : Stream) (f : Spec) (v : Word) : Ctx :=
  if f = 0 then c else match st with
    | .A => { c with x := vput c.x f.toNat v }
    | .C => { c with s := vput c.s f.toNat v }

/-- The A-stream pops an entry of q4 to q7: what the C-stream did before pushing it comes first (R310). -/
def Ctx.popMark (c : Ctx) (f : Spec) : Ctx :=
  if f.toNat < 52 then c
  else
    let l := vget [] c.qMark (f.toNat - 52)
    { c with qMark := vput c.qMark (f.toNat - 52) l.tail, popped := Nat.max c.popped (l.headD 0) }

/-- The C-stream pushes an entry of q4 to q7. -/
def Ctx.pushMark (c : Ctx) (f : Spec) (mark : Nat) : Ctx :=
  if f.toNat < 52 then c
  else { c with qMark := vput c.qMark (f.toNat - 52) (vget [] c.qMark (f.toNat - 52) ++ [mark]) }

/-- Src: read a register, or pop the oldest entry of a queue or port (R17, R20). -/
def Ctx.src (c : Ctx) (st : Stream) (f : Spec) : Try (Word × Ctx) :=
  if f.toNat < 48 then .ok (c.reg st f, c)
  else if specExists .tile st f then
    if canRead st f then
      if f.toNat < 56 then
        match vget [] c.q (f.toNat - 48) with
        | v :: r => .ok (v, ({ c with q := vput c.q (f.toNat - 48) r } : Ctx).popMark f)
        | [] => .error (.wait .queue)
      else
        match vget [] c.inp (portIdx f) with
        | v :: r => .ok (v, { c with inp := vput c.inp (portIdx f) r })
        | [] => .error (.wait .queue)
    else trapWith .illop
  else trapWith .illstrm

/-- The storage unit behind a scalar specifier. -/
def srcUnit (st : Stream) (f : Spec) : RegUnit := if f.toNat < 48 then .reg st f.toNat else .queue f.toNat

/-- Src of the agent whose turn it is. -/
def State.src (s : State) (st : Stream) (f : Spec) : Try (Word × State) :=
  match s.turn with
  | .croft n => if f.toNat < 48 then .ok (if f = 0 then 0 else vget 0 (s.croft n).x f.toNat, s) else trapWith .illstrm
  | .tile site slot _ =>
    match s.ctx? site slot with
    | none => .error (.fault .noAgent)
    | some c => do
      let r ← c.src st f
      let s ← (s.setCtx site slot r.2).scrub site slot (srcUnit st f)
      .ok (r.1, s)

/-- A command is complete: it waits in its port, or is buffered (R89, R208). (DEDUCED, log 37.) -/
def State.commandDone (s : State) (site slot : Nat) (c : Ctx) (k : Nat) (words : List Word) (cap : BitVec 16)
    (pc : Word) : Try State :=
  let t := s.tile site
  let cmd : Cmd := { words := words, cap := cap, port := portOf k, seq := t.seq, slot := some slot, task := c.task.id, run := c.run,
                     msg := c.task.msg, pc := pc, from_ := site }
  let c := { c with out := vput c.out k [] }
  if c.task.msg.dom != 0 && !cmd.runsAtOnce (siteIdx site) (spadSize t.l1sz) (s.nameOf site) then
    if hdrReply cmd.hdr then trapWith .illdom
    else .ok (s.setCtx site slot { c with buf := c.buf ++ [.send cmd pc] })
  else
    .ok (s.setTile site { (t.setCtx slot (some c)) with cmds := t.cmds ++ [cmd], seq := t.seq + 1 })

/-- Write one word into an outbound port: a header captures FPC (R25, R89), the last word completes the command. -/
def State.portWrite (s : State) (site slot : Nat) (st : Stream) (k : Nat) (v : Word) : Try State :=
  match s.ctx? site slot with
  | none => .error (.fault .noAgent)
  | some c =>
    let old := vget [] c.out k
    let cap := if old.isEmpty then c.fpc.setWidth 16 else vget 0 c.cap k
    let words := old ++ [v]
    if words.length = hdrCnt (wordAt words 0) + 1 then s.commandDone site slot c k words cap (c.pcOf st)
    else .ok (s.setCtx site slot { c with out := vput c.out k words, cap := vput c.cap k cap })

/-- Dst: write a register, or push to a queue or port (R17, R20). -/
def State.dst (s : State) (st : Stream) (f : Spec) (v : Word) : Try State :=
  match s.turn with
  | .croft n =>
    if f.toNat < 48 then
      .ok (if f = 0 then s else s.modCroft n (fun c => { c with x := vput c.x f.toNat v }))
    else trapWith .illstrm
  | .tile site slot _ =>
    match s.ctx? site slot with
    | none => .error (.fault .noAgent)
    | some c =>
      if f.toNat < 48 then .ok (s.setCtx site slot ((c.setReg st f v).unmark (srcUnit st f)))
      else if specExists .tile st f then
        if canWrite st f then
          if f.toNat < 56 then
            .ok (s.setCtx site slot
              (({ c with q := vput c.q (f.toNat - 48) (vget [] c.q (f.toNat - 48) ++ [v]) } : Ctx).pushMark f (s.tile site).seq))
          else s.portWrite site slot st (portIdx f) v
        else trapWith .illop
      else trapWith .illstrm

/-! ## The issue rule (R20) -/

/-- How often a specifier is named. -/
def occurs (f : Spec) (l : List Spec) : Nat := (l.filter (· == f)).length

/-- The entries a readable queue or port holds. -/
def Ctx.holds (c : Ctx) (f : Spec) : Nat :=
  if f.toNat < 56 then (vget [] c.q (f.toNat - 48)).length else (vget [] c.inp (portIdx f)).length

/-- The room of a writable queue or port. -/
def queueRoom (t : Tile) (slot : Nat) (c : Ctx) (f : Spec) : Nat :=
  if f.toNat < 56 then 16 - (vget [] c.q (f.toNat - 48)).length else 16 - portUsed t slot c (portIdx f)

/-- Every queue and port holds what the instruction pops and has room for what it pushes (R20). (DESIGN CHOICE, log 102.) -/
def readyFor (t : Tile) (slot : Nat) (c : Ctx) (u : Uses) : Bool :=
  u.src.all (fun f => decide (f.toNat < 48) || decide (occurs f u.src ≤ c.holds f)) &&
  u.dst.all (fun f => decide (f.toNat < 48) || decide (occurs f u.dst ≤ queueRoom t slot c f)) &&
  u.vsrc.all (fun v => decide (v.toNat < 28) ||
    decide ((u.vsrc.filter (· == v)).length ≤ (vget [] c.vq (v.toNat - 28)).length)) &&
  u.vdst.all (fun v => decide (v.toNat < 28) || decide ((vget [] c.vq (v.toNat - 28)).length < 4))

/-- Does the word's class or bank exist on this tile (step 6 of R75, R13)? -/
def classOk (c : TileClass) (i : Instr) : Bool :=
  let bank (k : BitVec 3) := decide (k.toNat < c.banks)
  match i with
  | .mma k _ _ _ => c == .dt && bank k
  | .mmaZ k _ _ _ => c == .dt && bank k
  | .mmaT k _ _ _ => c == .dt && bank k
  | .mmaTz k _ _ _ => c == .dt && bank k
  | .mzero k => bank k
  | .mrd k _ _ => bank k
  | .mwr k _ _ => bank k
  | .mscl k _ _ _ => bank k
  | .smma k _ _ _ => c == .st && bank k
  | .smmaZ k _ _ _ => c == .st && bank k
  | .smmaB k _ _ _ => c == .st && bank k
  | .attnQk k _ _ _ => c == .at && bank k
  | .attnSm k _ => c == .at && bank k
  | .attnPv k _ _ => c == .at && bank k
  | .attnFin k _ => c == .at && bank k
  | .attnStep k _ _ _ => c == .at && bank k
  | _ => true

/-- What every word meets before its own meaning: its agent has the instruction (R75 step 6, R76, R392), and the queues
and ports it names are ready (R20). -/
def State.issue (s : State) (i : Instr) : Try Unit :=
  match s.turn with
  | .croft _ => need (i.coreOk .croft) .illop
  | .tile site slot _ =>
    match s.ctx? site slot with
    | none => .error (.fault .noAgent)
    | some c => do
      need (i.coreOk .tile) .illop
      need (classOk (siteClass site) i) .illclass
      await (readyFor (s.tile site) slot c i.uses) .queue

/-- The meaning of a word: issue, its own effect, and the next word of its stream. -/
def word (i : Instr) (s : State) (body : State → Try State) : Out :=
  conclude s i (do
    s.issue i
    let t ← body s
    .ok (t.retire i.stream))

/-- The meaning of a word that says itself where its stream goes on. -/
def wordTo (i : Instr) (s : State) (body : State → Try State) : Out :=
  conclude s i (do
    s.issue i
    body s)

end Sys2Proof.Machine
end

