-- ==== Sys2Proof/Machine/Home.lean ====
section
/-! DEFINITION. Home slices and physical memory: the hash of R283, lines in L2 and HBM, unbacked reservations (R288
to R290), errors and poison of lines (R385, R386). The L2 list holds the backed lines that differ from HBM and all
unbacked lines; a backed line that is not listed reads its HBM bytes, so a clean copy needs no entry (log 12). -/

namespace Sys2Proof.Machine

/-- The bits set in a number below `n`, rising. -/
def bitList {n : Nat} (v : BitVec n) : List Nat := (List.range n).filter (fun i => v.getLsbD i)

/-- The fields with a live slice (R283). -/
def State.liveFields (s : State) : List Nat := (List.range Config.fields).filter (fun f => (s.field f).live != 0)

/-- The 32-bit fold H of a 45-bit input (R283). -/
def foldHash (v : Nat) : Nat := Nat.xor (v % 2 ^ 32) (v / 2 ^ 32 % 2 ^ 13)

/-- The hash input of a line (R283). -/
def LineKey.hash : LineKey → Nat
  | .pa n => foldHash (n % 2 ^ 45)
  | .unb asid line => foldHash (Nat.xor (line % 2 ^ 45) (asid % 2 ^ 12))

/-- SpreadField (R283). -/
def State.spreadField (s : State) (h : Nat) : Nat :=
  let l := s.liveFields
  (l[Nat.xor (h / 2 ^ 16 % 2 ^ 16) (h % 2 ^ 16) % l.length]?).getD 0

/-- The home field of a line whose PTE names `home` (R283). -/
def State.homeField (s : State) (home : Nat) (k : LineKey) : Nat := if home = 127 then s.spreadField k.hash else home

/-- The home slice within its field, numbered among all 16 (R283). -/
def State.homeSlice (s : State) (f : Nat) (k : LineKey) : Nat :=
  let l := bitList (s.field f).live
  (l[k.hash % l.length]?).getD 0

/-- The set within the slice (R283). -/
def State.homeSet (s : State) (f : Nat) (k : LineKey) : Nat :=
  k.hash / (bitList (s.field f).live).length % 8192

/-- UNB, PFN and HOME of a page-table entry (R367). -/
def pteUnb (e : Word) : Bool := e.getLsbD 63
def ptePfn (e : Word) : Nat := (fld e 12 40).toNat
def pteHome (e : Word) : Nat := (fld e 52 7).toNat

/-- Does a page's frame hold the line? -/
def TlbEntry.frameHas (e : TlbEntry) : LineKey → Bool
  | .pa n => !pteUnb e.pte && decide (64 * ptePfn e.pte ≤ n) && decide (n < 64 * (ptePfn e.pte + e.span))
  | .unb _ _ => false

/-- The home field of a backed line, from the page by which a walk found it; one that no walk found is spread (R283), as the
lines of the tables are. (DESIGN CHOICE, log 12.) -/
def State.lineField (s : State) (k : LineKey) : Nat :=
  match s.leaves.find? (·.frameHas k) with
  | some e => s.homeField (pteHome e.pte) k
  | none => s.spreadField k.hash

/-- A line of L2. -/
def State.l2find (s : State) (k : LineKey) : Option L2Line := s.l2.find? (·.key == k)

/-- Does HBM hold the line (R295)? An unbacked line has no address. -/
def LineKey.exists : LineKey → Bool
  | .pa n => decide (64 * n < Config.hbmBytes)
  | .unb _ _ => true

/-- Is the line an unbacked line? -/
def LineKey.isUnb : LineKey → Bool
  | .pa _ => false
  | .unb _ _ => true

/-- The HBM bytes of a physical line. Beyond HBM the spec states none: they are free (DESIGN CHOICE, log 100). -/
def State.hbmLine (s : State) (n : Nat) : Line :=
  if (LineKey.pa n).exists then BitVec.ofNat 512 (leNat (s.mem.readN (64 * n) 64)) else Config.freeLine s.draws n

/-- Does the stack of a physical line work (R402)? -/
def State.stackOk (s : State) (n : Nat) : Bool := !(sget ({} : Rim) (64 * n / (48 * 2 ^ 30)) s.rims).failed

/-- The bytes a line holds at its home slice. -/
def State.lineAt (s : State) (k : LineKey) : Line :=
  match s.l2find k with
  | some l => l.data
  | none => match k with
    | .pa n => s.hbmLine n
    | .unb _ _ => 0

/-- Does the line read as poisoned (R386, R402)? -/
def State.poisoned (s : State) (k : LineKey) : Bool :=
  s.poison.contains k || match k with
    | .pa n => !s.stackOk n
    | .unb _ _ => false

/-- Is the HBM copy of a line poisoned (R386, R402)? Under a copy that L2 holds its mark is one of its own. -/
def State.hbmPoisoned (s : State) (n : Nat) : Bool :=
  !s.stackOk n || (if (s.l2find (.pa n)).isSome then s.hbmPoison.contains n else s.poison.contains (.pa n))

/-- A read of a line meets its bit errors first (R385): a single-bit error is corrected, a double-bit error of a clean
backed line is repaired from HBM, any other poisons the line. `launch` is on whose behalf. -/
def State.lineErrors (s : State) (k : LineKey) (launch : Option Nat) : State :=
  let corrected (s : State) : State := match launch with
    | some l => s.modLaunch l (fun x => { x with corrected := true })
    | none => s
  let tainted (s : State) : State := match launch with
    | some l => s.taint l
    | none => s
  if s.bad.contains k then
    let s' := { s with bad := s.bad.filter (· != k), weak := s.weak.filter (· != k) }
    if (s.l2find k).isSome then tainted { s' with poison := k :: s'.poison } else corrected s'
  else if s.weak.contains k then corrected { s with weak := s.weak.filter (· != k) }
  else s

/-- Put a line into L2. -/
def State.l2put (s : State) (l : L2Line) : State :=
  { s with l2 := if s.l2.any (·.key == l.key) then s.l2.map (fun x => if x.key == l.key then l else x)
                 else s.l2 ++ [l] }

/-- A line's mark in HBM when L2 takes a copy of it: the copy's own mark changes with the copy. -/
def State.underMark (s : State) (k : LineKey) : State :=
  match k with
  | .pa n => if (s.l2find k).isNone && s.poison.contains k then { s with hbmPoison := n :: s.hbmPoison } else s
  | .unb _ _ => s

/-- Mark a line as poisoned. -/
def State.poisonLine (s : State) (k : LineKey) : State :=
  if s.poison.contains k then s else { s with poison := k :: s.poison }

/-- Count `n` events of a rim controller (R407). -/
def State.countRim (s : State) (stack ev : Nat) (n : Nat := 1) : State :=
  let r := sget ({} : Rim) stack s.rims
  if r.cntEn = 0 then s
  else
    let c := countOn ev n r.cntEn r.cntOvf r.cntSel r.cnt
    { s with rims := sset stack { r with cntOvf := c.1, cnt := c.2 } s.rims }

/-- A draw for bytes beyond HBM, if the line lies there. -/
def State.beyond (s : State) (k : LineKey) : State := if k.exists then s else { s with draws := s.draws + 1 }

/-- Write a dirty backed line to HBM, on behalf of a launch if there is one; its L2 copy is then as HBM and needs no entry.
Its errors are met by this read (R385), and a failed stack drops the write (R402). (DESIGN CHOICE, log 12.) -/
def State.toHbm (s : State) (k : LineKey) (launch : Option Nat := none) : State :=
  match k with
  | .unb _ _ => s
  | .pa n =>
    match s.l2find k with
    | none => s
    | some l =>
      let s := (s.lineErrors k launch).countRim (64 * n / (48 * 2 ^ 30)) 1
      { s with l2 := s.l2.filter (·.key != k), hbmPoison := s.hbmPoison.filter (· != n),
               mem := if s.stackOk n then s.mem.writeN (64 * n) (lineBytes l.data 0 64) else s.mem }

/-- The ways of a set (R7, R283). -/
def l2Ways : Nat := 16

/-- Room in a line's set for one more line: when 16 others are there, a backed one leaves for HBM, which is a choice (log 2).
Clean backed lines need no entry and no room (log 12); an unbacked line never leaves (R290), and at most 12 lie in a set
(R289). -/
def State.makeRoom (s : State) (f : Nat) (k : LineKey) : State :=
  let set := s.l2.filter (fun l => l.field == f && l.slice == s.homeSlice f k && s.homeSet f l.key == s.homeSet f k)
  if (s.l2find k).isSome || decide (set.length < l2Ways) then s
  else
    let backed := set.filter (fun l => !l.key.isUnb)
    let c := s.choose backed.length
    match backed[c.1]? with
    | some l => c.2.toHbm l.key
    | none => s

/-- Write bytes of a line at its home slice: byte `o + k` of the line becomes byte `k` of the list. A write of all 64
bytes clears poison and errors (R386). A line that was clean takes a way of its set (R7). Beyond HBM nothing keeps the bytes (DESIGN CHOICE, log 100). -/
def State.lineWrite (s : State) (k : LineKey) (o : Nat) (bs : List Byte) : State :=
  if !k.exists then s else
  let s := s.makeRoom (s.lineField k) k
  let old := (s.l2find k).getD
    { key := k, data := s.lineAt k, field := s.lineField k, slice := s.homeSlice (s.lineField k) k }
  let s := (s.underMark k).l2put { old with data := linePut old.data o bs, dirty := true }
  if bs.length = 64 then
    { s with poison := s.poison.filter (· != k), bad := s.bad.filter (· != k), weak := s.weak.filter (· != k) }
  else s

/-- `n` bytes at a physical address, read at the home slices. -/
def State.paRead (s : State) (a n : Nat) : List Byte :=
  (List.range n).map (fun i => (lineBytes (s.lineAt (.pa ((a + i) / 64))) ((a + i) % 64) 1).headD 0)

/-- A doubleword at an aligned physical address, read at the home slice. -/
def State.paWord (s : State) (a : Nat) : Word := leWord (lineBytes (s.lineAt (.pa (a / 64))) (a % 64) 8)

/-- Write bytes at a physical address through the home slices, line by line. -/
def State.paWrite (s : State) (a : Nat) (bs : List Byte) : State :=
  (List.range ((a % 64 + bs.length + 63) / 64)).foldl (fun s i =>
    let lo := Nat.max a (64 * (a / 64 + i))
    s.lineWrite (.pa (lo / 64)) (lo % 64) ((bs.drop (lo - a)).take (64 - lo % 64))) s

/-- Perform bytes in HBM (R363, R379, R404): through the home slices and on to the stack. -/
def State.hbmWrite (s : State) (a : Nat) (bs : List Byte) : State :=
  let s := s.paWrite a bs
  let lines := (List.range (bs.length / 64 + 2)).map (fun i => a / 64 + i)
  lines.foldl (fun s n => s.toHbm (.pa n)) s

/-- The bytes of doublewords. -/
def wordsBytes (ws : List Word) : List Byte := (ws.map wordBytes).flatten

/-! ## Unbacked reservations (R288, R289) -/

/-- The reservation record of an ASID in a field. -/
def Field.reserveOf (f : Field) (asid : Nat) : Reserve := (f.reserve.find? (·.asid == asid)).getD { asid := asid }

/-- Replace the reservation record of an ASID. -/
def Field.setReserve (f : Field) (r : Reserve) : Field :=
  { f with reserve := if f.reserve.any (·.asid == r.asid) then f.reserve.map (fun x => if x.asid == r.asid then r else x)
                      else f.reserve ++ [r] }

/-- Is the line an unbacked line of this ASID? -/
def LineKey.unbOf (asid : Nat) : LineKey → Bool
  | .pa _ => false
  | .unb a _ => a == asid

/-- The unbacked lines an ASID holds in a field. -/
def State.unbLines (s : State) (f asid : Nat) : Nat := (s.l2.filter (fun l => l.key.unbOf asid && l.field == f)).length

/-- The reservation in force, in units: the standing one, raised by running launches, never below the lines held. -/
def State.units (s : State) (f asid : Nat) : Nat :=
  let r := (s.field f).reserveOf asid
  Nat.max ((r.launch.map Prod.snd).foldl Nat.max r.standing) ((s.unbLines f asid + 1023) / 1024)

/-- Can a line be placed in its home slice (R289)? -/
def State.canPlace (s : State) (f asid : Nat) (k : LineKey) : Bool :=
  let n := (bitList (s.field f).live).length
  let sl := s.homeSlice f k
  let share := s.units f asid * 65536 / (64 * n)
  let mine := (s.l2.filter (fun l => l.key.unbOf asid && l.field == f && l.slice == sl)).length
  let inSet := (s.l2.filter (fun l => l.key.isUnb && l.field == f && l.slice == sl &&
    s.homeSet f l.key == s.homeSet f k)).length
  decide (0 < n) && decide (mine < share) && decide (inSet < 12)

/-- Allocate an unbacked line, filled with zeros (R290); none when the reservation is full for it. -/
def State.placeLine (s : State) (f asid : Nat) (k : LineKey) : Option State :=
  if (s.l2find k).isSome then some s
  else if s.canPlace f asid k then
    some ((s.makeRoom f k).l2put { key := k, data := 0, field := f, slice := s.homeSlice f k })
  else none

/-! ## Tasks of an ordered domain (R261, R265) -/

/-- Signed 32-bit comparison of timestamps or TASKIDs (R253, R261). -/
def ts32lt (a b : BitVec 32) : Bool := (a - b).msb

/-- The order (TSTAMP, TASKID) (R261). -/
def taskLt (a b : BitVec 32 × BitVec 32) : Bool := ts32lt a.1 b.1 || (a.1 == b.1 && ts32lt a.2 b.2)

/-- The key of a task. -/
def Task.key (t : Task) : BitVec 32 × BitVec 32 := (t.msg.ts, t.id)

/-- Is the task of this domain of this interface? -/
def Task.inDom (vi : Nat) (dom : BitVec 8) (t : Task) : Bool := t.msg.vi == vi && t.msg.dom == dom

/-- The resident contexts of a tile. -/
def Tile.resident (t : Tile) : List Ctx := t.ctxs.toList.filterMap id

/-- Every uncommitted task of the machine, in any state of R262. -/
def State.allTasks (s : State) : List Task :=
  (s.tiles.map (fun p => p.2.inbox ++ p.2.resident.map (·.task) ++ p.2.done.map (·.task))).flatten ++
  s.luTasks.map (·.task) ++
  (s.images.map (fun i => i.ctxs.map (·.task) ++ i.msgs)).flatten

/-- The least of a list under the order. -/
def leastKey (l : List (BitVec 32 × BitVec 32)) : Option (BitVec 32 × BitVec 32) :=
  l.foldl (fun m k => match m with | none => some k | some x => if taskLt k x then some k else some x) none

/-- The lowest uncommitted task of a domain (R269). -/
def State.lowest (s : State) (vi : Nat) (dom : BitVec 8) : Option (BitVec 32 × BitVec 32) :=
  leastKey ((s.allTasks.filter (Task.inDom vi dom)).map Task.key)

/-- Abort a task of an ordered domain wherever it is: resident (it is re-queued), or finished (R267, R272). -/
def State.abortTask (s : State) (vi : Nat) (dom : BitVec 8) (id : BitVec 32) : State :=
  let hit (c : Ctx) : Bool := c.task.msg.vi == vi && c.task.msg.dom == dom && c.task.id == id
  s.tiles.foldl (fun s p =>
    let s := match lfind (fun c => match c with | some c => hit c | none => false) p.2.ctxs.toList with
      | some slot => (s.abortPlain p.1 slot).modTile p.1 (·.count 11 1)
      | none => s
    match p.2.done.find? hit with
    | some c =>
      let s := (s.takeBack p.1 c).modTile p.1 (fun t =>
        { ((t.count 10 1).count 11 1) with done := t.done.filter (!hit ·) })
      let s := s.modLaunch c.task.msg.launch (fun l => { l with aborts := l.aborts + 1 })
      s.requeue p.1 c.task
    | none => s) s

/-- Register a task as a reader of a line (R123, R268). -/
def State.register (s : State) (site slot : Nat) (c : Ctx) (k : LineKey) : Try State :=
  let vi := c.task.msg.vi
  let dom := c.task.msg.dom
  if dom = 0 then .ok s
  else
    let me := (vi, dom, c.task.id)
    let old := ((s.readers.find? (·.1 == k)).map Prod.snd).getD []
    if old.contains me then .ok s
    else
      let put (s : State) (l : List (Nat × BitVec 8 × BitVec 32)) : State :=
        { s with readers := (s.readers.filter (·.1 != k)) ++ [(k, l)] }
      if old.length < 4 then .ok (put s (old ++ [me]))
      else if s.lowest vi dom != some c.task.key then .error (.goto (s.abortPlain site slot))
      else
        let isLow (r : Nat × BitVec 8 × BitVec 32) : Bool :=
          ((s.lowest r.1 r.2.1).map Prod.snd) == some r.2.2
        match (old.reverse.filter (!isLow ·)).head? with
        | some v =>
          let s := s.abortTask v.1 v.2.1 v.2.2
          .ok (put s ((old.filter (· != v)) ++ [me]))
        | none => .error (.wait .queue)

end Sys2Proof.Machine
end

