-- ==== Sys2Proof/Machine/Trans.lean ====
section
/-! DEFINITION. Translation (R367 to R373): page-table entries, the walk, TLBs, A and D, and unbacked pages at first
touch, with their conversion (R290 to R292). -/

namespace Sys2Proof.Machine

/-! ## Page-table entries (R367) -/

def pteV (e : Word) : Bool := e.getLsbD 0
def pteR (e : Word) : Bool := e.getLsbD 1
def pteW (e : Word) : Bool := e.getLsbD 2
def pteX (e : Word) : Bool := e.getLsbD 3
def pteAttr (e : Word) : Nat := (fld e 4 2).toNat
def pteA (e : Word) : Bool := e.getLsbD 6
def pteD (e : Word) : Bool := e.getLsbD 7
def pteSize (e : Word) : Nat := (fld e 59 3).toNat
def pteLate (e : Word) : Bool := e.getLsbD 62

/-- A leaf has one of R, W and X (R368). -/
def pteLeaf (e : Word) : Bool := pteR e || pteW e || pteX e

/-- The 4 KiB pages of a size code (R367). -/
def sizePages (c : Nat) : Nat :=
  match c with
  | 0 => 1
  | 1 => 16
  | 2 => 512
  | 3 => 8192
  | _ => 262144

/-- The level at which a size code is allowed (R368). -/
def sizeLevel (c : Nat) : Nat :=
  match c with
  | 0 => 0
  | 1 => 0
  | 2 => 1
  | 3 => 1
  | _ => 2

/-- A well-formed pointer entry: V and PFN, all else zero (R368). -/
def ptePointer (e : Word) : Bool := e &&& ~~~0x000FFFFFFFFFF001#64 == 0

/-- Is an entry with V = 1 malformed (R369)? With UNB = 1 PFN is ignored, so its low bits are not checked (DEDUCED,
log 13). -/
def pteMalformed (level : Nat) (e : Word) : Bool :=
  fld e 8 4 != 0 || decide (5 ≤ pteSize e) ||
  (if pteLeaf e then
     (pteW e && !pteR e) || (pteLate e && !pteUnb e) || (pteUnb e && pteSize e == 4) ||
     (!pteUnb e && ptePfn e % sizePages (pteSize e) != 0)
   else !ptePointer e || level == 0)

/-- What an access needs of a page (R369). -/
inductive Need where
  | fetch
  | load
  | store
  | atomic
  /-- W without a write (R135 `disc`, R136 `pmig`). -/
  | own
deriving DecidableEq, Repr

/-- Is the permission there? -/
def Need.ok (n : Need) (e : Word) : Bool :=
  match n with
  | .fetch => pteX e
  | .load => pteR e
  | .store => pteW e
  | .atomic => pteR e && pteW e
  | .own => pteW e

/-- Does the access write, and so set D (R371)? -/
def Need.writes : Need → Bool
  | .fetch => false
  | .load => false
  | .store => true
  | .atomic => true
  | .own => false

/-- A translated page. -/
abbrev Leaf := TlbEntry

/-- Whose translation: the cluster whose TLB is used, if any, the interface, the ASID, and the level-4 table of a Croft
core at level D (R392). -/
structure Space where
  cluster : Option Nat
  vi      : Nat
  asid    : Nat
  root    : Option Nat := none
  launch  : Option Nat := none
  /-- The state in which a commit's checks began: a conversion that they need takes place there (R291). -/
  base    : Option State := none
deriving DecidableEq, Repr

/-- The index into the table of a level (R368). -/
def vaIndex (va : Word) (level : Nat) : Nat := va.toNat / 2 ^ (12 + 9 * level) % 512

/-- The VA bits above the table of a level. -/
def vaAbove (va : Word) (level : Nat) : Nat := va.toNat / 2 ^ (12 + 9 * (level + 1))

/-- The walk from the table of level `n` down (R368, R369 step 2): the leaf, where it lies, and the pointers passed. -/
def walkFrom (read : Nat → Word) (va : Word) : Nat → Nat → List (Nat × Nat) → Try (Word × Nat × List (Nat × Nat))
  | n, table, seen =>
    let at_ := table + 8 * vaIndex va n
    let e := read at_
    if pteV e = false then trapWith .pagenp (BitVec.ofNat 64 n) va
    else if pteMalformed n e then trapWith .prot 4 va
    else if pteLeaf e then
      if sizeLevel (pteSize e) = n then .ok (e, at_, seen) else trapWith .prot 3 va
    else match n with
      | 0 => trapWith .prot 4 va
      | m + 1 => walkFrom read va m (4096 * ptePfn e) ((m, 4096 * ptePfn e) :: seen)

/-- The addresses of the entries that a walk reads. -/
def walkReads (read : Nat → Word) (va : Word) : Nat → Nat → List Nat
  | 0, table => [table + 8 * vaIndex va 0]
  | n + 1, table =>
    let at_ := table + 8 * vaIndex va (n + 1)
    if pteV (read at_) && ptePointer (read at_) then at_ :: walkReads read va n (4096 * ptePfn (read at_)) else [at_]

/-- The first of 16 entries that differs from the first one but in A and D (R370). -/
def groupSplit (read : Nat → Word) (first : Nat) : Option Nat :=
  let m : Word := ~~~0xC0#64
  (List.range 16).find? (fun i => (read (first + 8 * i)) &&& m != (read first) &&& m)

/-- The deepest cached pointer on the VA's path (R373). -/
def Cluster.walkStart (c : Cluster) (vi asid : Nat) (va : Word) : Option (Nat × Nat) :=
  let hits := c.walks.filter (fun w => w.vi == vi && w.asid == asid && w.pre == vaAbove va w.level)
  hits.foldl (fun m w => match m with
    | none => some (w.level, w.table)
    | some (l, t) => if w.level < l then some (w.level, w.table) else some (l, t)) none

/-- The TLB entry that covers a VA (R373). -/
def Cluster.tlbFind (c : Cluster) (vi asid : Nat) (va : Word) : Option TlbEntry := c.tlb.find? (·.covers vi asid va)

/-- Where the root entry of an address space lies (R368). -/
def State.rootAt (s : State) (sp : Space) : Nat :=
  ((s.vi sp.vi).roottab.toNat / 4096) * 4096 + 8 * (sp.asid - (s.vi sp.vi).asid0.toNat)

/-- Root entry of an address space and the level-4 table it names (R368). -/
def State.rootOf (s : State) (sp : Space) (va : Word) : Try Nat :=
  match sp.root with
  | some t => .ok t
  | none =>
    let at_ := s.rootAt sp
    let e := s.paWord at_
    if s.poisoned (.pa (at_ / 64)) then trapWith .poison 0 va
    else if pteV e = false then trapWith .pagenp 5 va
    else if ptePointer e then .ok (4096 * ptePfn e) else trapWith .prot 4 va

/-- The walk of one access: the leaf with its page, and the pointers to cache. It meets poison as any read does (R386). -/
def State.walk (s : State) (sp : Space) (va : Word) : Try (Leaf × List (Nat × Nat)) := do
  let cached := match sp.cluster with
    | some c => (s.cluster c).walkStart sp.vi sp.asid va
    | none => none
  let (level, table, seen) ← (match cached with
    | some (l, t) => .ok (l, t, [])
    | none => do
      let t ← s.rootOf sp va
      .ok (4, t, [(4, t)]) : Try (Nat × Nat × List (Nat × Nat)))
  need (!(walkReads s.paWord va level table).any (fun a => s.poisoned (.pa (a / 64)))) .poison 0 va
  let (e, at_, seen) ← walkFrom s.paWord va level table seen
  let span := sizePages (pteSize e)
  let vpage := va.toNat / 4096 / span * span
  if pteSize e = 1 ∨ pteSize e = 3 then
    let first := at_ / 128 * 128
    need (!s.poisoned (.pa (first / 64)) && !s.poisoned (.pa (first / 64 + 1))) .poison 0 va
    match groupSplit s.paWord first with
    | some i => trapWith .attrsplit (BitVec.ofNat 64 i) va
    | none => .ok ({ vi := sp.vi, asid := sp.asid, vpage := vpage, span := span, pte := s.paWord first,
                     pteAt := first }, seen)
  else
    .ok ({ vi := sp.vi, asid := sp.asid, vpage := vpage, span := span, pte := e, pteAt := at_ }, seen)

/-- The pointer from which a walk need not start at the root (R373). -/
def State.walkCached (s : State) (sp : Space) (va : Word) : Option (Nat × Nat) :=
  sp.cluster.bind (fun c => (s.cluster c).walkStart sp.vi sp.asid va)

/-- The lines of the entries that a walk reads below the root entry. -/
def State.walkLines (s : State) (sp : Space) (va : Word) : List Nat :=
  let start : Option (Nat × Nat) := match s.walkCached sp va with
    | some p => some p
    | none => match s.rootOf sp va with
      | .ok t => some (4, t)
      | .error _ => none
  match start with
  | none => []
  | some p => (walkReads s.paWord va p.1 p.2).flatMap (fun a =>
      if pteSize (s.paWord a) = 1 ∨ pteSize (s.paWord a) = 3 then [a / 128 * 2, a / 128 * 2 + 1] else [a / 64])

/-- The entries that a walk reads meet their lines' errors (R371, R385), the root entry's first. -/
def State.walkErrors (s : State) (sp : Space) (va : Word) : State :=
  let s := if (s.walkCached sp va).isSome || sp.root.isSome then s else s.lineErrors (.pa (s.rootAt sp / 64)) sp.launch
  (s.walkLines sp va).foldl (fun s n => s.lineErrors (.pa n) sp.launch) s

/-- The checks at the leaf, or at the TLB entry on a hit (R369 step 4, R284). -/
def State.leafChecks (s : State) (n : Need) (e va : Word) : Try Unit := do
  need (pteAttr e != 3) .prot 5 va
  let h := pteHome e
  need (h == 127 || (decide (h < Config.fields) && (s.field h).live != 0)) .prot 2 va
  need (n.ok e) .prot 0 va

/-- Set bits of a page-table entry at its home slice (R371). -/
def State.pteSet (s : State) (at_ : Nat) (m : Word) : State :=
  s.lineWrite (.pa (at_ / 64)) (at_ % 64) (wordBytes (s.paWord at_ ||| m))

/-- The entry with D set, in memory and in the cluster's TLB (R371). -/
def State.setDirty (s : State) (sp : Space) (l : Leaf) : Leaf × State :=
  let l' := { l with pte := l.pte ||| 0x80 }
  let s := s.pteSet l.pteAt 0x80
  (l', match sp.cluster with
    | some c => s.modCluster c (fun k => { k with tlb := k.tlb.map (fun e => if e == l then l' else e) })
    | none => s)

/-- The set of the TLB that an entry goes to; the spec gives the ways and not the index (DESIGN CHOICE, log 90). -/
def TlbEntry.set (e : TlbEntry) : Nat := e.vpage / e.span % Config.tlbSets

/-- Fill the TLB, in place of one of the 8 ways of its set when they are full, and the walk cache (R373). -/
def State.tlbFill (s : State) (sp : Space) (va : Word) (l : Leaf) (seen : List (Nat × Nat)) : State :=
  match sp.cluster with
  | none => s
  | some c =>
    let ways := ((s.cluster c).tlb.zipIdx.filter (fun p => p.1.set == l.set)).map Prod.snd
    let full := decide (Config.tlbWays ≤ ways.length)
    let (k, s) := if full then s.choose ways.length else (0, s)
    s.modCluster c (fun x =>
      { x with
        tlb := (if full then x.tlb.eraseIdx ((ways[k]?).getD 0) else x.tlb) ++ [l]
        walks := x.walks ++ seen.map (fun p => ⟨sp.vi, sp.asid, p.1, vaAbove va p.1, p.2⟩) })

/-- A walk has found a page: where its lines may be present from now on (R372). -/
def State.noteLeaf (s : State) (l : Leaf) : State :=
  let e := { l with pte := l.pte ||| 0xC0 }
  if s.leaves.contains e then s else { s with leaves := s.leaves ++ [e] }

/-- Translation of one access (R369): the VA check, the TLB or a walk, the checks at the leaf, A and D. -/
def State.translate (s : State) (sp : Space) (n : Need) (va : Word) : Try (Leaf × State) := do
  need (fld va 57 7 == 0) .prot 6 va
  let hit := match sp.cluster with
    | some c => (s.cluster c).tlbFind sp.vi sp.asid va
    | none => none
  let (l, s) ← (match hit with
    | some e => do
      s.leafChecks n e.pte va
      .ok (e, s)
    | none => do
      let s := s.walkErrors sp va
      let (l, seen) ← s.walk sp va
      s.leafChecks n l.pte va
      let s := if pteA l.pte then s else s.pteSet l.pteAt 0x40
      let l := { l with pte := l.pte ||| 0x40 }
      .ok (l, (s.noteLeaf l).tlbFill sp va l seen) : Try (Leaf × State))
  if n.writes && !pteD l.pte then .ok (s.setDirty sp l) else .ok (l, s)

/-- The physical address of a VA in a backed page. -/
def Leaf.pa (l : Leaf) (va : Word) : Nat := 4096 * ptePfn l.pte + va.toNat % (4096 * l.span)

/-- The line of a VA in a page. -/
def Leaf.key (l : Leaf) (va : Word) : LineKey :=
  if pteUnb l.pte then .unb l.asid (va.toNat / 64) else .pa (l.pa va / 64)

/-! ## First touch and conversion (R290 to R292) -/

/-- Drop a page from every cluster TLB. -/
def State.dropPage (s : State) (asid vpage span : Nat) : State :=
  { s with clusters := s.clusters.map (fun p => (p.1, { p.2 with
      tlb := p.2.tlb.filter (fun e => !(e.asid == asid && decide (e.vpage < vpage + span) &&
        decide (vpage < e.vpage + e.span))) })) }

/-- Replace the lines that a context has written (R131). -/
def Ctx.rekey (c : Ctx) (g : LineKey → LineKey) : Ctx := { c with hbmLines := c.hbmLines.map g }

/-- Replace the lines of a page everywhere they are named: L2 is left to the caller. -/
def State.rekey (s : State) (g : LineKey → LineKey) : State :=
  { s with
    readers := s.readers.map (fun p => (g p.1, p.2))
    poison := s.poison.map g
    weak := s.weak.map g
    bad := s.bad.map g
    tiles := s.tiles.map (fun p => (p.1, { p.2 with
      l1 := p.2.l1.map (fun l => { l with key := g l.key })
      ctxs := p.2.ctxs.map (fun o => o.map (·.rekey g)) }))
    images := s.images.map (fun i => { i with ctxs := i.ctxs.map (·.rekey g) })
    crofts := s.crofts.map (fun p => (p.1, { p.2 with
      cache := p.2.cache.map (fun l => { l with key := g l.key }), wrote := p.2.wrote.map g })) }

/-- The launch whose frame pool serves a conversion, and the frame (R292): first the access's own launch when it
belongs to the ASID, then the ASID's running launches in the order they started. -/
def State.findFrame (s : State) (asid size : Nat) (own : Option Nat) : Option (Nat × Word) :=
  let order := (match own with | some l => [l] | none => []) ++ s.launches.map Prod.fst
  let cand := order.filter (fun l => match s.launch? l with | some a => a.asid == asid && !a.ended | none => false)
  cand.findSome? (fun l => match s.launch? l with
    | some a => (a.frames.find? (fun e => pteSize e == size)).map (fun e => (l, e))
    | none => none)

/-- The line of the frame that a line of the page becomes. -/
def convertKey (asid vpage span pfn : Nat) : LineKey → LineKey
  | .pa n => .pa n
  | .unb a line =>
    if a = asid ∧ 64 * vpage ≤ line ∧ line < 64 * (vpage + span) then .pa (64 * pfn + (line - 64 * vpage))
    else .unb a line

/-- Convert a full unbacked page with LATE set to a frame of a launch's pool, for an access on behalf of `own` (R292). The
lines' errors are met as they are read (R385), a failed stack drops what is written (R402), and every line of the frame is
a write of its stack (R407). -/
def State.convert (s : State) (l : Leaf) (own : Option Nat) (launch : Nat) (frame : Word) : State :=
  let pfn := ptePfn frame
  let g := convertKey l.asid l.vpage l.span pfn
  let mine := s.l2.filter (fun x => g x.key != x.key)
  let s := mine.foldl (fun s x => s.lineErrors x.key own) s
  let s := s.countRim (4096 * pfn / (48 * 2 ^ 30)) 1 (64 * l.span)
  let base := 4096 * pfn
  let clean := s.mem.filter (fun c => c.1 < base || base + 4096 * l.span ≤ c.1)
  let mem := mine.foldl (fun m x => match g x.key with
    | .pa n => Memory.writeN m (64 * n) (lineBytes x.data 0 64)
    | .unb _ _ => m) clean
  let inFrame (k : LineKey) : Bool := match k with
    | .pa n => decide (64 * pfn ≤ n) && decide (n < 64 * (pfn + l.span))
    | .unb _ _ => false
  let s := { s with
    mem := if s.stackOk (64 * pfn) then mem else s.mem
    l2 := s.l2.filter (fun x => g x.key == x.key && !inFrame x.key)
    poison := s.poison.filter (!inFrame ·)
    hbmPoison := s.hbmPoison.filter (fun n => !inFrame (.pa n))
    bad := s.bad.filter (!inFrame ·)
    weak := s.weak.filter (!inFrame ·) }
  let s := s.rekey g
  let keep : Word := ~~~0xC00FFFFFFFFFF000#64
  let entries := if pteSize l.pte = 1 ∨ pteSize l.pte = 3 then 16 else 1
  let s := (List.range entries).foldl (fun s i =>
    let at_ := l.pteAt + 8 * i
    let e := (s.paWord at_ &&& keep) ||| (frame &&& 0x000FFFFFFFFFF000#64)
    s.lineWrite (.pa (at_ / 64)) (at_ % 64) (wordBytes e)) s
  let s := s.dropPage l.asid l.vpage l.span
  s.modLaunch launch (fun x => { x with frames := x.frames.erase frame })

/-- The line of a VA, present: an unbacked line is allocated at its first touch, or its page converted (R290 to R292), by a
commit before any of its effects (R291); each access beyond HBM meets bytes of its own (log 100). -/
def State.touch (s : State) (sp : Space) (l : Leaf) (va : Word) : Try (LineKey × State) :=
  let k := l.key va
  if pteUnb l.pte then
    match s.placeLine (s.homeField (pteHome l.pte) k) l.asid k with
    | some s' => .ok (k, s')
    | none =>
      if pteLate l.pte then
        match s.findFrame l.asid (pteSize l.pte) sp.launch with
        | some (launch, frame) =>
          match sp.base with
          | some b => .error (.goto (b.convert l sp.launch launch frame))
          | none => .ok (convertKey l.asid l.vpage l.span (ptePfn frame) k, s.convert l sp.launch launch frame)
        | none => trapWith .unbfull 1 va
      else trapWith .unbfull 0 va
  else .ok (k, s.beyond k)

/-- The space of a task on a tile. -/
def State.spaceOf (s : State) (site : Nat) : Space :=
  let l := (s.tile site).launch
  { cluster := some (siteCluster site), vi := ((l.bind s.launch?).map (·.vi)).getD 0, asid := s.asidOf site, launch := l }

/-- An access whose page is not present, in one place: translate, then touch the line. -/
def State.reach (s : State) (sp : Space) (n : Need) (va : Word) : Try (Leaf × LineKey × State) := do
  let (l, s) ← s.translate sp n va
  let (k, s) ← s.touch sp l va
  .ok (l, k, s)

/-- Fetch a word at a PC (R68, R369): the bytes at the home slice. -/
def State.fetch (s : State) (sp : Space) (pc : Word) : Try (IWord × State) := do
  let (_, k, s) ← s.reach sp .fetch pc
  let s := s.lineErrors k sp.launch
  if s.poisoned k then trapWith .poison 0 pc
  else .ok ((BitVec.ofNat 32 (leNat (lineBytes (s.lineAt k) (pc.toNat % 64) 4))), s)

end Sys2Proof.Machine
end

