-- ==== Sys2Proof/Machine/Local.lean ====
section
/-! DEFINITION. Scratchpads: range checks (R27), the range scoreboard (R122, R281), bytes, tags and dirty blocks
(R39, R126), bit errors and poison (R385, R386), and the address of a memory word (R73). -/

namespace Sys2Proof.Machine

/-- The swizzle of R73: EA[9:4] xor EA[swz+14 : swz+9]. -/
def swizzle (swz : BitVec 3) (ea : Word) : Word :=
  if swz = 0 then ea else ea ^^^ ((ea.extractLsb' (swz.toNat + 9) 6).setWidth 64 <<< 4)

/-- EA of a memory word (R73). -/
def effAddr (base : Word) (off : BitVec 7) (swz : BitVec 3) (size : Nat) : Word :=
  swizzle swz (base + (off.signExtend 64) * BitVec.ofNat 64 size)

/-- Is the address naturally aligned? -/
def aligned (a : Word) (n : Nat) : Bool := a.toNat % n == 0

/-- The form and range check of a local address (R27): the target site and the offset. -/
def State.localCheck (s : State) (site : Nat) (a : Word) (n : Nat) : Try (Nat × Nat) := do
  let target := clusterSite site (locTile a)
  let t := s.tile target
  need (locForm a && t.named && t.launch == (s.tile site).launch && t.launch.isSome &&
    decide (locOff a + n ≤ spadSize t.l1sz)) .localrange 0 a
  .ok (target, locOff a)

/-- Does the address name another tile's scratchpad (R123)? -/
def otherTile (site : Nat) (a : Word) : Bool := isLocal a && locTile a != siteIdx site

/-- In domains 1 to 255, a write to another tile's scratchpad raises ILLDOM (R123, R422). -/
def domCheck (c : Ctx) (site : Nat) (a : Word) : Try Unit :=
  need (c.task.msg.dom == 0 || !otherTile site a) .illdom 0 a

/-- Does the access overlap a recorded range (R122)? -/
def Tile.overlaps (t : Tile) (off n : Nat) (outboundToo : Bool) : Bool :=
  t.ranges.any (fun r => (r.inbound || outboundToo) && decide (off < r.hi) && decide (r.lo < off + n))

/-- Is an ME.MMA of the context, written to e4 before the place `mark`, still to read its operands (R310)? -/
def Tile.unread (t : Tile) (c : Ctx) (mark : Nat) : Bool :=
  t.cmds.any (fun m => m.port == 4 && !m.remote && m.run == c.run && decide (m.seq < mark) && !m.ended && !m.finished &&
    (t.array.bind (·.seq)) != some m.seq)

/-- Must the stream whose turn it is hold back a write: an A-stream that has popped what its C-stream pushed after a
command whose reads are still to come (R310)? (DEDUCED, log 39.) -/
def State.heldBack (s : State) : Bool :=
  match s.turn with
  | .tile site slot .A => match s.ctx? site slot with
    | some c => (s.tile site).unread c c.popped
    | none => false
  | _ => false

/-- Stall while the access overlaps a recorded range, or a write must stay behind earlier reads. -/
def State.scoreboard (s : State) (target off n : Nat) (write : Bool) : Try Unit :=
  await (!(s.tile target).overlaps off n write && !(write && s.heldBack)) .scoreboard

/-- The doublewords that bytes touch. -/
def dwords (off n : Nat) : List Nat := if n = 0 then [] else (List.range ((off + n - 1) / 8 - off / 8 + 1)).map (· + off / 8)

/-- A read of doublewords corrects and counts their single-bit errors (R385). -/
def State.spadScrub (s : State) (target : Nat) (ds : List Nat) (launch : Option Nat) : State :=
  let hit := ds.filter (s.tile target).weak.contains
  if hit.isEmpty then s
  else
    let s := s.modTile target (fun t => { (t.count 13 hit.length) with weak := t.weak.filter (!hit.contains ·) })
    match launch with
      | some l => s.modLaunch l (fun x => { x with corrected := true })
      | none => s

/-- A read of scratchpad bytes meets their errors (R385, R386): a single-bit error is corrected and counted, a
double-bit error raises UCE, poison raises POISON. (DEDUCED, log 41.) -/
def State.spadErrors (s : State) (target off n : Nat) (launch : Option Nat) : Try State :=
  let t := s.tile target
  if t.bad.isEmpty && t.poison.isEmpty && t.weak.isEmpty then .ok s
  else do
    let ds := dwords off n
    need (!ds.any t.bad.contains) .uce
    need (!ds.any t.poison.contains) .poison
    .ok (s.spadScrub target ds launch)

/-- A read of tags alone meets the errors of their doublewords, which carry them (R385). Poison marks data, not tags.
(DEDUCED, log 41.) -/
def State.tagErrors (s : State) (target off n : Nat) (launch : Option Nat) : Try State :=
  let t := s.tile target
  if t.bad.isEmpty && t.weak.isEmpty then .ok s
  else do
    let ds := dwords off n
    need (!ds.any t.bad.contains) .uce
    .ok (s.spadScrub target ds launch)

/-- An engine rewrites scratchpad bytes in place: what it reads is corrected, or its marks stay with what it writes and
taint the launch (R385, R386). (DEDUCED, log 41.) -/
def State.spadUpdate (s : State) (target off n : Nat) (launch : Option Nat) (f : State → State) : State :=
  let ds := dwords off n
  let hurt := ds.filter (fun d => (s.tile target).poison.contains d || (s.tile target).bad.contains d)
  let s := f (s.spadScrub target ds launch)
  if hurt.isEmpty then s
  else
    let s := s.modTile target (fun t => { t with poison := hurt.foldl (fun l d => sinsert d l) t.poison })
    (launch.map s.taint).getD s

/-- Scratchpad bytes, without checks. -/
def State.spadBytes (s : State) (target off n : Nat) : List Byte := (s.tile target).spad.readN off n

/-- Read scratchpad bytes for an instruction. -/
def State.spadRead (s : State) (target off n : Nat) (launch : Option Nat) : Try (List Byte × State) := do
  let s ← s.spadErrors target off n launch
  .ok (s.spadBytes target off n, s)

/-- The 1 KiB blocks that bytes touch. -/
def blocksOf (off n : Nat) : List Nat :=
  if n = 0 then [] else (List.range ((off + n - 1) / 1024 - off / 1024 + 1)).map (· + off / 1024)

/-- Mark blocks as written (R276). -/
def Tile.touchBlocks (t : Tile) (off n : Nat) : Tile :=
  { t with dirty := (blocksOf off n).foldl (fun d b => sinsert b d) t.dirty }

/-- Write scratchpad bytes. A write that covers a whole doubleword clears its marks (R386). -/
def Tile.spadWrite (t : Tile) (off : Nat) (bs : List Byte) : Tile :=
  let n := bs.length
  let t := { (t.touchBlocks off n) with spad := t.spad.writeN off bs }
  if t.bad.isEmpty && t.poison.isEmpty && t.weak.isEmpty then t
  else
    let whole (d : Nat) : Bool := decide (off ≤ 8 * d) && decide (8 * d + 8 ≤ off + n)
    { t with bad := t.bad.filter (!whole ·), poison := t.poison.filter (!whole ·), weak := t.weak.filter (!whole ·) }

/-- Write scratchpad bytes of a tile. -/
def State.spadWrite (s : State) (target off : Nat) (bs : List Byte) : State := s.modTile target (·.spadWrite off bs)

/-! ## Operand reads that serve several tiles (R189), and what orders a tile behind them (R125, R132, R133, R190) -/

/-- A kept read serves a tile no more. (DEDUCED, log 78.) -/
def OpRead.deny (r : OpRead) (site : Nat) : OpRead :=
  if r.served.contains site then r else { r with served := site :: r.served }

/-- Does a kept read cover one of the bytes? -/
def OpRead.meets (r : OpRead) (off n : Nat) : Bool := r.ranges.any (fun p => decide (p.1 < off + n) && decide (off < p.1 + p.2))

/-- A tile's task or engine writes scratchpad bytes: an earlier read of them that is kept does not serve that tile, whose
later reads find what it wrote (R125, R190). -/
def Tile.writeBy (t : Tile) (site off : Nat) (bs : List Byte) : Tile :=
  let t := t.spadWrite off bs
  if t.opReads.isEmpty then t
  else { t with opReads := t.opReads.map (fun r => if r.meets off bs.length then r.deny site else r) }

/-- Write scratchpad bytes for a tile. -/
def State.writeBy (s : State) (site target off : Nat) (bs : List Byte) : State := s.modTile target (·.writeBy site off bs)

/-- A tile has acquired (R132, R133, R139, R317 to R322): what it reads from here on is not what a read before this moment
found, so no kept read of its cluster serves it (R189). -/
def State.acquired (s : State) (site : Nat) : State :=
  if s.tiles.all (fun p => p.2.opReads.isEmpty) then s
  else { s with tiles := s.tiles.map (fun p => (p.1,
    if siteCluster p.1 = siteCluster site then { p.2 with opReads := p.2.opReads.map (·.deny site) } else p.2)) }

/-- Is the word full? -/
def Tile.full (t : Tile) (w : Nat) : Bool := t.tags.contains w

/-- Set a tag; a tag change dirties its block (R276). -/
def Tile.setTag (t : Tile) (w : Nat) (f : Bool) : Tile :=
  { (t.touchBlocks (4 * w) 4) with tags := if f then sinsert w t.tags else t.tags.filter (· != w) }

end Sys2Proof.Machine
end

