-- ==== Sys2Proof/Machine/Global.lean ====
section
/-! DEFINITION. Global memory as a task sees it: the tile's L1 (R120, R374), the paths of the page attributes, reader
registration and buffered stores in ordered domains (R123, R266, R270), write-back and invalidation. -/

namespace Sys2Proof.Machine

/-- Lines of an L1 (R279). -/
def l1Lines (l1sz : BitVec 2) : Nat := 4096 * 2 ^ l1sz.toNat

/-- The lines a task of an ordered domain may hold as speculative (R270). -/
def specLimit (l1sz : BitVec 2) : Nat := l1Lines l1sz / 2

/-- The L1 line of a VA. -/
def Tile.l1find (t : Tile) (asid line : Nat) : Option L1Line := t.l1.find? (fun l => l.asid == asid && l.line == line)

/-- Replace an L1 line. -/
def Tile.l1put (t : Tile) (l : L1Line) : Tile :=
  { t with l1 := if t.l1.any (fun x => x.asid == l.asid && x.line == l.line)
                 then t.l1.map (fun x => if x.asid == l.asid && x.line == l.line then l else x)
                 else t.l1 ++ [l] }

/-- The doublewords of a line that have marked bytes. -/
def dirtyDwords (mask : BitVec 64) : BitVec 8 :=
  (List.range 8).foldl (fun m d => if fld mask (8 * d) 8 != (0 : BitVec 8) then m ||| BitVec.twoPow 8 d else m) 0

/-- The read of the marked doublewords of a line corrects and counts each single-bit error (R385). -/
def State.deliverWeak (s : State) (site : Nat) (l : L1Line) : State :=
  let d := l.weak &&& dirtyDwords l.mask
  if d = 0 then s
  else
    let s := s.modTile site (·.count 13 (bitList d).length)
    ((s.tile site).launch.map (fun n => s.modLaunch n (fun x => { x with corrected := true }))).getD s

/-- The poison of delivered bytes, and what cannot be corrected, poison the line at its slice and taint the tile's launch
(R385, R386). -/
def State.deliverMarks (s : State) (site : Nat) (l : L1Line) : State :=
  let d := dirtyDwords l.mask
  let launch := (s.tile site).launch
  if (l.poison ||| l.bad) &&& d = 0 then s
  else
    let s := s.poisonLine l.key
    (launch.map s.taint).getD s

/-- Deliver the marked bytes of an L1 line to its home slice, with their errors (R120). An unbacked line that the slice no
longer holds takes no bytes. -/
def State.deliver (s : State) (site : Nat) (l : L1Line) : State :=
  if l.mask = 0 then s
  else
    let gone := l.key.isUnb && (s.l2find l.key).isNone
    let s := s.deliverWeak site l
    if gone then s
    else if l.mask = BitVec.allOnes 64 then (s.lineWrite l.key 0 (lineBytes l.data 0 64)).deliverMarks site l
    else ((bitList l.mask).foldl (fun s o => s.lineWrite l.key o (lineBytes l.data o 1)) s).deliverMarks site l

/-- A line after its write-back: clean, what the read corrected is right again. -/
def L1Line.sent (l : L1Line) : L1Line := { l with mask := 0, weak := l.weak &&& ~~~(dirtyDwords l.mask) }

/-- Write a line of a tile back; it stays, clean. -/
def State.writeBack (s : State) (site : Nat) (l : L1Line) : State := (s.deliver site l).modTile site (·.l1put l.sent)

/-- Take a line out of a tile's L1, writing it back if it is dirty. -/
def State.evictLine (s : State) (site : Nat) (l : L1Line) : State :=
  (s.deliver site l).modTile site (fun t => { t with l1 := t.l1.filter (fun x => !(x.asid == l.asid && x.line == l.line)) })

/-- Does a task of an ordered domain hold the line as speculative (R123, R270)? It stays until the task is gone. -/
def Tile.specHeld (t : Tile) (line : Nat) : Bool := (t.resident ++ t.done).any (fun c => c.specLines.contains line)

/-- Write back every dirty line of a tile's L1 (R131). -/
def State.flushL1 (s : State) (site : Nat) : State :=
  (s.tile site).l1.foldl (fun s l => if l.mask = 0 then s else s.writeBack site l) s

/-- Write back and invalidate a tile's L1 (R26, R387). -/
def State.emptyL1 (s : State) (site : Nat) : State :=
  (s.tile site).l1.foldl (fun s l => s.evictLine site l) s

/-- Invalidate the clean lines of a tile's L1 (R132); a speculative line counts as dirty (R134). -/
def State.dropClean (s : State) (site : Nat) : State :=
  s.modTile site (fun t => { t with l1 := t.l1.filter (fun l => l.mask != 0 || t.specHeld l.line) })

/-- Evict the lines of the cluster's L1s that hold the same physical line under another VA (R374). -/
def State.evictAliases (s : State) (site asid line : Nat) (k : LineKey) : State :=
  if k.isUnb then s
  else
    (List.range 16).foldl (fun s i =>
      let other := clusterSite site i
      ((s.tile other).l1.filter (fun l => l.key == k && !(l.asid == asid && l.line == line))).foldl
        (fun s l => s.evictLine other l) s) s

/-- Fill a line into a tile's L1 (R120, R374); a full L1 evicts a line first, none that is speculative (log 1). -/
def State.fillLine (s : State) (site asid line : Nat) (k : LineKey) (wr : Bool) : L1Line × State :=
  let s := s.evictAliases site asid line k
  let t := s.tile site
  let s := if l1Lines t.l1sz ≤ t.l1.length then
      let old := t.l1.filter (fun l => !t.specHeld l.line)
      let (i, s) := s.choose old.length
      match old[i]? with
      | some l => s.evictLine site l
      | none => s
    else s
  let l : L1Line := { asid := asid, line := line, key := k, data := s.lineAt k, wr := wr,
                      poison := if s.poisoned k then 0xFF else 0 }
  (l, s.modTile site (·.l1put l))

/-- The doubleword marks of a line that `n` bytes at offset `o` touch. -/
def dwordMask (o n : Nat) : BitVec 8 := (dwords o n).foldl (fun m d => m ||| BitVec.twoPow 8 d) 0

/-- A read of L1 bytes meets their errors (R385, R386). -/
def State.l1Errors (s : State) (site : Nat) (l : L1Line) (o n : Nat) (launch : Nat) : Try State := do
  if l.bad = 0 && l.poison = 0 && l.weak = 0 then .ok s
  else
    let m := dwordMask o n
    need (l.bad &&& m == 0) .uce
    need (l.poison &&& m == 0) .poison
    if l.weak &&& m = 0 then .ok s
    else
      let s := s.modTile site (fun t => (t.count 13 1).l1put { l with weak := l.weak &&& ~~~m })
      .ok (s.modLaunch launch (fun x => { x with corrected := true }))

/-- The bytes a task's own buffered stores put over memory (R123, R125). -/
def overlay (buf : List Effect) (va : Word) (bs : List Byte) : List Byte :=
  buf.foldl (fun bs e => match e with
    | .store a new _ => bs.mapIdx (fun i b =>
        let at_ := va.toNat + i
        if a.toNat ≤ at_ then (new[at_ - a.toNat]?).getD b else b)
    | _ => bs) bs

/-- Is this the first load of a line by a task of an ordered domain (R123, R267)? -/
def State.firstLoad (s : State) (c : Ctx) (k : LineKey) : Bool :=
  c.task.msg.dom != 0 &&
    !(((s.readers.find? (·.1 == k)).map Prod.snd).getD []).contains (c.task.msg.vi, c.task.msg.dom, c.task.id)

/-- Before the first load of a line by a task of an ordered domain the tile's copy goes, its marked bytes to the home slice:
the load finds what the slice holds then, so that a later commit aborts the task (R267, R271, R327). (DEDUCED, log 89.) -/
def State.freshen (s : State) (site : Nat) (c : Ctx) (line : Nat) : State :=
  match (s.tile site).l1find (s.asidOf site) line with
  | some l => if s.firstLoad c l.key then s.evictLine site l else s
  | none => s

/-- Load `n` bytes of global memory that do not cross a line (R120, R123). A miss on a write-back page evicts the line's
aliases first (R374), whose bytes may be poisoned. (DEDUCED, log 89.) -/
def State.gLoad (s : State) (site slot : Nat) (c : Ctx) (va : Word) (n : Nat) : Try (List Byte × State) := do
  let o := va.toNat % 64
  let line := va.toNat / 64
  let launch := c.task.msg.launch
  let s := s.freshen site c line
  match (s.tile site).l1find (s.asidOf site) line with
  | some l =>
    let s ← s.l1Errors site l o n launch
    let s ← s.register site slot c l.key
    .ok (overlay c.buf va (lineBytes l.data o n), s)
  | none =>
    let (leaf, k, s) ← s.reach (s.spaceOf site) .load va
    let s := if pteAttr leaf.pte = 0 then s.evictAliases site leaf.asid line k else s
    let s := s.lineErrors k (some launch)
    if s.poisoned k then trapWith .poison 0 va
    else
      let s ← s.register site slot c k
      let s := if pteAttr leaf.pte = 0 then
          (s.fillLine site leaf.asid line k (pteW leaf.pte && pteD leaf.pte)).2
        else s
      .ok (overlay c.buf va (lineBytes (s.lineAt k) o n), s)

/-- Bytes put into an L1 line, marked dirty; a store of a whole doubleword clears its marks (R386). -/
def L1Line.put (l : L1Line) (o : Nat) (bs : List Byte) : L1Line :=
  let m := (List.range bs.length).foldl (fun m i => m ||| BitVec.twoPow 64 (o + i)) l.mask
  let clear : BitVec 8 := if bs.length = 8 then ~~~(dwordMask o 8) else BitVec.allOnes 8
  { l with data := linePut l.data o bs, mask := m, poison := l.poison &&& clear, bad := l.bad &&& clear,
           weak := l.weak &&& clear }

/-- Remember a line that a tile writes, for `rel.h` of its resident tasks (R131). An unbacked one counts once its page is
converted (R292). -/
def State.noteHbm (s : State) (site : Nat) (k : LineKey) : State :=
  s.modTile site (fun t => { t with ctxs := t.ctxs.map (fun c => c.map (fun c =>
    if c.hbmLines.contains k then c else { c with hbmLines := c.hbmLines ++ [k] })) })

/-- Does the cluster's TLB give the VA's page the stream attribute (R120)? -/
def State.streamPage (s : State) (sp : Space) (va : Word) : Bool :=
  (sp.cluster.bind (fun c => (s.cluster c).tlbFind sp.vi sp.asid va)).any (fun e => pteAttr e.pte == 2)

/-- A global store of domain 0 (R120). A store that hits a line of a stream page is written back at once. -/
def State.gStore0 (s : State) (site : Nat) (va : Word) (bs : List Byte) : Try State := do
  let o := va.toNat % 64
  let line := va.toNat / 64
  let sp := s.spaceOf site
  match (s.tile site).l1find (s.asidOf site) line with
  | some l =>
    let (l, s) ← (if l.wr then .ok (l, s) else do
      let (_, s) ← s.translate sp .store va
      .ok ({ l with wr := true }, s) : Try (L1Line × State))
    let l := l.put o bs
    let s := (s.modTile site (·.l1put l)).noteHbm site l.key
    .ok (if s.streamPage sp va then s.writeBack site l else s)
  | none =>
    let (leaf, k, s) ← s.reach sp .store va
    let s := s.noteHbm site k
    if pteAttr leaf.pte = 0 then
      let (l, s) := (s.lineErrors k sp.launch).fillLine site leaf.asid line k true
      .ok (s.modTile site (·.l1put (l.put o bs)))
    else .ok (s.lineWrite k o bs)

/-- A task of an ordered domain takes one more speculative line (R270). -/
def State.specLine (s : State) (site slot line : Nat) : Try State :=
  match s.ctx? site slot with
  | none => .error (.fault .noAgent)
  | some c =>
    if c.specLines.contains line then .ok s
    else if c.specLines.length < specLimit (s.tile site).l1sz then
      .ok (s.setCtx site slot { c with specLines := c.specLines ++ [line] })
    else if s.lowest c.task.msg.vi c.task.msg.dom = some c.task.key then trapWith .illdom 3
    else
      let s := s.takeBack site c
      let s := (s.freeSlot site slot).modTile site (·.count 10 1)
      let s := s.modLaunch c.task.msg.launch (fun l => { l with aborts := l.aborts + 1 })
      .error (.goto { s with luTasks := s.luTasks ++ [⟨{ c.task with atHorizon := true }, site, .queued⟩] })

/-- Add an effect to a task's buffer. -/
def State.buffer (s : State) (site slot : Nat) (e : Effect) : State :=
  s.modCtx site slot (fun c => { c with buf := c.buf ++ [e] })

/-- A global store: performed in domain 0, buffered otherwise in an L1 line that is the task's until its commit, after the
checks made at issue (R123, R266). An unbacked line that is not allocated stays out of the L1: its commit is its first
touch (R290, R291). -/
def State.gStore (s : State) (site slot : Nat) (c : Ctx) (va : Word) (bs : List Byte) : Try State := do
  if c.task.msg.dom = 0 then s.gStore0 site va bs
  else
    let (leaf, s) ← s.translate (s.spaceOf site) .store va
    let s ← s.specLine site slot (va.toNat / 64)
    let k := leaf.key va
    let here := ((s.tile site).l1find leaf.asid (va.toNat / 64)).isSome || pteAttr leaf.pte != 0 ||
      (k.isUnb && (s.l2find k).isNone)
    let s := if here then s
      else ((s.lineErrors k (some c.task.msg.launch)).fillLine site leaf.asid (va.toNat / 64) k true).2
    .ok (s.buffer site slot (.store va bs c.pc))

/-- Write back and drop this tile's L1 copies of a line, as an atomic does (R138, R144). -/
def State.dropOwn (s : State) (site : Nat) (k : LineKey) : State :=
  ((s.tile site).l1.filter (·.key == k)).foldl (fun s l => s.evictLine site l) s

/-- The condition of `rel.h` (R131): the backed lines this tile wrote reach HBM. -/
def State.flushHbm (s : State) (site slot : Nat) : State :=
  match s.ctx? site slot with
  | none => s
  | some c => c.hbmLines.foldl (fun s k => s.toHbm k (some c.task.msg.launch)) (s.setCtx site slot { c with hbmLines := [] })

/-! ## Engine accesses: at the home slices, never through an L1 (R205) -/

/-- The bytes of [a, a + n) in pieces that do not cross a line of 64 bytes. -/
def pieces (a : Word) : Nat → Nat → List (Word × Nat)
  | 0, _ => []
  | fuel + 1, n =>
    if n = 0 then []
    else
      let k := Nat.min n (64 - a.toNat % 64)
      (a, k) :: pieces (a + BitVec.ofNat 64 k) fuel (n - k)

/-- Write bytes that the machine keeps for a launch in memory that its record names, through the home slices; a piece
whose address does not translate takes none (DESIGN CHOICE, log 57). -/
def State.areaWrite (s : State) (sp : Space) (a : Word) (bs : List Byte) : State :=
  ((pieces a bs.length bs.length).foldl (fun (acc : State × List Byte) p =>
    match acc.1.reach sp .store p.1 with
    | .ok (_, k, t) => (t.lineWrite k (p.1.toNat % 64) (acc.2.take p.2), acc.2.drop p.2)
    | .error _ => (acc.1, acc.2.drop p.2)) (s, bs)).1

/-- Poison a line of such memory. -/
def State.areaPoison (s : State) (sp : Space) (a : Word) : State :=
  match s.reach sp .store a with
  | .ok (_, k, t) => t.poisonLine k
  | .error _ => s

/-- Read one piece for an engine: bytes, and per byte its poison mark. -/
def State.engPiece (s : State) (sp : Space) (site : Nat) (a : Word) (n : Nat) : Try (List (Byte × Bool) × State) :=
  if isLocal a then do
    let (target, off) ← s.localCheck site a n
    let t := s.tile target
    let marks := t.poison ++ t.bad
    .ok ((t.spad.readN off n).mapIdx (fun i b => (b, marks.contains ((off + i) / 8))),
      s.spadScrub target (dwords off n) sp.launch)
  else do
    let (_, k, s) ← s.reach sp .load a
    let s := s.lineErrors k sp.launch
    .ok ((lineBytes (s.lineAt k) (a.toNat % 64) n).map (fun b => (b, s.poisoned k)), s)

/-- Write one piece for an engine; poisoned bytes mark their unit, whole clean units clear it (R386). -/
def State.engPut (s : State) (sp : Space) (site : Nat) (a : Word) (bs : List (Byte × Bool)) : Try State :=
  let n := bs.length
  let bytes := bs.map Prod.fst
  if isLocal a then do
    let (target, off) ← s.localCheck site a n
    let s := s.writeBy site target off bytes
    let hurt := (dwords off n).filter (fun d => (bs.zipIdx).any (fun p => p.1.2 && (off + p.2) / 8 == d))
    .ok (if hurt.isEmpty then s
      else s.modTile target (fun t => { t with poison := hurt.foldl (fun l d => sinsert d l) t.poison }))
  else do
    let (_, k, s) ← s.reach sp .store a
    let s := (s.lineWrite k (a.toNat % 64) bytes).noteHbm site k
    .ok (if bs.any Prod.snd then s.poisonLine k else s)

/-- Read `n` bytes for an engine. -/
def State.engRead (s : State) (sp : Space) (site : Nat) (a : Word) (n : Nat) : Try (List (Byte × Bool) × State) :=
  (pieces a n n).foldlM (fun (acc : List (Byte × Bool) × State) p => do
    let r ← acc.2.engPiece sp site p.1 p.2
    .ok (acc.1 ++ r.1, r.2)) ([], s)

end Sys2Proof.Machine
end

