-- ==== Sys2Proof/Machine/Croft.lean ====
section
/-! DEFINITION. A Croft core's address space, its instruction fetch and its data cache (R392, R316). -/

namespace Sys2Proof.Machine

/-- The space of level D: the tables rooted at CROOT, no TLB (R392). -/
def Croft.space (c : Croft) : Space :=
  { cluster := none, vi := 0, asid := Config.croftAsid, root := some (c.croot.toNat / 4096 * 4096) }

/-- Where an access of a Croft core goes: a line of memory, or an address of a device window (R405). -/
inductive CroftPlace where
  | line (k : LineKey) (attr : Nat)
  | page (vi off : Nat)
  | window (vi off : Nat)
  | port (n : Nat)
deriving DecidableEq, Repr

/-- The place of a physical address (R295, R405); where nothing decodes it, a line beyond HBM (log 100). -/
def placeOf (pa : Nat) (attr : Nat) : Try CroftPlace :=
  if pa < Config.hbmBytes then .ok (.line (.pa (pa / 64)) attr)
  else if Config.pageBase ≤ pa ∧ pa < Config.pageBase + 4096 * 64 then
    .ok (.page ((pa - Config.pageBase) / 4096) ((pa - Config.pageBase) % 4096))
  else if Config.windowBase ≤ pa ∧ pa < Config.windowBase + 0x20000 * 64 then
    .ok (.window ((pa - Config.windowBase) / 0x20000) ((pa - Config.windowBase) % 0x20000))
  else if Config.portBase ≤ pa ∧ pa < Config.portBase + 8 * 2 ^ 45 then .ok (.port ((pa - Config.portBase) / 2 ^ 45))
  else .ok (.line (.pa (pa / 64)) attr)

/-- A draw for bytes beyond HBM. -/
def State.placeDraw (s : State) (p : CroftPlace) : State :=
  match p with
  | .line k _ => s.beyond k
  | _ => s

/-- Where an access at `a` goes: level F uses physical addresses, level D translates (R392). -/
def State.croftPlace (s : State) (n : Nat) (nd : Need) (a : Word) : Try (CroftPlace × State) :=
  let c := s.croft n
  if c.level then do
    let p ← placeOf a.toNat 0
    .ok (p, s.placeDraw p)
  else do
    let (l, s) ← s.translate c.space nd a
    if pteUnb l.pte then
      let (k, s) ← s.touch c.space l a
      .ok (.line k (pteAttr l.pte), s)
    else
      let p ← placeOf (l.pa a) (pteAttr l.pte)
      .ok (p, s.placeDraw p)

/-- The bytes a Croft load finds in memory: HBM for backed lines (R316), the home slice for unbacked ones. -/
def State.croftLine (s : State) (k : LineKey) : Line :=
  match k with
  | .pa n => s.hbmLine n
  | .unb _ _ => s.lineAt k

/-- Is what a Croft load finds there poisoned (R386, R402)? -/
def State.croftPoisoned (s : State) (k : LineKey) : Bool :=
  match k with
  | .pa n => s.hbmPoisoned n
  | .unb _ _ => s.poisoned k

/-- The physical address of an offset of an interface's register page (R351, R405). -/
def pageAddr (vi off : Nat) : Word := BitVec.ofNat 64 (Config.pageBase + 4096 * vi + off)
/-- The physical address of a doubleword of a window slot (R353, R405). -/
def windowAddr (vi q slot off : Nat) : Word :=
  BitVec.ofNat 64 (Config.windowBase + 0x20000 * vi + 4096 * q + 256 * slot + off)

/-- The word at a Croft core's pc (R392). A fetch is no access of 8 bytes, so a page or a window drops it and logs it
(R351); what it answers is not stated: a free value (log 20). -/
def State.croftFetch (s : State) (n : Nat) : Try (IWord × State) := do
  let pc := (s.croft n).pc
  let (p, s) ← s.croftPlace n .fetch pc
  match p with
  | .line k _ =>
    let s := if k.isUnb then s.lineErrors k none else s
    if s.croftPoisoned k then trapWith .poison 0 pc
    else .ok (BitVec.ofNat 32 (leNat (lineBytes (s.croftLine k) (pc.toNat % 64) 4)), s)
  | .page vi off =>
    let (v, s) := (s.modVI vi (·.violate (pageAddr vi off) 1 0)).draw
    .ok (v.setWidth 32, s)
  | .window vi off =>
    let (v, s) := (s.modVI vi (·.violate (windowAddr vi (off / 4096) 0 (off % 4096)) 1 (off / 4096))).draw
    .ok (v.setWidth 32, s)
  | .port p => .error (.refuse (.rootPortWindow p))

/-- The cached line of a key. -/
def Croft.find (c : Croft) (k : LineKey) : Option CroftLine := c.cache.find? (·.key == k)

/-- Put a line into the cache. -/
def Croft.put (c : Croft) (l : CroftLine) : Croft :=
  { c with cache := if c.cache.any (·.key == l.key) then c.cache.map (fun x => if x.key == l.key then l else x)
                    else c.cache ++ [l] }

/-- Note a line that a Croft core wrote, for its own later loads (R125) and its `rel.h` (R131). -/
def Croft.note (c : Croft) (k : LineKey) : Croft :=
  { c with wrote := if c.wrote.contains k then c.wrote else k :: c.wrote }

/-- The bytes a Croft core's own load finds: of a line that it wrote, those at the home slice (R125). -/
def State.croftMem (s : State) (n : Nat) (k : LineKey) : Line :=
  if (s.croft n).wrote.contains k then s.lineAt k else s.croftLine k

/-- A read of memory for a Croft core meets the errors and the poison of what it reads: the home slice's for a line that it
wrote or that has no frame, else HBM's (R316, R385, R386). -/
def State.croftMeet (s : State) (n : Nat) (k : LineKey) : Bool × State :=
  if k.isUnb || (s.croft n).wrote.contains k then
    let s := s.lineErrors k none
    (s.poisoned k, s)
  else (s.croftPoisoned k, s)

/-- Deliver the marked bytes of a cached line to its home slice, poison with them (R386). Those of an unbacked line that is
gone are dropped, as an L1's are. -/
def State.croftDeliver (s : State) (n : Nat) (l : CroftLine) : State :=
  if l.mask = 0 || (l.key.isUnb && (s.l2find l.key).isNone) then s
  else
    let s := ((bitList l.mask).foldl (fun s o => s.lineWrite l.key o (lineBytes l.data o 1)) s).modCroft n (·.note l.key)
    if dirtyDwords l.mask &&& l.poison = 0 then s else s.poisonLine l.key

/-- Write a cached line back; it stays, clean. -/
def State.croftClean (s : State) (n : Nat) (l : CroftLine) : State :=
  (s.croftDeliver n l).modCroft n (·.put { l with mask := 0 })

/-- Take a line out of the cache, writing it back if dirty. -/
def State.croftEvict (s : State) (n : Nat) (l : CroftLine) : State :=
  (s.croftDeliver n l).modCroft n (fun c => { c with cache := c.cache.filter (·.key != l.key) })

/-- Write every dirty line of the cache back. -/
def State.croftFlush (s : State) (n : Nat) : State :=
  (s.croft n).cache.foldl (fun s l => if l.mask = 0 then s else s.croftClean n l) s

/-- The line of a key in the cache, filled if it is not there. (PRESUMED, log 35.) -/
def State.croftFill (s : State) (n : Nat) (k : LineKey) : CroftLine × State :=
  match (s.croft n).find k with
  | some l => (l, s)
  | none =>
    let (hurt, s) := s.croftMeet n k
    let l : CroftLine := { key := k, data := s.croftMem n k, poison := if hurt then 0xFF else 0 }
    (l, s.modCroft n (·.put l))

end Sys2Proof.Machine
end

