-- ==== Sys2Proof/Machine/Scalar.lean ====
section
/-! DEFINITION. Integer, immediate, bit-field, `part` and scalar floating-point instructions (R93 to R101). -/

namespace Sys2Proof.Machine

/-- Two sources, one result. -/
def alu2 (i : Instr) (m : Stream) (d a b : Spec) (f : Word → Word → Word) (s : State) : Out :=
  word i s (fun s => do
    let (va, s) ← s.src m a
    let (vb, s) ← s.src m b
    s.dst m d (f va vb))

/-- One source, one result. -/
def alu1 (i : Instr) (m : Stream) (d a : Spec) (f : Word → Word) (s : State) : Out :=
  word i s (fun s => do
    let (va, s) ← s.src m a
    s.dst m d (f va))

/-- A truth value as an integer. -/
def boolWord (b : Bool) : Word := if b then 1 else 0

/-- Bits [127:64] of the signed product (R93). -/
def mulHigh (a b : Word) : Word := (a.signExtend 128 * b.signExtend 128).extractLsb' 64 64
/-- Bits [127:64] of the unsigned product (R93). -/
def mulHighU (a b : Word) : Word := (a.setWidth 128 * b.setWidth 128).extractLsb' 64 64

/-- Signed division, saturating (R94). -/
def divS (a b : Word) : Word :=
  if b = 0 then
    if a = 0 then 0 else if a.msb then 0x8000000000000000 else 0x7FFFFFFFFFFFFFFF
  else if a = 0x8000000000000000 ∧ b = BitVec.allOnes 64 then 0x7FFFFFFFFFFFFFFF
  else a.sdiv b

/-- Unsigned division, saturating (R94). -/
def divU (a b : Word) : Word := if b = 0 then (if a = 0 then 0 else BitVec.allOnes 64) else a / b

/-- Signed remainder, 0 when the quotient saturates (R94). -/
def remS (a b : Word) : Word := if b = 0 ∨ (a = 0x8000000000000000 ∧ b = BitVec.allOnes 64) then 0 else a.srem b

/-- Unsigned remainder, 0 when the quotient saturates (R94). -/
def remU (a b : Word) : Word := if b = 0 then 0 else a % b

/-- Leading zero bits (R93). -/
def countLead (a : Word) : Word := if a = 0 then 64 else BitVec.ofNat 64 (63 - a.toNat.log2)

/-- Trailing zero bits (R93). -/
def countTrail (a : Word) : Word := if a = 0 then 64 else BitVec.ofNat 64 (a &&& -a).toNat.log2

/-- One bits (R93). -/
def countOnes (a : Word) : Word := BitVec.ofNat 64 ((List.range 64).filter (fun i => a.getLsbD i)).length

def execAdd (m : Stream) (d a b : Spec) (s : State) : Out := alu2 (.add m d a b) m d a b (· + ·) s
def execSub (m : Stream) (d a b : Spec) (s : State) : Out := alu2 (.sub m d a b) m d a b (· - ·) s
def execAnd (m : Stream) (d a b : Spec) (s : State) : Out := alu2 (.and m d a b) m d a b (· &&& ·) s
def execOr (m : Stream) (d a b : Spec) (s : State) : Out := alu2 (.or m d a b) m d a b (· ||| ·) s
def execXor (m : Stream) (d a b : Spec) (s : State) : Out := alu2 (.xor m d a b) m d a b (· ^^^ ·) s
/-- R93: only B[5:0] counts. -/
def execSll (m : Stream) (d a b : Spec) (s : State) : Out :=
  alu2 (.sll m d a b) m d a b (fun x y => x <<< (y.toNat % 64)) s
def execSrl (m : Stream) (d a b : Spec) (s : State) : Out :=
  alu2 (.srl m d a b) m d a b (fun x y => x >>> (y.toNat % 64)) s
def execSra (m : Stream) (d a b : Spec) (s : State) : Out :=
  alu2 (.sra m d a b) m d a b (fun x y => x.sshiftRight (y.toNat % 64)) s
def execSlt (m : Stream) (d a b : Spec) (s : State) : Out :=
  alu2 (.slt m d a b) m d a b (fun x y => boolWord (x.slt y)) s
def execSltu (m : Stream) (d a b : Spec) (s : State) : Out :=
  alu2 (.sltu m d a b) m d a b (fun x y => boolWord (x.ult y)) s
def execMin (m : Stream) (d a b : Spec) (s : State) : Out :=
  alu2 (.min m d a b) m d a b (fun x y => if x.slt y then x else y) s
def execMax (m : Stream) (d a b : Spec) (s : State) : Out :=
  alu2 (.max m d a b) m d a b (fun x y => if x.slt y then y else x) s
def execMinu (m : Stream) (d a b : Spec) (s : State) : Out :=
  alu2 (.minu m d a b) m d a b (fun x y => if x.ult y then x else y) s
def execMaxu (m : Stream) (d a b : Spec) (s : State) : Out :=
  alu2 (.maxu m d a b) m d a b (fun x y => if x.ult y then y else x) s
def execMul (m : Stream) (d a b : Spec) (s : State) : Out := alu2 (.mul m d a b) m d a b (· * ·) s
def execMulh (m : Stream) (d a b : Spec) (s : State) : Out := alu2 (.mulh m d a b) m d a b mulHigh s
def execMulhu (m : Stream) (d a b : Spec) (s : State) : Out := alu2 (.mulhu m d a b) m d a b mulHighU s
def execDiv (m : Stream) (d a b : Spec) (s : State) : Out := alu2 (.div m d a b) m d a b divS s
def execDivu (m : Stream) (d a b : Spec) (s : State) : Out := alu2 (.divu m d a b) m d a b divU s
def execRem (m : Stream) (d a b : Spec) (s : State) : Out := alu2 (.rem m d a b) m d a b remS s
def execRemu (m : Stream) (d a b : Spec) (s : State) : Out := alu2 (.remu m d a b) m d a b remU s
def execClz (m : Stream) (d a : Spec) (s : State) : Out := alu1 (.clz m d a) m d a countLead s
def execCtz (m : Stream) (d a : Spec) (s : State) : Out := alu1 (.ctz m d a) m d a countTrail s
def execPopc (m : Stream) (d a : Spec) (s : State) : Out := alu1 (.popc m d a) m d a countOnes s
def execAddsl1 (m : Stream) (d a b : Spec) (s : State) : Out :=
  alu2 (.addsl1 m d a b) m d a b (fun x y => (x <<< 1) + y) s
def execAddsl2 (m : Stream) (d a b : Spec) (s : State) : Out :=
  alu2 (.addsl2 m d a b) m d a b (fun x y => (x <<< 2) + y) s
def execAddsl3 (m : Stream) (d a b : Spec) (s : State) : Out :=
  alu2 (.addsl3 m d a b) m d a b (fun x y => (x <<< 3) + y) s
def execAddsl4 (m : Stream) (d a b : Spec) (s : State) : Out :=
  alu2 (.addsl4 m d a b) m d a b (fun x y => (x <<< 4) + y) s

/-! ## Immediate forms (R95 to R98) -/

def execAddi (m : Stream) (d a : Spec) (i : BitVec 13) (s : State) : Out :=
  alu1 (.addi m d a i) m d a (· + i.signExtend 64) s
def execAndi (m : Stream) (d a : Spec) (i : BitVec 13) (s : State) : Out :=
  alu1 (.andi m d a i) m d a (· &&& i.signExtend 64) s
def execOri (m : Stream) (d a : Spec) (i : BitVec 13) (s : State) : Out :=
  alu1 (.ori m d a i) m d a (· ||| i.signExtend 64) s
def execXori (m : Stream) (d a : Spec) (i : BitVec 13) (s : State) : Out :=
  alu1 (.xori m d a i) m d a (· ^^^ i.signExtend 64) s
def execSlti (m : Stream) (d a : Spec) (i : BitVec 13) (s : State) : Out :=
  alu1 (.slti m d a i) m d a (fun x => boolWord (x.slt (i.signExtend 64))) s
def execSlli (m : Stream) (d a : Spec) (n : BitVec 6) (s : State) : Out :=
  alu1 (.slli m d a n) m d a (· <<< n.toNat) s
def execSrli (m : Stream) (d a : Spec) (n : BitVec 6) (s : State) : Out :=
  alu1 (.srli m d a n) m d a (· >>> n.toNat) s
def execSrai (m : Stream) (d a : Spec) (n : BitVec 6) (s : State) : Out :=
  alu1 (.srai m d a n) m d a (·.sshiftRight n.toNat) s

/-- R97. -/
def execLi (m : Stream) (d : Spec) (i : BitVec 19) (s : State) : Out :=
  word (.li m d i) s (fun s => s.dst m d (i.signExtend 64))

/-- A specifier that is read and written names a register (R97, R98, R100, R141, R225). -/
def needReg (f : Spec) : Try Unit := need (decide (f.toNat < 48)) .illop

/-- R97. -/
def execLih (m : Stream) (d : Spec) (i : BitVec 19) (s : State) : Out :=
  word (.lih m d i) s (fun s => do
    needReg d
    let (v, s) ← s.src m d
    s.dst m d ((v <<< 19) ||| i.setWidth 64))

/-- Bits [p+w-1 : p] of a doubleword, zero-extended. -/
def fieldU (a : Word) (p w : Nat) : Word := (a >>> p) &&& BitVec.ofNat 64 (2 ^ w - 1)

/-- Bits [p+w-1 : p], sign-extended. -/
def fieldS (a : Word) (p w : Nat) : Word := ((a <<< (64 - p - w)).sshiftRight (64 - w))

/-- R98. -/
def execBfx (m : Stream) (d a : Spec) (p w : BitVec 6) (s : State) : Out :=
  alu1 (.bfx m d a p w) m d a (fieldS · p.toNat (w.toNat + 1)) s
def execBfxu (m : Stream) (d a : Spec) (p w : BitVec 6) (s : State) : Out :=
  alu1 (.bfxu m d a p w) m d a (fieldU · p.toNat (w.toNat + 1)) s

/-- A field of `old` replaced by the low bits of `a` (R98). -/
def insertField (old a : Word) (p w : Nat) : Word :=
  let m := BitVec.ofNat 64 (2 ^ w - 1) <<< p
  (old &&& ~~~m) ||| ((a <<< p) &&& m)

def execBfi (m : Stream) (d a : Spec) (p w : BitVec 6) (s : State) : Out :=
  word (.bfi m d a p w) s (fun s => do
    needReg d
    let (va, s) ← s.src m a
    let (old, s) ← s.src m d
    s.dst m d (insertField old va p.toNat (w.toNat + 1)))

/-- This tile's share of N items (R99). -/
def share (n base i p : Nat) : Word :=
  let lo := n * i / p
  let hi := n * (i + 1) / p
  BitVec.ofNat 32 (hi - lo) ++ BitVec.ofNat 32 (base + lo)

/-- `part` along an axis of the grid that the task sees (R99). -/
def partOn (i : Instr) (y : Bool) (d a b : Spec) (s : State) : Out :=
  word i s (fun s => do
    let (_, _, c) ← s.here
    let g := c.grid
    let (n, s) ← s.src .A a
    let (base, s) ← s.src .A b
    let ip := if y then (g.gy.toNat, g.h.toNat) else (g.gx.toNat, g.w.toNat)
    s.dst .A d (share (n.toNat % 2 ^ 32) (base.toNat % 2 ^ 32) ip.1 ip.2))

def execPart (d a b : Spec) (s : State) : Out := partOn (.part d a b) false d a b s
def execPartY (d a b : Spec) (s : State) : Out := partOn (.partY d a b) true d a b s

/-! ## Scalar floating point (R100, R101) -/

/-- The FP32 pattern in bits [31:0] of a register. -/
def lowFp (v : Word) : Nat := v.toNat % 2 ^ 32

/-- The flags of a result stick or trap, then d is written (R101). -/
def State.fpResult (s : State) (d : Spec) (v : Word) (f : Flags) : Try State := do
  let (site, slot, c) ← s.here
  let c ← c.scalarFlags f
  (s.setCtx site slot c).dst .C d v

/-- Two FP32 sources and the modes. -/
def fp2 (i : Instr) (d a b : Spec) (f : Modes → Nat → Nat → Word × Flags) (s : State) : Out :=
  word i s (fun s => do
    let (va, s) ← s.src .C a
    let (vb, s) ← s.src .C b
    let (_, _, c) ← s.here
    let r := f c.scalarModes (lowFp va) (lowFp vb)
    s.fpResult d r.1 r.2)

/-- A rounded FP32 result: zeros in [63:32]. -/
def fpWord (r : Nat × Flags) : Word × Flags := (BitVec.ofNat 64 r.1, r.2)

def execFadd (d a b : Spec) (s : State) : Out :=
  fp2 (.fadd d a b) d a b (fun md x y =>
    fpWord (Fmt.fp32.roundEx md (FVal.add md.rm (Fmt.fp32.unpack x) (Fmt.fp32.unpack y)))) s
def execFsub (d a b : Spec) (s : State) : Out :=
  fp2 (.fsub d a b) d a b (fun md x y =>
    fpWord (Fmt.fp32.roundEx md (FVal.add md.rm (Fmt.fp32.unpack x) (Fmt.fp32.unpack y).neg))) s
def execFmul (d a b : Spec) (s : State) : Out :=
  fp2 (.fmul d a b) d a b (fun md x y =>
    fpWord (Fmt.fp32.roundEx md (FVal.mul (Fmt.fp32.unpack x) (Fmt.fp32.unpack y)))) s

/-- `ffma`: d is a register (R100). -/
def execFfma (d a b : Spec) (s : State) : Out :=
  word (.ffma d a b) s (fun s => do
    needReg d
    let (va, s) ← s.src .C a
    let (vb, s) ← s.src .C b
    let (vd, s) ← s.src .C d
    let (_, _, c) ← s.here
    let md := c.scalarModes
    let r := fpWord (Fmt.fp32.roundEx md (FVal.fma md.rm (Fmt.fp32.unpack (lowFp va)) (Fmt.fp32.unpack (lowFp vb))
      (Fmt.fp32.unpack (lowFp vd))))
    s.fpResult d r.1 r.2)

def execFmin (d a b : Spec) (s : State) : Out :=
  fp2 (.fmin d a b) d a b (fun _ x y => (BitVec.ofNat 64 (Fmt.fp32.min x y), 0)) s
def execFmax (d a b : Spec) (s : State) : Out :=
  fp2 (.fmax d a b) d a b (fun _ x y => (BitVec.ofNat 64 (Fmt.fp32.max x y), 0)) s
def execFeq (d a b : Spec) (s : State) : Out :=
  fp2 (.feq d a b) d a b (fun _ x y => (boolWord ((Fmt.fp32.unpack x).eqv (Fmt.fp32.unpack y)), 0)) s

/-- A NaN operand sets IV (R100). -/
def nanFlag (x y : Nat) : Flags := if Fmt.fp32.isNaN x || Fmt.fp32.isNaN y then flagIV else 0

def execFlt (d a b : Spec) (s : State) : Out :=
  fp2 (.flt d a b) d a b (fun _ x y =>
    (boolWord ((Fmt.fp32.unpack x).lt (Fmt.fp32.unpack y)), nanFlag x y)) s
def execFle (d a b : Spec) (s : State) : Out :=
  fp2 (.fle d a b) d a b (fun _ x y =>
    (boolWord ((Fmt.fp32.unpack x).lt (Fmt.fp32.unpack y) || (Fmt.fp32.unpack x).eqv (Fmt.fp32.unpack y)),
      nanFlag x y)) s

/-- Signed 64-bit integer to FP32 (R53, R100). -/
def execFcvtSI (d a : Spec) (s : State) : Out :=
  word (.fcvtSI d a) s (fun s => do
    let (va, s) ← s.src .C a
    let (_, _, c) ← s.here
    let r := fpWord (Fmt.fp32.ofInt c.scalarModes va.toInt)
    s.fpResult d r.1 r.2)

/-- FP32 to signed 64-bit integer (R52, R100). -/
def execFcvtIS (d a : Spec) (s : State) : Out :=
  word (.fcvtIS d a) s (fun s => do
    let (va, s) ← s.src .C a
    let (_, _, c) ← s.here
    let r := toInt c.scalarModes.rm (-(2 ^ 63 : Nat)) ((2 ^ 63 : Nat) - 1) (Fmt.fp32.unpack (lowFp va))
    s.fpResult d (BitVec.ofInt 64 r.1) r.2)

end Sys2Proof.Machine
end

