-- ==== Sys2Proof/Machine/Token.lean ====
section
/-! DEFINITION. Power tokens from a task's side (R114 to R119) and the Drover's answer to a request (R303). -/

namespace Sys2Proof.Machine

/-- The channel of a message. -/
def Message.chan (m : Message) : Nat := hdrChan (wordAt m.words 0)

/-- The handler entry of a channel (R38). -/
def Tile.handler (t : Tile) (chan : Nat) : Vector Word 4 := sget (Vector.replicate 4 0) chan t.handlers

/-- The priority of a task on a tile (R259). -/
def Tile.prioOf (t : Tile) (k : Task) : Nat :=
  k.msg.prio.getD (fld (vget 0 (t.handler k.msg.chan) 1) 0 4).toNat

/-- Need(ECLASS) (R298). -/
def needOf (ec : BitVec 3) : Nat :=
  match ec.toNat with
  | 0 => 0
  | 1 => 16
  | 2 => 32
  | 3 => 48
  | 4 => 64
  | 5 => 96
  | 6 => 112
  | _ => 128

/-- Tokens granted under an interface's cap: held by its tasks and engines, or on their way to a borrower (R115,
R118). -/
def State.viTokens (s : State) (vi : Nat) : Nat :=
  let mine (t : Tile) : Bool := match t.launch.bind s.launch? with
    | some l => l.vi == vi
    | none => false
  (s.tiles.map (fun p => if mine p.2 then p.2.tokens + p.2.eng.held else 0)).foldl (· + ·) 0 +
  (s.mesh.map (fun f => match f with
    | .tokens _ _ l => if l.task.1 = vi then l.n else 0
    | _ => 0)).foldl (· + ·) 0

/-- What stops a grant: how much a Drover can give to one holding of a tile (R115, R303): the tile's 128, and the
interface's cap. (DESIGN CHOICE, log 105.) -/
def State.tileRoom (s : State) (site : Nat) : Nat := Config.tileTokens - ((s.tile site).tokens + (s.tile site).eng.held)
def State.capRoom (s : State) (vi : Nat) : Nat := (s.vi vi).tokcap - s.viTokens vi

/-! ## Holdings: slots 0 to 3 are a tile's contexts, slot 4 its engine holding (R192) -/

/-- The holding of a slot. -/
def State.holding? (s : State) (site slot : Nat) : Option Holding :=
  if slot = 4 then some (s.tile site).eng else (s.ctx? site slot).map (·.tok)

/-- Replace the holding of a slot. -/
def State.setHolding (s : State) (site slot : Nat) (h : Holding) : State :=
  if slot = 4 then s.modTile site (fun t => { t with eng := h })
  else s.modCtx site slot (fun c => { c with tok := h })

/-- The priority of a holding: of its task, or of the launch an engine works for (R192, R303). -/
def State.holdPrio (s : State) (site slot : Nat) : Nat :=
  if slot = 4 then (((s.tile site).launch.bind s.launch?).map (fun l => (fld (l.word 0) 44 4).toNat)).getD 0
  else ((s.ctx? site slot).map (fun c => (s.tile site).prioOf c.task)).getD 0

/-- The interface a holding counts against. -/
def State.holdVI (s : State) (site : Nat) : Option Nat := ((s.tile site).launch.bind s.launch?).map (·.vi)

/-- Every place of a holding. -/
def State.holdings (s : State) : List (Nat × Nat) :=
  (s.tiles.map (fun p => [0, 1, 2, 3, 4].map (fun k => (p.1, k)))).flatten

/-! ## Grants (R303) -/

/-- Does the holding have an open request? It stays open while its task is under notice (R115). -/
def Holding.isOpen (h : Holding) : Bool := h.opened && h.want != 0

/-- Does it have one that a Drover may grant to now (R115)? -/
def Holding.asks (h : Holding) : Bool := h.isOpen && h.notice == 0

/-- The open requests of a field: highest priority first, then oldest. -/
def State.openRequests (s : State) (f : Nat) : List (Nat × Nat) :=
  let l := s.holdings.filter (fun p => siteField p.1 == f && ((s.holding? p.1 p.2).map Holding.isOpen).getD false)
  let key (p : Nat × Nat) : Nat × Nat := (s.holdPrio p.1 p.2, ((s.holding? p.1 p.2).map (·.ord)).getD 0)
  lsort (fun a b => decide ((key b).1 < (key a).1) || ((key a).1 == (key b).1 && decide ((key a).2 ≤ (key b).2))) l

/-- Those that a Drover may grant to now. -/
def State.requests (s : State) (f : Nat) : List (Nat × Nat) :=
  (s.openRequests f).filter (fun p => ((s.holding? p.1 p.2).map Holding.asks).getD false)

/-- The place in the order of age of a request that opens now in a field: after all open ones (R303). -/
def State.nextOrd (s : State) (f : Nat) : Nat :=
  ((s.openRequests f).map (fun p => ((s.holding? p.1 p.2).map (·.ord)).getD 0)).foldl Nat.max 0 + 1

/-- What the cap of the interface that a tile works for leaves (R115). -/
def State.viRoom (s : State) (site : Nat) : Nat := ((s.holdVI site).map s.capRoom).getD 0

/-- Fill one request as far as it goes. -/
def State.fill (s : State) (f : Nat) (p : Nat × Nat) : State :=
  match s.holding? p.1 p.2 with
  | none => s
  | some h =>
    let room := Nat.min (s.tileRoom p.1) (s.viRoom p.1)
    let g := Nat.min (Nat.min h.want (s.field f).drover.free) room
    if g = 0 then s
    else
      let s := s.modField f (fun x => ({ x with drover := { x.drover with free := x.drover.free - g } } : Field).count 0 1)
      s.setHolding p.1 p.2 { h with own := h.own + g, want := h.want - g, opened := decide (h.want ≠ g) }

/-- Fill the open requests of a field from its free tokens. -/
def State.grant (s : State) (f : Nat) : State := (s.requests f).foldl (fun s p => s.fill f p) s

/-! ## The Drover's answer (R303) -/

/-- What a Drover still owes to cuts of its share and to recalls. -/
def Drover.owes (d : Drover) : Nat := d.cutDebt + (d.recalls.map (·.n)).foldl (· + ·) 0

/-- Of notices (LEFT, tokens) in the order in which they end, the LEFT of those that leave a token once `debt` is paid. -/
def noticesBeyond (debt : Nat) : List (Nat × Nat) → List Nat
  | [] => []
  | (left, n) :: r => if n ≤ debt then noticesBeyond (debt - n) r else left :: noticesBeyond 0 r

/-- The releases that a Drover knows of and that will add to its free tokens, in units of 16 ticks: running notices
with tokens beyond what it owes, which the first tokens to return pay, and loans on their way, which take at most 1 us
(700 ticks: 44 units), by a choice (log 2). -/
def State.knownReleases (s : State) (f : Nat) : List Nat × State :=
  let running := (s.holdings.filterMap (fun p => s.holding? p.1 p.2)).filter (fun h => h.notice != 0 && h.by_ == f)
  let ends := lsort (fun a b => decide (a.1 ≤ b.1)) (running.map (fun h => (h.left, h.notice)))
  let notices := (noticesBeyond (s.field f).drover.owes ends).map (fun left => Nat.max 1 ((left + 15) / 16))
  if s.mesh.any (fun m => match m with | .loan _ b _ => b == f | _ => false) then
    let (k, s) := s.choose 44
    (notices ++ [k + 1], s)
  else (notices, s)

/-- The hint of a refusal. -/
def State.refuseHint (s : State) (f : Nat) (capAlone : Bool) : Nat × State :=
  if capAlone then (0xFFFF, s)
  else
    let (l, s) := s.knownReleases f
    (if l.isEmpty then 64 else l.foldl Nat.min 0xFFFF, s)

/-- What a holding still wants. -/
def State.wantOf (s : State) (site slot : Nat) : Nat := ((s.holding? site slot).map (·.want)).getD 0

/-- A field's Drover answers the request that a holding has just opened: it fills the field's open requests in their
order. What this one was given, and the hint when it was given nothing. -/
def State.droverAnswer (s : State) (site slot : Nat) : Nat × Nat × State :=
  let f := siteField site
  let t := s.grant f
  let g := s.wantOf site slot - t.wantOf site slot
  if g = 0 then
    let t := t.modField f (·.count 1 1)
    let cap := decide (0 < (t.field f).drover.free) && t.tileRoom site != 0 && t.viRoom site == 0
    let r := t.refuseHint f cap
    (0, r.1, r.2)
  else (g, 0, t)

/-- The status word (R114). -/
def tokStatus (hint held stat : Nat) : Word :=
  BitVec.ofNat 64 (65536 * (hint % 65536) + 256 * (held % 256) + stat % 4)

/-- A request for a holding to reach a target (R115): the new state and the status. -/
def State.tokRequest (s : State) (site slot : Nat) (c : Ctx) (n : Nat) : Word × State :=
  let h := c.tok
  if n ≤ h.avail then
    (tokStatus 0 h.held 0, s.setCtx site slot { c with tok := { h with want := 0, opened := false } })
  else
    let want := n - h.avail
    let s := s.setCtx site slot { c with tok := { h with want := want, opened := true, since := s.refTicks, ord := s.nextOrd (siteField site) } }
    if h.notice != 0 then
      (tokStatus (Nat.max 1 ((h.left + 15) / 16)) h.held 2, s.modField (siteField site) (·.count 1 1))
    else
      let r := s.droverAnswer site slot
      (if r.1 = want then tokStatus 0 (h.held + r.1) 0 else if r.1 = 0 then tokStatus r.2.1 h.held 2
       else tokStatus 0 (h.held + r.1) 1, r.2.2)

/-- R115. -/
def execTokreq (d a : Spec) (s : State) : Out :=
  word (.tokreq d a) s (fun s => do
    let (v, s) ← s.src .A a
    let (site, slot, c) ← s.here
    let (st, s) := s.tokRequest site slot c (Nat.min v.toNat Config.tileTokens)
    s.dst .A d st)

/-- Take `n` tokens from the loans of a holding, from those counted in field `f` only when one is named: what is left
and what was taken. Of several lenders the tokens of the one borrowed from first go first. (DESIGN CHOICE, log 109.) -/
def takeLoans (f : Option Nat) : List Loan → Nat → List Loan × List Loan
  | [], _ => ([], [])
  | l :: r, n =>
    let k := if f.all (· == l.field) then Nat.min n l.n else 0
    let rest := takeLoans f r (n - k)
    (if l.n = k then rest.1 else { l with n := l.n - k } :: rest.1,
     if k = 0 then rest.2 else { l with n := k } :: rest.2)

/-- Take `n` tokens under notice out of a holding: own tokens first when its own field revoked them,
then borrowed tokens that the revoking field counts (R305). Answers the holding, own tokens and loans taken. -/
def Holding.takeNotice (h : Holding) (field n : Nat) : Holding × Nat × List Loan :=
  let k := if h.by_ = field then Nat.min n h.own else 0
  let r := takeLoans (some h.by_) h.loans (n - k)
  ({ h with own := h.own - k, loans := r.1, notice := h.notice - n, left := if h.notice = n then 0 else h.left },
   k, r.2)

/-- The tokens of a notice that are taken go back to the Drover that revoked them (R117, R305). -/
def State.noticeBack (s : State) (site own : Nat) (ls : List Loan) : State :=
  let s := if own = 0 then s else s.gainTokens (siteField site) own
  ls.foldl (fun s l => s.gainTokens l.field l.n) s

/-- R117. -/
def execTokret (d a : Spec) (s : State) : Out :=
  word (.tokret d a) s (fun s => do
    let (v, s) ← s.src .A a
    let (site, slot, c) ← s.here
    let m := Nat.min v.toNat c.tok.held
    let k := Nat.min m c.tok.notice
    let (h, own, ls) := c.tok.takeNotice (siteField site) k
    let ownMore := Nat.min (m - k) h.own
    let r := takeLoans none h.loans (m - k - ownMore)
    let h := { h with own := h.own - ownMore, loans := r.1, want := 0, opened := false }
    let s := s.setCtx site slot { c with tok := h }
    let s := s.noticeBack site own ls
    let s := if ownMore = 0 then s else s.gainTokens (siteField site) ownMore
    let s := r.2.foldl State.returnLoan s
    s.dst .A d (BitVec.ofNat 64 h.held))

/-- The task that runs now on the tile that a name of this launch reaches from a field (R118). -/
def State.runningOn (s : State) (f launch : Nat) (name : BitVec 16) : Option (Nat × Ctx) :=
  (s.siteOfName f launch name).bind (fun b => ((s.tile b).cur.bind (s.ctx? b)).map (fun c => (b, c)))

/-- R118: own tokens first, then borrowed ones, none of them under notice. -/
def execToklend (d a b : Spec) (s : State) : Out :=
  word (.toklend d a b) s (fun s => do
    let (name, s) ← s.src .A a
    let (n, s) ← s.src .A b
    let (site, slot, c) ← s.here
    match s.runningOn (siteField site) c.task.msg.launch (name.setWidth 16) with
    | none => s.dst .A d 0
    | some (target, bc) =>
      let f := siteField site
      let m := Nat.min n.toNat c.tok.avail
      let (h, _, kept) := c.tok.takeNotice f c.tok.notice
      let own := Nat.min m h.own
      let r := takeLoans none h.loans (m - own)
      let s := s.setCtx site slot { c with tok := { c.tok with own := c.tok.own - own, loans := r.1 ++ kept } }
      let loans := (if own = 0 then [] else [(⟨own, site, c.task.who, f⟩ : Loan)]) ++ r.2
      let s := { s with mesh := s.mesh ++ loans.map (fun l => Flight.tokens target bc.task.who l) }
      s.dst .A d (BitVec.ofNat 64 m))

/-- R116. -/
def execTokwait (d : Spec) (s : State) : Out :=
  word (.tokwait d) s (fun s => do
    let (_, _, c) ← s.here
    await (c.tok.want == 0) .token
    s.dst .A d (tokStatus 0 c.tok.held 0))

/-- The holding as TOKHELD shows it (R24). -/
def Holding.tokheld (h : Holding) : Word :=
  BitVec.ofNat 64 (65536 * (h.left % 4096) + 256 * (h.notice % 256) + h.held % 256)

/-- R119. -/
def execTokq (d : Spec) (s : State) : Out :=
  word (.tokq d) s (fun s => do
    let (_, _, c) ← s.here
    let h := c.tok
    s.dst .A d (BitVec.ofNat 64 (2 ^ 28 * (h.want % 256) + 65536 * (h.left % 4096) + 256 * (h.notice % 256) +
      h.held % 256)))

end Sys2Proof.Machine
end

