-- ==== Sys2Proof/Machine/Sys.lean ====
section
/-! DEFINITION. `sysrd`, `syswr` and `vshape` (R24, R112, R113, R163, R393). -/

namespace Sys2Proof.Machine

/-- RULEB keeps its fields only (R24). -/
def rulebMask : Word := 0x01FFFFFFFFFFFFFF
/-- SAFEMAP keeps BASE only (R24). -/
def safemapMask : Word := 0x01FFFFFFFFFFFFE0
/-- A window descriptor keeps its fields only (R28). -/
def wdMask : Word := 0x3FFFFF7F

/-- The value of a tile's system register (R24). -/
def State.sysVal (s : State) (site : Nat) (c : Ctx) (r : Nat) : Word :=
  let t := s.tile site
  let xy := siteXY site
  match r with
  | 0x00 => c.fpc &&& fpcMask
  | 0x01 => c.vshape &&& vshapeMask
  | 0x02 => c.vstat &&& vstatMask
  | 0x03 => c.amax &&& amaxMask
  | 0x04 => BitVec.ofNat 64 (2 ^ 40 * xy.2 + 2 ^ 32 * xy.1) ||| (c.grid.gy ++ c.grid.gx).setWidth 64
  | 0x05 => (c.grid.h ++ c.grid.w).setWidth 64
  | 0x06 => (BitVec.ofBool t.named ++ t.name).setWidth 64
  | 0x07 => c.task.id.setWidth 64
  | 0x08 => c.task.msg.ts.setWidth 64
  | 0x09 => c.task.msg.dom.setWidth 64
  | 0x0A => c.task.msg.ec.setWidth 64
  | 0x0B => c.tok.tokheld
  | 0x0C => BitVec.ofNat 64 (c.tok.want % 256)
  | 0x0D => t.l1sz.setWidth 64
  | 0x20 => t.ruleb &&& rulebMask
  | 0x21 => c.safemap &&& safemapMask
  | 0x22 => t.bandsh.setWidth 64
  | 0x23 => t.prewin.setWidth 64
  | 0x24 => t.wdog.setWidth 64
  | 0x28 => BitVec.ofNat 64 (s.tick site)
  | 0x29 => s.gtimeAt (siteField site)
  | 0x2A => s.tskew.setWidth 64
  | 0x2B => t.tlate.setWidth 64
  | 0x2C => ((s.cluster (siteCluster site)).marginMin ++ (s.cluster (siteCluster site)).marginNow).setWidth 64
  | k => vget 0 t.wd (k - 0x10) &&& wdMask

/-- The value of a Croft core's system register (R393). CYC of a Croft core is not stated: a free value (log 2). (DESIGN CHOICE, log 56.) -/
def State.croftSysrd (s : State) (n r : Nat) : Word × State :=
  let c := s.croft n
  match r with
  | 0x29 => (s.gtime, s)
  | 0x2A => (s.tskew.setWidth 64, s)
  | 0x30 => ((BitVec.ofBool c.prev ++ BitVec.ofBool c.level).setWidth 64, s)
  | 0x31 => (c.cvec, s)
  | 0x32 => (c.cepc, s)
  | 0x33 => (c.cflt, s)
  | 0x34 => (c.cfaddr, s)
  | 0x35 => (c.croot, s)
  | _ => s.draw

/-- R112, R113, R393. -/
def execSysrd (m : Stream) (d r : Spec) (s : State) : Out :=
  word (.sysrd m d r) s (fun s =>
    match s.turn with
    | .croft n => do
      need (!(decide (0x31 ≤ r.toNat) && !(s.croft n).level)) .priv
      let (v, s) := s.croftSysrd n r.toNat
      s.dst m d v
    | .tile _ _ _ => do
      let (site, _, c) ← s.here
      s.dst m d (s.sysVal site c r.toNat))

/-- Is the register one that a task's write raises PRIV for (R112)? -/
def sysPriv (r : Nat) : Bool :=
  r == 0x06 || r == 0x0D || (decide (0x11 ≤ r) && decide (r ≤ 0x1F)) || r == 0x20 || r == 0x22 || r == 0x23 || r == 0x24

/-- Replace the writable bits `m` of a register. -/
def masked (m v : Word) : Word := v &&& m

/-- A task's write of a system register (R24, R112). -/
def State.sysPut (s : State) (site slot : Nat) (c : Ctx) (r : Nat) (v : Word) : State :=
  match r with
  | 0x00 => s.setCtx site slot { c with fpc := masked fpcMask v }
  | 0x01 => s.setCtx site slot { c with vshape := masked vshapeMask v }
  | 0x02 => s.setCtx site slot { c with vstat := masked vstatMask v }
  | 0x03 => s.setCtx site slot { c with amax := masked amaxMask v }
  | 0x2B => s.modTile site (fun t => { t with tlate := v.setWidth 32 })
  | _ => s

/-- A Croft core's write of a system register (R393). -/
def Croft.sysPut (c : Croft) (r : Nat) (v : Word) : Croft :=
  match r with
  | 0x30 => { c with level := v.getLsbD 0, prev := v.getLsbD 1 }
  | 0x31 => { c with cvec := masked 0x01FFFFFFFFFFFFFC v }
  | 0x32 => { c with cepc := masked 0x01FFFFFFFFFFFFFC v }
  | 0x33 => { c with cflt := masked 0xFFFFFF v }
  | 0x34 => { c with cfaddr := masked 0x01FFFFFFFFFFFFFF v }
  | 0x35 => { c with croot := masked 0x000FFFFFFFFFF000 v }
  | _ => c

/-- R112, R113, R393. -/
def execSyswr (m : Stream) (a r : Spec) (s : State) : Out :=
  word (.syswr m a r) s (fun s =>
    match s.turn with
    | .croft n => do
      need (!(decide (0x30 ≤ r.toNat) && !(s.croft n).level)) .priv
      let (v, s) ← s.src m a
      .ok (s.modCroft n (·.sysPut r.toNat v))
    | .tile _ _ _ => do
      need (!sysPriv r.toNat) .priv
      let (v, s) ← s.src m a
      let (site, slot, c) ← s.here
      .ok (s.sysPut site slot c r.toNat v))

/-- R163: ROWSM1 and COLSM1 from the word. -/
def execVshape (r : BitVec 6) (k : BitVec 8) (s : State) : Out :=
  word (.vshape r k) s (fun s => do
    let (site, slot, c) ← s.here
    .ok (s.setCtx site slot { c with vshape := (k ++ 0#2 ++ r).setWidth 64 }))

end Sys2Proof.Machine
end

