-- ==== Sys2Proof/Machine/Control.lean ====
section
/-! DEFINITION. Branches, jumps, `rpt` and task control (R102 to R111), with the end of a task (R107) and the image of
a saved one (R39 to R41). -/

namespace Sys2Proof.Machine

/-- A branch on a signed test of Src(a) (R74, R102). -/
def branch (i : Instr) (a : Spec) (o : BitVec 15) (p : Word → Bool) (s : State) : Out :=
  wordTo i s (fun s => do
    let pc := s.pc
    let (v, s) ← s.src .A a
    .ok (s.jump (if p v then pc + 4 * o.signExtend 64 else pc + 4)))

def execBeqz (a : Spec) (o : BitVec 15) (s : State) : Out := branch (.beqz a o) a o (· == 0) s
def execBnez (a : Spec) (o : BitVec 15) (s : State) : Out := branch (.bnez a o) a o (· != 0) s
def execBltz (a : Spec) (o : BitVec 15) (s : State) : Out := branch (.bltz a o) a o (·.msb) s
def execBgez (a : Spec) (o : BitVec 15) (s : State) : Out := branch (.bgez a o) a o (fun v => !v.msb) s
def execBgtz (a : Spec) (o : BitVec 15) (s : State) : Out := branch (.bgtz a o) a o (fun v => !v.msb && v != 0) s
def execBlez (a : Spec) (o : BitVec 15) (s : State) : Out := branch (.blez a o) a o (fun v => v.msb || v == 0) s

/-- R74, R103. -/
def execJal (d : Spec) (o : BitVec 19) (s : State) : Out :=
  wordTo (.jal d o) s (fun s => do
    let pc := s.pc
    let s ← s.dst .A d (pc + 4)
    .ok (s.jump (pc + 4 * o.signExtend 64)))

/-- R104. The ALIGN of a misaligned base reports the base as its address. (DESIGN CHOICE, log 110.) -/
def execJalr (d a : Spec) (i : BitVec 13) (s : State) : Out :=
  wordTo (.jalr d a i) s (fun s => do
    let pc := s.pc
    let (b, s) ← s.src .A a
    need (fld b 0 2 == 0) .align 0 b
    let t := b + 4 * i.signExtend 64
    need (fld t 57 7 == 0) .prot 6 t
    let s ← s.dst .A d (pc + 4)
    .ok (s.jump t))

/-- Is the major opcode one that a repeat frame may hold (R86)? -/
def frameMajor (w : IWord) : Bool :=
  let j := (w.extractLsb' 25 6).toNat
  decide (j ≤ 0x0A) || j == 0x0C || j == 0x14 || (decide (0x28 ≤ j) && decide (j ≤ 0x33))

/-- R86, R105: the frame is captured once its 16 words stand in the front end. Until then the C-stream is at the
`rpt`. -/
def execRpt (n : BitVec 8) (k : BitVec 6) (s : State) : Out :=
  wordTo (.rpt n k) s (fun s => do
    let (site, slot, c) ← s.here
    let ws := (c.front.drop 1).take 16
    need (ws.all (fun p => frameMajor p.2)) .rptframe
    if ws.length = 16 then
      let s := s.setCtx site slot
        { c with front := c.front.drop 17, frame := some ⟨ws, n.toNat + 1, k.toNat, 0, 0⟩, cWait := none }
      .ok (s.modTile site (·.count 2 1))
    else
      need (!c.atDone) .rptframe
      .error (.goto s))

/-- R106. -/
def execNop (m : Stream) (s : State) : Out := word (.nop m) s .ok

/-! ## The end of a task -/

/-- Every fetched C-stream word has issued and retired (R40, R107, R133): front end, frame, vector unit, and the array
items of this context. -/
def State.cRetired (s : State) (site slot : Nat) (c : Ctx) : Bool :=
  c.cIssued && c.vecBusy == 0 &&
    match (s.tile site).array with
    | some a => a.slot != some slot
    | none => true

/-- The task's commands in e0, e2 and e4 that have not completed at their engine (R107). -/
def State.ownCommands (s : State) (site slot : Nat) (c : Ctx) : List Cmd :=
  (s.tile site).cmds.filter (fun m =>
    !m.remote && m.port != 6 && m.slot == some slot && m.run == c.run && !m.finished)

/-- The lowest port with a partly written command. (DESIGN CHOICE, log 108.) -/
def Ctx.partPort (c : Ctx) : Option Nat := (lfind (fun l => !l.isEmpty) c.out.toList).map portOf

/-- A task has ended, and its launch counts it; a re-run under R275 has succeeded with it (R364). -/
def State.taskEnded (s : State) (c : Ctx) : State :=
  s.modLaunch c.task.msg.launch (fun l =>
    { l with tasks := l.tasks + 1, corrected := l.corrected || c.task.redo.isSome })

/-- Points 4 to 6 of R107: in domain 0 `rel.g` and the end, in an ordered domain a finished task. Held pairs go back
unless an operation of this task consumes them at commit (R222). -/
def State.endTask (s : State) (site slot : Nat) (c : Ctx) : State :=
  let s := if c.task.msg.dom = 0 then s.flushL1 site else s
  let s := s.returnPairs (c.pairs.filter (!·.spent))
  let s := s.endTokens site c
  let s := s.freeSlot site slot
  if c.task.msg.dom = 0 then s.taskEnded c
  else
    let fin := { c with pairs := c.pairs.filter (·.spent), tok := {}, aWait := none, cWait := none }
    s.modTile site (fun t => { t with done := t.done ++ [fin] })

/-- R107. While it waits, the A-stream issues nothing else. -/
def execDone (s : State) : Out :=
  wordTo .done s (fun s => do
    let (site, slot, c) ← s.here
    if s.cRetired site slot c && (s.ownCommands site slot c).isEmpty then
      match c.partPort with
      | some p => trapWith .illop (BitVec.ofNat 64 p)
      | none => .ok ((s.endTask site slot c).modTile site (·.count 1 1))
    else .error (.goto ((s.setCtx site slot { c with atDone := true }).block .done .retire)))

/-- R108: a switch; the task stays resident and ready. -/
def execYield (s : State) : Out :=
  word .yield s (fun s => do
    let (site, _, _) ← s.here
    .ok (s.modTile site (fun t => { t with cur := none })))

/-! ## Step boundaries (R109) -/

/-- Does the tile hold a cell of the launch's grid? -/
def Launch.holdsCell (l : Launch) (site : Nat) : Bool := l.cells.any (fun p => p.2 == site)

/-- The tile arrives at the step path, once a phase (R109). -/
def State.stepArrive (s : State) (launch site : Nat) : State :=
  s.modLaunch launch (fun l =>
    if l.holdsCell site && !l.stepArr.contains site then { l with stepArr := l.stepArr ++ [site] } else l)

/-- R109: `rel.g` and the arrival come first, then the wait for the phase, then `acq.g`. -/
def execStep (s : State) : Out :=
  word .step s (fun s => do
    let (site, _, c) ← s.here
    need (c.task.msg.dom == 0) .illdom
    let l := c.task.msg.launch
    let now := ((s.launch? l).map (·.stepPh)).getD 0
    match c.aWait.map (·.kind) with
    | some (WaitKind.step ph) =>
      await (decide (ph < now)) (.step ph)
      .ok ((s.dropClean site).acquired site)
    | _ => .error (.goto (((s.flushL1 site).stepArrive l site).block .step (.step now))))

/-! ## Safe points (R39 to R41, R110) -/

/-- Keep the registers a map names, the others read zero at resume (R41). -/
def keepRegs {α : Type} {n : Nat} (zero : α) (live : Nat → Bool) (v : Vector α n) : Vector α n :=
  Vector.ofFn (fun i : Fin n => if live i.val then v[i] else zero)

/-- The context as its image holds it (R39, R41): live registers, the pc after the `safept`, no tokens but the target
T = HELD + WANT. -/
def Ctx.saved (c : Ctx) (m0 m1 m2 : Word) : Ctx :=
  { c with
    pc := pcCut (c.pc + 4)
    aFront := []
    x := keepRegs 0 (fun i => m0.getLsbD i) c.x
    s := keepRegs 0 (fun i => m1.getLsbD i) c.s
    v := keepRegs 0 (fun i => m2.getLsbD i) c.v
    acc := keepRegs 0 (fun i => m2.getLsbD (28 + i)) c.acc
    mstat := keepRegs 0 (fun i => m2.getLsbD (28 + i)) c.mstat
    inp := vput (Vector.replicate 4 []) 3 (vget [] c.inp 3)
    tok := { want := c.tok.held + c.tok.want }
    aWait := none
    cWait := none
    marks := [] }

/-- The units that a map saves; their errors are met when they are read for the image (R385). -/
def liveUnits (m0 m1 m2 : Word) : List RegUnit :=
  ((bitList (m0.setWidth 48)).map (RegUnit.reg .A)) ++ ((bitList (m1.setWidth 48)).map (RegUnit.reg .C)) ++
  ((bitList (m2.setWidth 28)).map RegUnit.vreg) ++ ((bitList (fld m2 28 8 : BitVec 8)).map RegUnit.bank)

/-- The queues are empty and nothing is partly written (R40). -/
def Ctx.quiet (c : Ctx) : Bool :=
  c.q.toList.all (·.isEmpty) && c.vq.toList.all (·.isEmpty) && c.partPort.isNone

/-- Is it the image of a tile that is this launch's? Launches that were pre-empted on one site have an image each (R276,
R277). -/
def Image.isOf (i : Image) (site launch : Nat) : Bool := i.site == site && i.launch == launch

/-- The image of a launch's tile. -/
def State.imageOf (s : State) (site launch : Nat) : Option Image := s.images.find? (·.isOf site launch)

/-- Add a saved context to the image of the launch's tile (R276). -/
def State.addImage (s : State) (site vi launch : Nat) (c : Ctx) : State :=
  if s.images.any (·.isOf site launch) then
    { s with images := s.images.map (fun i => if i.isOf site launch then { i with ctxs := i.ctxs ++ [c] } else i) }
  else { s with images := s.images ++ [{ site := site, vi := vi, launch := launch, ctxs := [c] }] }

/-- Bytes that lie in one line, read at its home slice. -/
def State.homePiece (s : State) (sp : Space) (va : Word) (n : Nat) : Try (List Byte × State) := do
  let (_, k, s) ← s.reach sp .load va
  let s := s.lineErrors k sp.launch
  if s.poisoned k then trapWith .poison 0 va
  else .ok (lineBytes (s.lineAt k) (va.toNat % 64) n, s)

/-- A doubleword of global memory read for the task's own machinery at the home slice, and at two where it crosses a line:
no alignment is asked of the lists that a record names (R355, R365). (DESIGN CHOICE, log 103.) -/
def State.homeWord (s : State) (sp : Space) (va : Word) : Try (Word × State) := do
  let n := Nat.min 8 (64 - va.toNat % 64)
  let (a, s) ← s.homePiece sp va n
  if n = 8 then .ok (leWord a, s)
  else
    let (b, s) ← s.homePiece sp (va + BitVec.ofNat 64 n) (8 - n)
    .ok (leWord (a ++ b), s)

/-- R110: `nop` unless a pending request can be honoured; then the image is saved, or in an ordered domain the task is
aborted. -/
def execSafept (n : BitVec 8) (s : State) : Out :=
  wordTo (.safept n) s (fun s => do
    let (site, slot, c) ← s.here
    let honoured := (s.tile site).preempt.isSome && s.cRetired site slot c && c.quiet
    if !honoured then .ok (s.retire .A)
    else if c.task.msg.dom != 0 then .error (.goto (s.abortPlain site slot))
    else
      let at_ := (c.safemap &&& safemapMask) + 32 * n.setWidth 64
      let sp := s.spaceOf site
      let (m0, s) ← s.homeWord sp at_
      let (m1, s) ← s.homeWord sp (at_ + 8)
      let (m2, s) ← s.homeWord sp (at_ + 16)
      let (m3, s) ← s.homeWord sp (at_ + 24)
      need (fld m0 48 16 == 0 && fld m1 48 16 == 0 && fld m2 36 28 == 0 && m3 == 0) .illop
      let s ← (liveUnits m0 m1 m2).foldlM (fun s u => s.scrub site slot u) s
      let s := s.endTokens site c
      let s := s.addImage site c.task.msg.vi c.task.msg.launch (c.saved m0 m1 m2)
      .ok ((s.freeSlot site slot).modTile site (·.count 1 1)))

/-- R111. -/
def execTrap (n : BitVec 8) (s : State) : Out :=
  wordTo (.trap n) s (fun _ => trapWith .swtrap (n.setWidth 64))

/-- R111. -/
def execBrk (n : BitVec 8) (s : State) : Out :=
  wordTo (.brk n) s (fun _ => trapWith .brk (n.setWidth 64))

end Sys2Proof.Machine
end

