-- ==== Sys2Proof/Machine/FullEmpty.lean ====
section
/-! DEFINITION. Full/empty accesses (R126, R127). -/

namespace Sys2Proof.Machine

/-- What a full/empty form waits for and does (R126). -/
structure FeForm where
  /-- The state both tags must be in, none for `stx`. -/
  wants : Option Bool
  /-- The tags afterwards. -/
  after : Bool
  /-- Does it write the data? -/
  stores : Bool
  /-- Bytes: 4 or 8. -/
  size : Nat

def feLdf (n : Nat) : FeForm := ⟨some true, true, false, n⟩
def feLdt (n : Nat) : FeForm := ⟨some true, false, false, n⟩
def feStf (n : Nat) : FeForm := ⟨some false, true, true, n⟩
def feStx (n : Nat) : FeForm := ⟨none, true, true, n⟩

/-- The words of an access. -/
def feWords (word : Nat) (two : Bool) : List Nat := if two then [word, word + 1] else [word]

/-- The bytes of an access. -/
def FePort.size (f : FePort) : Nat := if f.two then 8 else 4

/-- Are the tags in the state that an access waits for? -/
def Tile.feReady (t : Tile) (word : Nat) (f : FePort) : Bool := (feWords word f.two).all (fun w => t.full w == f.wants)

/-- An access of a tile acts at the port: the value it reads, and its effect on data and tags. -/
def State.feAct (s : State) (site target word : Nat) (f : FePort) (launch : Nat) : Try (Word × State) := do
  let (bs, s) ← (if f.stores then .ok ([], s.writeBy site target (4 * word) (leBytes f.size f.data.toNat))
    else s.spadRead target (4 * word) f.size (some launch) : Try (List Byte × State))
  .ok (leWord bs, s.modTile target (fun t => (feWords word f.two).foldl (fun t w => t.setTag w f.after) t))

/-- A waiting access of a port that can act now: its order of arrival, its context, its words. -/
structure FeWaiter where
  arrival : Nat
  site    : Nat
  slot    : Nat
  word    : Nat
  port    : FePort
  launch  : Nat

/-- The accesses that wait at a tile's port and whose condition holds now. -/
def State.feWaiters (s : State) (target : Nat) : List FeWaiter :=
  let t := s.tile target
  ((List.range 16).map (fun i =>
    let x := clusterSite target i
    (s.tile x).ctxs.toList.zipIdx.filterMap (fun p => match p.1 with
      | none => none
      | some c => match c.aWait.map (·.kind) with
        | some (WaitKind.fullEmpty tg w f arr none) =>
          if tg == target && t.feReady w f && !t.overlaps (4 * w) f.size true &&
            !(f.stores && (s.tile x).unread c c.popped) then some ⟨arr, x, p.2, w, f, c.task.msg.launch⟩ else none
        | _ => none))).flatten

/-- The wait of an access that has acted at the port. -/
def Ctx.feDone (c : Ctx) (v : Word) : Ctx :=
  { c with aWait := c.aWait.map (fun w => match w.kind with
      | .fullEmpty a b f arr _ => { w with kind := .fullEmpty a b f arr (some v) }
      | _ => w) }

/-- The port serves its waiting accesses in the order they arrived, as long as the condition of one holds (R126). One
that meets an error is left to raise it. (DEDUCED, log 36.) -/
def State.feServe (s : State) (target : Nat) : Nat → State
  | 0 => s
  | n + 1 =>
    let first := (s.feWaiters target).foldl (fun m x => match m with
      | none => some x
      | some y => if x.arrival < y.arrival then some x else some y) (none : Option FeWaiter)
    match first with
    | none => s
    | some x => match (s.tagErrors target (4 * x.word) x.port.size (some x.launch)).bind
        (fun s => s.feAct x.site target x.word x.port x.launch) with
      | .ok (v, s) => (s.modCtx x.site x.slot (·.feDone v)).feServe target n
      | .error _ => s

/-- The most accesses that can wait at a port: 4 contexts on each of 16 tiles. -/
def fePorts : Nat := 64

/-- A full/empty access at the scratchpad port of its target (R126): one that the port has served completes with what it
read; one whose condition holds acts, unless an earlier one on its words is due; else it waits. One that has come to the
port keeps its place there while an engine's range overlaps its words. A form that waits for a tag reads it, and meets its
errors (R385). -/
def State.feAccess (s : State) (site : Nat) (c : Ctx) (f : FeForm) (ea : Word) (data : Word) :
    Try (Word × State) := do
  need (c.task.msg.dom == 0) .illdom 0 ea
  need (isLocal ea) .localrange 1 ea
  need (aligned ea f.size) .align 0 ea
  let (target, off) ← s.localCheck site ea f.size
  let w := off / 4
  let p : FePort := ⟨f.size == 8, f.wants.getD false, f.after, f.stores, data⟩
  match c.aWait.map (·.kind) with
  | some (WaitKind.fullEmpty _ _ _ _ (some v)) => .ok (v, s)
  | waits => do
    let held := waits.bind (fun k => match k with
      | WaitKind.fullEmpty _ _ _ arr _ => some arr
      | _ => none)
    let arr := held.getD (s.tile target).seq
    let k := WaitKind.fullEmpty target w p arr none
    await (!(s.tile target).overlaps off f.size true && !s.heldBack) (if held.isSome then k else .scoreboard)
    let s ← (if f.wants.isSome then s.tagErrors target off f.size (some c.task.msg.launch) else .ok s : Try State)
    await (f.wants.isNone || (s.tile target).feReady w p) k
    await (f.wants.isNone || !(s.feWaiters target).any (fun x => decide (x.arrival < arr) &&
      (feWords x.word x.port.two).any (feWords w p.two).contains)) k
    let (v, s) ← s.feAct site target w p c.task.msg.launch
    .ok (v, s.feServe target fePorts)

/-- A full/empty load: the word is zero-extended (R126). -/
def feLoad (i : Instr) (f : FeForm) (d b : Spec) (z : BitVec 3) (o : BitVec 7) (s : State) : Out :=
  word i s (fun s => do
    let (base, s) ← s.src .A b
    let (site, _, c) ← s.here
    let (v, s) ← s.feAccess site c f (effAddr base o z f.size) 0
    s.dst .A d v)

/-- A full/empty store. -/
def feStore (i : Instr) (f : FeForm) (d b : Spec) (z : BitVec 3) (o : BitVec 7) (s : State) : Out :=
  word i s (fun s => do
    let (base, s) ← s.src .A b
    let (v, s) ← s.src .A d
    let (site, _, c) ← s.here
    let (_, s) ← s.feAccess site c f (effAddr base o z f.size) v
    .ok s)

def execLdfW (d b : Spec) (z : BitVec 3) (o : BitVec 7) (s : State) : Out := feLoad (.ldfW d b z o) (feLdf 4) d b z o s
def execLdfD (d b : Spec) (z : BitVec 3) (o : BitVec 7) (s : State) : Out := feLoad (.ldfD d b z o) (feLdf 8) d b z o s
def execLdtW (d b : Spec) (z : BitVec 3) (o : BitVec 7) (s : State) : Out := feLoad (.ldtW d b z o) (feLdt 4) d b z o s
def execLdtD (d b : Spec) (z : BitVec 3) (o : BitVec 7) (s : State) : Out := feLoad (.ldtD d b z o) (feLdt 8) d b z o s
def execStfW (d b : Spec) (z : BitVec 3) (o : BitVec 7) (s : State) : Out := feStore (.stfW d b z o) (feStf 4) d b z o s
def execStfD (d b : Spec) (z : BitVec 3) (o : BitVec 7) (s : State) : Out := feStore (.stfD d b z o) (feStf 8) d b z o s
def execStxW (d b : Spec) (z : BitVec 3) (o : BitVec 7) (s : State) : Out := feStore (.stxW d b z o) (feStx 4) d b z o s
def execStxD (d b : Spec) (z : BitVec 3) (o : BitVec 7) (s : State) : Out := feStore (.stxD d b z o) (feStx 8) d b z o s

/-- Set the tags of a range word by word; each change lets the port serve what waits there (R127). A length of 0 does
nothing, whatever the start is (DEDUCED, log 18). -/
def feRange (i : Instr) (full : Bool) (a b : Spec) (s : State) : Out :=
  word i s (fun s => do
    let (start, s) ← s.src .A a
    let (len, s) ← s.src .A b
    let (site, _, c) ← s.here
    let n := len.toNat % 2 ^ 32
    domCheck c site start
    if n = 0 then .ok s
    else
      need (isLocal start) .localrange 1 start
      need (aligned start 4 && n % 4 == 0) .align 0 start
      let (target, off) ← s.localCheck site start n
      s.scoreboard target off n true
      .ok ((List.range (n / 4)).foldl (fun s k =>
        (s.modTile target (·.setTag (off / 4 + k) full)).feServe target fePorts) s))

def execFefill (a b : Spec) (s : State) : Out := feRange (.fefill a b) true a b s
def execFeempty (a b : Spec) (s : State) : Out := feRange (.feempty a b) false a b s

end Sys2Proof.Machine
end

