-- ==== Sys2Proof/Machine/VecMem.lean ====
section
/-! DEFINITION. Vector loads and stores between scratchpads and the vector queues (R10, R22, R28, R29, R73, R128 to
R130). -/

namespace Sys2Proof.Machine

/-- The shape that the A-stream's vector words use (R10, R113): that of the last `vshape` or `syswr.c VSHAPE` fetched
before. A pending `syswr.c` has no value yet. -/
def shapeAhead : List (Word × IWord) → Option Word → Option Word
  | [], cur => cur
  | (_, w) :: r, cur =>
    match decode .tile w with
    | .ok (.vshape rows k) => shapeAhead r (some ((k ++ 0#2 ++ rows).setWidth 64))
    | .ok (.syswr .C _ 1) => shapeAhead r none
    | _ => shapeAhead r cur

/-- VSHAPE as of the A-stream's place in program order; none while a `syswr.c` is pending. -/
def Ctx.shapeHere (c : Ctx) : Option Word :=
  match c.aFront with
  | a :: _ => some a.shape
  | [] => shapeAhead c.front (some c.vshape)

/-- The shape for a vector memory word; it waits for a pending `syswr.c`. -/
def Ctx.aShape (c : Ctx) : Try (Nat × Nat) :=
  match c.shapeHere with
  | some v => .ok (shapeRows v, shapeCols v)
  | none => .error (.wait .retire)

/-- A window's descriptor; window 0 is raw (R28). -/
def Tile.window (t : Tile) (w : Nat) : Word := if w = 0 then 0xE else vget 0 t.wd w &&& wdMask

/-- FMT, SFMT, ASF and SOFF of a descriptor (R28). -/
def wdFmt (d : Word) : Nat := (fld d 0 4).toNat
def wdSfmt (d : Word) : Nat := (fld d 4 2).toNat
def wdAsf (d : Word) : Bool := d.getLsbD 6
def wdSoff (d : Word) : Nat := (fld d 8 22).toNat

/-- The element type of a window for a vector word: none for raw bytes; WINFMT where R29 forbids the window. -/
def vecWindow (d : Word) : Try (Option VType) :=
  if wdSfmt d ≠ 0 ∨ wdAsf d = true then trapWith .winfmt
  else match vtypeOf (BitVec.ofNat 4 (wdFmt d)) with
    | some t => .ok (some t)
    | none => if wdFmt d = 14 then .ok none else trapWith .winfmt

/-- Bytes of an element of a window for a vector word: of its format's type, 1 for raw bytes (R128) and for a format that
is no vector type, which R29 forbids (DESIGN CHOICE, log 97). The limit of R22 counts them before R29 is checked (R422). -/
def windowSize (d : Word) : Nat := ((vtypeOf (BitVec.ofNat 4 (wdFmt d))).map (·.size)).getD 1

/-- Pieces of [a, a + n) that lie in one 16-byte unit, each swizzled (R73). -/
def swzPieces (z : BitVec 3) (a : Word) : Nat → Nat → List (Word × Nat)
  | 0, _ => []
  | fuel + 1, n =>
    if n = 0 then []
    else
      let k := Nat.min n (16 - a.toNat % 16)
      (swizzle z a, k) :: swzPieces z (a + BitVec.ofNat 64 k) fuel (n - k)

/-- The row starts of a pitched form (R128). -/
def pitchRows (base pitch : Word) (r : Nat) : List Word :=
  (List.range r).map (fun k => base + BitVec.ofNat 64 k * pitch)

/-- Check a row as a local address of its own (R27, R128): its window is W. Answers target and pieces. -/
def State.checkRow (s : State) (site w : Nat) (z : BitVec 3) (a : Word) (n : Nat) : Try (Nat × List (Word × Nat)) := do
  need (locWin a == w) .localrange 0 a
  let (target, _) ← s.localCheck site a n
  .ok (target, swzPieces z a n n)

/-- Read a checked row. -/
def State.readRow (s : State) (launch : Nat) (row : Nat × List (Word × Nat)) : Try (List Byte × State) :=
  row.2.foldlM (fun (acc : List Byte × State) p => do
    acc.2.scoreboard row.1 (locOff p.1) p.2 false
    let r ← acc.2.spadRead row.1 (locOff p.1) p.2 (some launch)
    .ok (acc.1 ++ r.1, r.2)) ([], s)

/-- Write a checked row. -/
def State.writeRow (s : State) (site : Nat) (row : Nat × List (Word × Nat)) (bs : List Byte) : State :=
  (row.2.foldl (fun (acc : List Byte × State) p =>
    (acc.1.drop p.2, acc.2.writeBy site row.1 (locOff p.1) (acc.1.take p.2))) (bs, s)).2

/-- The row offsets of an indexed form (R128): u32 entries at a local table. -/
def State.indexRows (s : State) (site launch : Nat) (base table : Word) (r : Nat) : Try (List Word × State) := do
  let (target, off) ← s.localCheck site table (4 * r)
  s.scoreboard target off (4 * r) false
  let (bs, s) ← s.spadRead target off (4 * r) (some launch)
  .ok ((List.range r).map (fun k => base + BitVec.ofNat 64 (leNat ((bs.drop (4 * k)).take 4))), s)

/-- Bytes as a vector register's contents. -/
def bytesReg (bs : List Byte) : VReg := BitVec.ofNat 32768 (leNat bs)

/-- The row starts of a form: pitched, or through an index table, whose address is checked first (DEDUCED, log 16). -/
def State.rowStarts (s : State) (site launch : Nat) (indexed : Bool) (base b : Word) (r : Nat) :
    Try (List Word × State) :=
  if indexed then do
    need (isLocal b) .localrange 1 b
    need (aligned b 4) .align 0 b
    s.indexRows site launch base b r
  else .ok (pitchRows base b r, s)

/-- A vector load (R128, R129). A global base names no window. (DESIGN CHOICE, log 97.) -/
def vecLoad (i : Instr) (indexed one : Bool) (v : VSpec) (a b : Spec) (z : BitVec 3) (s : State) : Out :=
  word i s (fun s => do
    need (decide (28 ≤ v.toNat) && decide (v.toNat < 30)) .illop
    let (base, s) ← s.src .A a
    let (pb, s) ← s.src .A b
    let (site, slot, c) ← s.here
    let q := v.toNat - 28
    await (decide ((vget [] c.vq q).length < 4)) .queue
    let (rows, cols) ← c.aShape
    let w := locWin base
    let d := (s.tile site).window w
    let size := if isLocal base then windowSize d else 1
    need (decide (rows * cols * size ≤ 4096)) .shape
    let ty ← (if isLocal base then vecWindow d else .ok none : Try (Option VType))
    need (isLocal base) .localrange 1 base
    let (starts, s) ← s.rowStarts site c.task.msg.launch indexed base pb rows
    let len := if one then size else cols * size
    let chk ← starts.mapM (fun x => s.checkRow site w z x len)
    let (bs, s) ← chk.foldlM (fun (acc : List Byte × State) row => do
      let r ← acc.2.readRow c.task.msg.launch row
      .ok (acc.1 ++ (if one then (List.replicate cols r.1).flatten else r.1), r.2)) ([], s)
    let e : VEntry := { rows := rows, cols := cols, ty := ty.getD .u8, data := bytesReg bs }
    .ok (s.modCtx site slot (fun c => { c with vq := vput c.vq q (vget [] c.vq q ++ [e]) })))

/-- Bytes [o, o + n) of a vector register. -/
def regBytes (v : VReg) (o n : Nat) : List Byte := (List.range n).map (fun k => v.extractLsb' (8 * (o + k)) 8)

/-- A vector store (R128, R129). A global base names no window. (DESIGN CHOICE, log 97.) ILLDOM of a row that the index
table of `vstx` places in another tile is known, and raised, only once the table has been read. (DEDUCED, log 16.) -/
def vecStore (i : Instr) (indexed : Bool) (v : VSpec) (a b : Spec) (z : BitVec 3) (s : State) : Out :=
  word i s (fun s => do
    need (decide (30 ≤ v.toNat)) .illop
    let (base, s) ← s.src .A a
    let (pb, s) ← s.src .A b
    let (site, slot, c) ← s.here
    let q := v.toNat - 28
    let (rows, cols) ← c.aShape
    match vget [] c.vq q with
    | [] => .error (.wait .queue)
    | e :: rest =>
      let dom := c.task.msg.dom
      need (dom == 0 || indexed || (pitchRows base pb rows).all (fun x => !otherTile site x)) .illdom 0 base
      let w := locWin base
      let d := (s.tile site).window w
      let size := if isLocal base then windowSize d else 1
      need (decide (rows * cols * size ≤ 4096) && e.rows == rows && e.cols == cols) .shape
      let ty ← (if isLocal base then vecWindow d else .ok none : Try (Option VType))
      need (ty.all (· == e.ty)) .winfmt
      need (isLocal base) .localrange 1 base
      let (starts, s) ← s.rowStarts site c.task.msg.launch indexed base pb rows
      need (dom == 0 || starts.all (fun x => !otherTile site x)) .illdom 0 base
      let len := cols * e.ty.size
      let chk ← starts.mapM (fun x => s.checkRow site w z x len)
      let s := s.modCtx site slot (fun c => { c with vq := vput c.vq q rest, popped := Nat.max c.popped e.mark })
      chk.forM (fun row => row.2.forM (fun p => s.scoreboard row.1 (locOff p.1) p.2 true))
      .ok ((chk.zipIdx).foldl (fun s p => s.writeRow site p.1 (regBytes e.data (p.2 * len) len)) s))

def execVld (v : VSpec) (a b : Spec) (z : BitVec 3) (s : State) : Out := vecLoad (.vld v a b z) false false v a b z s
def execVst (v : VSpec) (a b : Spec) (z : BitVec 3) (s : State) : Out := vecStore (.vst v a b z) false v a b z s
def execVldx (v : VSpec) (a b : Spec) (z : BitVec 3) (s : State) : Out := vecLoad (.vldx v a b z) true false v a b z s
def execVstx (v : VSpec) (a b : Spec) (z : BitVec 3) (s : State) : Out := vecStore (.vstx v a b z) true v a b z s
def execVldb (v : VSpec) (a b : Spec) (z : BitVec 3) (s : State) : Out := vecLoad (.vldb v a b z) false true v a b z s

end Sys2Proof.Machine
end

