-- ==== Sys2Proof/Machine/Order.lean ====
section
/-! DEFINITION. `acq`, `rel` and `fence` (R131 to R134), on a tile and on a Croft core (R392). Accesses are performed
in program order here, so what remains of an acquire or release is its effect on the caches. -/

namespace Sys2Proof.Machine

/-- Drop the clean lines of a Croft core's cache. -/
def Croft.dropClean (c : Croft) : Croft := { c with cache := c.cache.filter (fun l => l.mask != 0) }

/-- Write to HBM the backed lines that a Croft core wrote since its last `rel.h`. -/
def State.croftHbm (s : State) (n : Nat) : State :=
  (s.croft n).wrote.foldl (fun s k => s.toHbm k) (s.modCroft n (fun c => { c with wrote := [] }))

/-- R132. Loads are performed in order here; an operand read that serves several tiles is older than the acquire (R189). -/
def execAcq (o : Scope) (s : State) : Out :=
  word (.acq o) s (fun s =>
    match s.turn with
    | .croft n => .ok (if o = .t then s else s.modCroft n Croft.dropClean)
    | .tile site _ _ => .ok ((if o = .t then s else s.dropClean site).acquired site))

/-- R131, R134. -/
def execRel (o : Scope) (s : State) : Out :=
  word (.rel o) s (fun s =>
    match s.turn with
    | .croft n =>
      .ok (match o with
        | .t => s
        | .g => s.croftFlush n
        | .h => (s.croftFlush n).croftHbm n)
    | .tile _ _ _ => do
      let (site, slot, c) ← s.here
      .ok (if c.task.msg.dom != 0 then s
        else match o with
          | .t => s
          | .g => s.flushL1 site
          | .h => (s.flushL1 site).flushHbm site slot))

/-- R133. The fetch unit stops at a `fence`, so no later word issues while it waits; the operand reads of commands
written to e4 are reads of the C-stream (R310). -/
def execFence (s : State) : Out :=
  word .fence s (fun s =>
    match s.turn with
    | .croft _ => .ok s
    | .tile _ _ _ => do
      let (site, slot, c) ← s.here
      await (s.cRetired site slot c && !(s.tile site).unread c (s.tile site).seq) .fence
      .ok (s.acquired site))

end Sys2Proof.Machine
end

