-- ==== Sys2Proof/Machine/Range.lean ====
section
/-! DEFINITION. Range operations and `pmig` (R135 to R137). -/

namespace Sys2Proof.Machine

/-- The first line of a range of bytes and the number of lines (R135). -/
def rangeLines (start : Word) (len : Nat) : Nat × Nat :=
  if len = 0 then (0, 0) else (start.toNat / 64, (start.toNat + len - 1) / 64 - start.toNat / 64 + 1)

/-- Is the line in the range? -/
def inRange (r : Nat × Nat) (line : Nat) : Bool := decide (r.1 ≤ line) && decide (line < r.1 + r.2)

/-- The operands of a range operation: start and length. -/
def State.rangeOps (s : State) (a b : Spec) : Try (Word × Nat × State) := do
  let (start, s) ← s.src .A a
  let (len, s) ← s.src .A b
  .ok (start, len.toNat % 2 ^ 32, s)

/-- The lines of a Croft core's cache in a range of its addresses: physical at level F; at level D those that its
tables map the range to, a line without a translation being skipped (R392). -/
def State.croftRange (s : State) (n : Nat) (r : Nat × Nat) : List CroftLine :=
  (s.croft n).cache.filter (fun l =>
    if (s.croft n).level then
      match l.key with
      | .pa k => inRange r k
      | .unb _ _ => false
    else (List.range r.2).any (fun i =>
      match s.croftPlace n .load (BitVec.ofNat 64 (64 * (r.1 + i))) with
      | .ok (.line k _, _) => k == l.key
      | _ => false))

/-- Write back the lines of a range, and drop them when `drop` holds (R135). The task's own speculative lines stay as they
are (R137); one that another task of the tile holds is written back and stays (DEDUCED, log 99). -/
def rangeBack (i : Instr) (drop : Bool) (a b : Spec) (s : State) : Out :=
  word i s (fun s => do
    let (start, len, s) ← s.rangeOps a b
    let r := rangeLines start len
    match s.turn with
    | .croft n =>
      .ok ((s.croftRange n r).foldl (fun s l => if drop then s.croftEvict n l else s.croftClean n l) s)
    | .tile _ _ _ => do
      let (site, _, c) ← s.here
      if isLocal start then .ok s
      else
        let lines := (s.tile site).l1.filter (fun l => l.asid == s.asidOf site && inRange r l.line &&
          !c.specLines.contains l.line)
        .ok (lines.foldl (fun s l =>
          if drop && !(s.tile site).specHeld l.line then s.evictLine site l
          else if l.mask = 0 then s else s.writeBack site l) s))

def execCwb (a b : Spec) (s : State) : Out := rangeBack (.cwb a b) false a b s
def execCinv (a b : Spec) (s : State) : Out := rangeBack (.cinv a b) true a b s

/-- The line of a prefetch, present: one that cannot be placed is skipped, and no page is converted for it (R290). -/
def State.prefTouch (s : State) (l : Leaf) (va : Word) : Option (LineKey × State) :=
  let k := l.key va
  if pteUnb l.pte then (s.placeLine (s.homeField (pteHome l.pte) k) l.asid k).map (fun s => (k, s))
  else some (k, s)

/-- Prefetch one line: into the L1 when `near` holds and the attribute allocates there. A line whose translation would
fault is skipped (R135). -/
def State.prefetch (s : State) (site : Nat) (near : Bool) (line : Nat) : State :=
  let va := BitVec.ofNat 64 (64 * line)
  if near && ((s.tile site).l1find (s.asidOf site) line).isSome then s
  else
    match s.translate (s.spaceOf site) .load va with
    | .error _ => s
    | .ok (leaf, s') =>
      match s'.prefTouch leaf va with
      | none => s'
      | some (k, s') =>
        if near && pteAttr leaf.pte == 0 then
          ((s'.lineErrors k (s'.tile site).launch).fillLine site leaf.asid line k (pteW leaf.pte && pteD leaf.pte)).2
        else s'

/-- Prefetch the lines of a range. -/
def rangePf (i : Instr) (near : Bool) (a b : Spec) (s : State) : Out :=
  word i s (fun s => do
    let (start, len, s) ← s.rangeOps a b
    let (site, _, _) ← s.here
    if isLocal start then .ok s
    else
      let r := rangeLines start len
      .ok ((List.range r.2).foldl (fun s k => s.prefetch site near (r.1 + k)) s))

def execPf (a b : Spec) (s : State) : Out := rangePf (.pf a b) true a b s
def execPf2 (a b : Spec) (s : State) : Out := rangePf (.pf2 a b) false a b s

/-- Drop a line everywhere without write-back (R135, R293). Dropping takes its marks away (R386); the HBM contents of a
backed line keep their own. (DEDUCED, log 58.) -/
def State.discard (s : State) (k : LineKey) : State :=
  let held := k.isUnb || (s.l2find k).isSome
  let s := { s with
    l2 := s.l2.filter (·.key != k)
    tiles := s.tiles.map (fun p => (p.1, if p.2.l1.any (·.key == k)
      then { p.2 with l1 := p.2.l1.filter (·.key != k) } else p.2)) }
  if held then
    { s with poison := s.poison.filter (· != k) ++ (if s.hbmPoison.any (fun n => LineKey.pa n == k) then [k] else [])
             hbmPoison := s.hbmPoison.filter (fun n => LineKey.pa n != k)
             bad := s.bad.filter (· != k), weak := s.weak.filter (· != k) }
  else s

/-- The page checks of `disc` on one line: W on every page, pages not present skipped (R135). -/
def State.discLine (s : State) (site : Nat) (line : Nat) : Try State :=
  let va := BitVec.ofNat 64 (64 * line)
  match s.translate (s.spaceOf site) .own va with
  | .ok (leaf, s') => .ok (s'.discard (leaf.key va))
  | .error (.trap t) => if t.code = .pagenp then .ok s else .error (.trap t)
  | .error e => .error e

/-- R135, R137. A length of 0 does nothing, whatever the start is (DEDUCED, log 18). -/
def execDisc (a b : Spec) (s : State) : Out :=
  word (.disc a b) s (fun s => do
    let (start, len, s) ← s.rangeOps a b
    let (site, _, c) ← s.here
    need (c.task.msg.dom == 0) .illdom 0 start
    if len = 0 then .ok s
    else
      need (!isLocal start) .localrange 1 start
      need (aligned start 64 && len % 64 == 0) .align 0 start
      let r := rangeLines start len
      (List.range r.2).foldlM (fun s k => s.discLine site (r.1 + k)) s)

/-- The field whose rehome engine moves a page: its home field, or for a spread page that of its first line (R294). -/
def State.migField (s : State) (l : Leaf) : Nat :=
  s.homeField (pteHome l.pte) (.unb l.asid (64 * l.vpage))

/-- Queue a migration; a second one of a page that is waiting or moving replaces the target (R136). -/
def State.queueMigration (s : State) (f : Nat) (m : Migration) : State :=
  let same (x : Migration) : Bool := x.vi == m.vi && x.asid == m.asid && x.vpage == m.vpage
  if s.fields.any (fun p => p.2.migrations.any same) then
    { s with fields := s.fields.map (fun p => (p.1, { p.2 with
        migrations := p.2.migrations.map (fun x => if same x then { x with target := m.target } else x) })) }
  else s.modField f (fun g => { g with migrations := g.migrations ++ [m] })

/-- R136, R137. (DEDUCED, log 59.) -/
def execPmig (a b : Spec) (s : State) : Out :=
  word (.pmig a b) s (fun s => do
    let (va, s) ← s.src .A a
    let (fv, s) ← s.src .A b
    let (site, _, c) ← s.here
    need (c.task.msg.dom == 0) .illdom 0 va
    need (!isLocal va) .localrange 1 va
    need (aligned va 4096) .align 0 va
    let (leaf, s) ← s.translate (s.spaceOf site) .own va
    need (aligned va (4096 * leaf.span)) .align 0 va
    need (pteUnb leaf.pte) .prot 0 va
    let f := fv.toNat % 128
    need (match s.launch? c.task.msg.launch with
      | some l => l.fields.contains f
      | none => false) .prot 1 va
    .ok (s.queueMigration (s.migField leaf)
      { vi := c.task.msg.vi, asid := leaf.asid, vpage := leaf.vpage, target := f }))

end Sys2Proof.Machine
end

