-- ==== Sys2Proof/Machine/Atomic.lean ====
section
/-! DEFINITION. Atomics, compare and swap, and `atopk` (R138 to R143), on a tile and on a Croft core (R392). -/

namespace Sys2Proof.Machine

/-- The bytes an atomic acts on (R138, R141); `atopk` touches its first k slots only (R143). -/
def AtomOp.bytes : AtomOp → Nat
  | .addw => 4
  | .fadd => 4
  | .casw _ => 4
  | .topk k => 4 * k
  | .add => 8
  | .and => 8
  | .or => 8
  | .xor => 8
  | .min => 8
  | .max => 8
  | .minu => 8
  | .maxu => 8
  | .swap => 8
  | .load => 8
  | .store => 8
  | .cas _ => 8

/-- The alignment of an atomic's address (R138, R142). -/
def AtomOp.align (op : AtomOp) : Nat :=
  match op with
  | .topk _ => 16
  | _ => op.bytes

/-! ## Records of `atopk` (R142, R143) -/

/-- The score of a slot. -/
def slotScore (p : BitVec 32) : FVal := Fmt.bf16.unpack (p.toNat / 65536)
/-- The id of a slot. -/
def slotId (p : BitVec 32) : Nat := p.toNat % 65536
/-- Is the score a NaN? -/
def slotNaN (p : BitVec 32) : Bool := slotScore p == .nan

/-- The order between two slots (R142). -/
def better (p q : BitVec 32) : Bool :=
  if slotNaN q && !slotNaN p then true
  else (slotScore q).lt (slotScore p) || ((slotScore p).eqv (slotScore q) && decide (slotId p < slotId q))

/-- Insert a candidate into the first `k` slots: the slots and whether it entered (R143). -/
def insertTop (c : BitVec 32) (slots : List (BitVec 32)) : List (BitVec 32) × Bool :=
  if slotNaN c then (slots, false)
  else match lfind (better c) slots with
    | some i => (slots.take i ++ [c] ++ (slots.drop i).dropLast, true)
    | none => (slots, false)

/-- The slots of a record as words. -/
def recordSlots (old : Nat) (k : Nat) : List (BitVec 32) := (List.range k).map (fun i => BitVec.ofNat 32 (old / 2 ^ (32 * i)))

/-- A record from its slots. -/
def slotsNat : List (BitVec 32) → Nat
  | [] => 0
  | w :: r => w.toNat + 2 ^ 32 * slotsNat r

/-! ## The operations -/

/-- The new contents, none when nothing is written, and the value for d (R138, R141, R143). -/
def AtomOp.run (op : AtomOp) (b : Word) (old : Nat) : Option Nat × Word :=
  let w := BitVec.ofNat 64 old
  match op with
  | .add => (some (w + b).toNat, w)
  | .addw => (some (BitVec.ofNat 32 (old + b.toNat)).toNat, (BitVec.ofNat 32 old).signExtend 64)
  | .fadd =>
    let r := Fmt.fp32.round Modes.ne (FVal.add .rne (Fmt.fp32.unpack old) (Fmt.fp32.unpack (lowFp b))).1
    (some r.1, w)
  | .and => (some (w &&& b).toNat, w)
  | .or => (some (w ||| b).toNat, w)
  | .xor => (some (w ^^^ b).toNat, w)
  | .min => (some (if w.slt b then w else b).toNat, w)
  | .max => (some (if w.slt b then b else w).toNat, w)
  | .minu => (some (if w.ult b then w else b).toNat, w)
  | .maxu => (some (if w.ult b then b else w).toNat, w)
  | .swap => (some b.toNat, w)
  | .store => (some b.toNat, w)
  | .load => (none, w)
  | .cas cmp => (if w = cmp then some b.toNat else none, w)
  | .casw cmp =>
    (if old % 2 ^ 32 = cmp.toNat % 2 ^ 32 then some (b.toNat % 2 ^ 32) else none, (BitVec.ofNat 32 old).signExtend 64)
  | .topk k =>
    let r := insertTop (b.setWidth 32) (recordSlots old k)
    (if r.2 then some (slotsNat r.1) else none, boolWord r.2)

/-- The step of an atomic at the home slice of a line (R121): the value for d. -/
def State.atomAt (s : State) (k : LineKey) (o : Nat) (op : AtomOp) (b : Word) : Word × State :=
  let old := leNat (lineBytes (s.lineAt k) o op.bytes)
  match op.run b old with
  | (some new, v) => (v, s.lineWrite k o (leBytes op.bytes new))
  | (none, v) => (v, s)

/-- An atomic on a scratchpad, at its port (R121, R122). -/
def State.atomLocal (s : State) (site : Nat) (c : Ctx) (op : AtomOp) (ea b : Word) : Try (Word × State) := do
  let (target, off) ← s.localCheck site ea op.bytes
  s.scoreboard target off op.bytes true
  let (bs, s) ← s.spadRead target off op.bytes (some c.task.msg.launch)
  match op.run b (leNat bs) with
  | (some new, v) => .ok (v, s.writeBy site target off (leBytes op.bytes new))
  | (none, v) => .ok (v, s)

/-- An atomic of domain 0 on a global address (R138). -/
def State.atomGlobal (s : State) (site : Nat) (op : AtomOp) (ea b : Word) : Try (Word × State) := do
  let sp := s.spaceOf site
  let (_, k, s) ← s.reach sp .atomic ea
  let s := s.dropOwn site k
  let s := s.lineErrors k sp.launch
  if s.poisoned k then trapWith .poison 0 ea
  else .ok (s.atomAt k (ea.toNat % 64) op b |>.map id (·.noteHbm site k))

/-- Does the operation return its value to d? `astore` has no d. -/
def AtomOp.isCas : AtomOp → Bool
  | .cas _ => true
  | .casw _ => true
  | .add => false
  | .addw => false
  | .fadd => false
  | .and => false
  | .or => false
  | .xor => false
  | .min => false
  | .max => false
  | .minu => false
  | .maxu => false
  | .swap => false
  | .load => false
  | .store => false
  | .topk _ => false

/-- An atomic of a task: the value for d, none when d is not written (R138, R140, R141). -/
def State.atomTile (s : State) (op : AtomOp) (d : Spec) (ea b : Word) : Try (Option Word × State) := do
  let (site, slot, c) ← s.here
  let dom := c.task.msg.dom
  if isLocal ea then
    domCheck c site ea
    need (aligned ea op.align) .align 0 ea
    let (v, s) ← s.atomLocal site c op ea b
    .ok (some v, s)
  else if dom = 0 then
    need (aligned ea op.align) .align 0 ea
    let (v, s) ← s.atomGlobal site op ea b
    .ok (some v, s)
  else
    need (op != .load && (op.isCas || d == 0)) .illdom 0 ea
    need (aligned ea op.align) .align 0 ea
    let (_, s) ← s.translate (s.spaceOf site) .atomic ea
    .ok (if op.isCas then none else some 0, s.buffer site slot (.atomic op ea b c.pc))

/-- An atomic of a Croft core: its cached copy is written back and dropped, and it acts at the home slice. An atomic on
a device window is an access the interface drops (R351); the value it returns is not stated. -/
def State.atomCroft (s : State) (n : Nat) (op : AtomOp) (ea b : Word) : Try (Option Word × State) := do
  need (aligned ea op.align) .align 0 ea
  let (p, s) ← s.croftPlace n .atomic ea
  match p with
  | .line k _ =>
    let s := match (s.croft n).find k with
      | some l => s.croftEvict n l
      | none => s
    let s := s.lineErrors k none
    if s.poisoned k then trapWith .poison 0 ea
    else
      let (v, s) := s.atomAt k (ea.toNat % 64) op b
      .ok (some v, s.modCroft n (·.note k))
  | .page vi _ =>
    let (v, s) := s.draw
    .ok (some v, s.modVI vi (·.violate ea 1 0))
  | .window vi off =>
    let (v, s) := s.draw
    .ok (some v, s.modVI vi (·.violate ea 1 (off / 4096)))
  | .port k => .error (.refuse (.rootPortWindow k))

/-- An atomic of the agent whose turn it is. -/
def State.atom (s : State) (op : AtomOp) (d : Spec) (ea b : Word) : Try (Option Word × State) :=
  match s.turn with
  | .croft n => s.atomCroft n op ea b
  | .tile _ _ _ => s.atomTile op d ea b

/-- Is an atomic at the address one that the task's commit is to perform (R140)? -/
def State.buffersAtomic (s : State) (ea : Word) : Bool :=
  !isLocal ea && match s.turn with
    | .tile site slot _ => (s.ctx? site slot).any (fun c => c.task.msg.dom != 0)
    | .croft _ => false

/-- The ordering field (R139). A task's accesses are performed in the order of its program (log 8), so every earlier one
is performed when the atomic is sent, which is all that `.rel` asks; after `.acq` and `.ar` the tile has acquired, and what
it reads next is read after the atomic. Neither writes back nor invalidates the L1. A buffered atomic ignores the field
(R140). -/
def State.orderedBy (s : State) (o : MemOrder) (ea : Word) : State :=
  if s.buffersAtomic ea then s
  else
    match s.turn, o with
    | .tile site _ _, .acq => s.acquired site
    | .tile site _ _, .ar => s.acquired site
    | .tile _ _ _, .rlx => s
    | .tile _ _ _, .rel => s
    | .croft _, _ => s

/-- Write d unless the instruction returns nothing. -/
def State.dstOpt (s : State) (d : Spec) : Option Word → Try State
  | some v => s.dst .A d v
  | none => .ok s

/-- An atomic with two operands (R138, R139). -/
def atomic (i : Instr) (op : AtomOp) (d a b : Spec) (o : MemOrder) (s : State) : Out :=
  word i s (fun s => do
    let (ea, s) ← s.src .A a
    let (v, s) ← s.src .A b
    let (r, s) ← s.atom op d ea v
    (s.orderedBy o ea).dstOpt d r)

def execAadd (d a b : Spec) (o : MemOrder) (s : State) : Out := atomic (.aadd d a b o) .add d a b o s
def execAaddW (d a b : Spec) (o : MemOrder) (s : State) : Out := atomic (.aaddW d a b o) .addw d a b o s
def execFaadd (d a b : Spec) (o : MemOrder) (s : State) : Out := atomic (.faadd d a b o) .fadd d a b o s
def execAand (d a b : Spec) (o : MemOrder) (s : State) : Out := atomic (.aand d a b o) .and d a b o s
def execAor (d a b : Spec) (o : MemOrder) (s : State) : Out := atomic (.aor d a b o) .or d a b o s
def execAxor (d a b : Spec) (o : MemOrder) (s : State) : Out := atomic (.axor d a b o) .xor d a b o s
def execAmin (d a b : Spec) (o : MemOrder) (s : State) : Out := atomic (.amin d a b o) .min d a b o s
def execAmax (d a b : Spec) (o : MemOrder) (s : State) : Out := atomic (.amax d a b o) .max d a b o s
def execAminu (d a b : Spec) (o : MemOrder) (s : State) : Out := atomic (.aminu d a b o) .minu d a b o s
def execAmaxu (d a b : Spec) (o : MemOrder) (s : State) : Out := atomic (.amaxu d a b o) .maxu d a b o s
def execAswap (d a b : Spec) (o : MemOrder) (s : State) : Out := atomic (.aswap d a b o) .swap d a b o s
def execAtopk (d a b : Spec) (o : MemOrder) (k : BitVec 2) (s : State) : Out :=
  atomic (.atopk d a b o k) (.topk (k.toNat + 1)) d a b o s

/-- R138: `aload` has no operand b. -/
def execAload (d a : Spec) (o : MemOrder) (s : State) : Out :=
  word (.aload d a o) s (fun s => do
    let (ea, s) ← s.src .A a
    let (r, s) ← s.atom .load d ea 0
    (s.orderedBy o ea).dstOpt d r)

/-- R138: `astore` has no d. -/
def execAstore (a b : Spec) (o : MemOrder) (s : State) : Out :=
  word (.astore a b o) s (fun s => do
    let (ea, s) ← s.src .A a
    let (v, s) ← s.src .A b
    let (_, s) ← s.atom .store 0 ea v
    .ok (s.orderedBy o ea))

/-- Compare and swap: d is a register, read and written (R141). -/
def casWord (i : Instr) (op : Word → AtomOp) (d a b : Spec) (o : MemOrder) (s : State) : Out :=
  word i s (fun s => do
    needReg d
    let (ea, s) ← s.src .A a
    let (v, s) ← s.src .A b
    let (cmp, s) ← s.src .A d
    let (r, s) ← s.atom (op cmp) d ea v
    (s.orderedBy o ea).dstOpt d r)

def execAcas (d a b : Spec) (o : MemOrder) (s : State) : Out := casWord (.acas d a b o) .cas d a b o s
def execAcasW (d a b : Spec) (o : MemOrder) (s : State) : Out := casWord (.acasW d a b o) .casw d a b o s

end Sys2Proof.Machine
end

