-- ==== Sys2Proof/Machine/Fold.lean ====
section
/-! DEFINITION. Folds and horizons: bands, room, the entry of a pair and its pop (R33, R34, R251 to R256, R271), and
the horizon of an ordered domain (R264, R265). -/

namespace Sys2Proof.Machine

/-- BANDSH of a launch (R355 word 0). -/
def Launch.bandsh (l : Launch) : Nat := (fld (l.word 0) 29 5).toNat
/-- SPILLN of a launch (R355 word 10). -/
def Launch.spillN (l : Launch) : Nat := (fld (l.word 10) 0 32).toNat

/-- The band of a timestamp (R34). -/
def bandOf (base ts : BitVec 32) (sh : Nat) : Nat :=
  let d := ts - base
  if d.msb then 0 else Nat.min 15 (d.toNat >>> sh)

/-! ## The horizon (R265). (TS, none) stands for (TS, −∞). -/

/-- A place in the order of a domain. -/
abbrev Place := BitVec 32 × Option (BitVec 32)

/-- The order, −∞ first among equal timestamps. -/
def placeLt (a b : Place) : Bool :=
  ts32lt a.1 b.1 || (a.1 == b.1 && match a.2, b.2 with
    | none, some _ => true
    | some x, some y => ts32lt x y
    | _, none => false)

/-- The least of a list. -/
def leastPlace (l : List Place) : Option Place :=
  l.foldl (fun m k => match m with | none => some k | some x => if placeLt k x then some k else some x) none

/-- Is the number that of a running launch of this interface and domain? -/
def State.inDomain (s : State) (vi : Nat) (dom : BitVec 8) (launch : Nat) : Bool :=
  match s.launch? launch with
  | some l => l.vi == vi && l.dom == dom
  | none => false

/-- Every pair that is queued, spilled, held or in flight (R253, R265). -/
def State.allPairs (s : State) : List Pair :=
  (s.fields.map (fun p => p.2.fold.entries.map (·.pair))).flatten ++
  s.mesh.filterMap (fun f => match f with | .pair _ p => some p | _ => none)

/-- The messages in flight. -/
def State.flyingMessages (s : State) : List Message :=
  s.mesh.filterMap (fun f => match f with
    | .message _ m _ _ => some m
    | .request m _ _ => some m
    | _ => none)

/-- The horizon of a domain (R265). -/
def State.horizon (s : State) (vi : Nat) (dom : BitVec 8) : Option Place :=
  leastPlace (
    (s.allTasks.filter (Task.inDom vi dom)).map (fun t => (t.msg.ts, some t.id)) ++
    (s.allPairs.filter (fun p => s.inDomain vi dom p.launch)).map (fun p => (p.ts, none)) ++
    (s.flyingMessages.filter (fun m => m.dispatch && s.inDomain vi dom m.launch)).map (fun m => (m.ts, none)))

/-- F of a launch (R253). -/
def State.floorOf (s : State) (launch : Nat) (l : Launch) : Option (BitVec 32) :=
  if l.dom = 0 then
    (leastPlace ((s.allPairs.filter (·.launch == launch)).map (fun p => (p.ts, none)))).map Prod.fst
  else (s.horizon l.vi l.dom).map Prod.fst

/-- BASE follows F and never decreases (R253). -/
def raiseBase (base f : BitVec 32) (sh : Nat) : BitVec 32 :=
  let b := f &&& ~~~(BitVec.ofNat 32 (2 ^ sh - 1))
  if ts32lt base b then b else base

/-- Re-band the Folds of one launch (R253). -/
def State.rebandLaunch (s : State) (launch : Nat) : State :=
  match s.launch? launch with
  | none => s
  | some l =>
    match s.floorOf launch l with
    | none => s
    | some f => l.fields.foldl (fun s n => s.modField n (fun g =>
        { g with fold := { g.fold with base := raiseBase g.fold.base f l.bandsh } })) s

/-- Re-band the Folds of the launches of an ordered domain, which share its horizon (R253, R264). -/
def State.rebandDom (s : State) (vi : Nat) (dom : BitVec 8) : State :=
  if dom = 0 then s
  else (s.launches.filter (fun p => p.2.vi == vi && p.2.dom == dom)).foldl (fun s p => s.rebandLaunch p.1) s

/-- Re-band every Fold that a change of this launch's pairs or tasks reaches: its own, and those of the launches that
share its ordered domain. -/
def State.reband (s : State) (launch : Nat) : State :=
  match s.launch? launch with
  | none => s
  | some l => if l.dom = 0 then s.rebandLaunch launch else s.rebandDom l.vi l.dom

/-! ## Room and pushes (R251, R252) -/

/-- Entries in use on chip, reserved ones included (R251, R255). -/
def Fold.onChip (f : Fold) : Nat := (f.entries.filter (!·.spilled)).length
/-- Entries in use in the spill area. -/
def Fold.spilled (f : Fold) : Nat := (f.entries.filter (·.spilled)).length

/-- SPILLN of the launch that holds a pair. -/
def State.spillOf (s : State) (launch : Nat) : Nat := ((s.launch? launch).map Launch.spillN).getD 0

/-- Pairs on their way to a field's Fold. -/
def State.flyingTo (s : State) (f : Nat) : Nat :=
  (s.mesh.filter (fun x => match x with | .pair g _ => g == f | _ => false)).length

/-- Does a push stay on chip: no pair is in the spill area and an entry is free (R255)? -/
def Fold.staysOn (f : Fold) : Bool := f.spilled == 0 && decide (f.onChip < Config.foldEntries)

/-- How many more pairs a Fold and its spill area take, those on their way counted (R252, R255). -/
def State.foldRoom (s : State) (f launch : Nat) : Nat :=
  let d := (s.field f).fold
  (if d.spilled = 0 then Config.foldEntries - d.onChip else 0) + (s.spillOf launch - d.spilled) - s.flyingTo f

/-- Room for every pair of a list, field by field (R252). -/
def State.roomFor (s : State) (ps : List (Nat × Pair)) : Bool :=
  ps.all (fun p => decide ((ps.filter (fun q => q.1 == p.1)).length ≤ s.foldRoom p.1 p.2.launch))

/-- Send pairs to their Folds. A pair in flight counts in F (R253), so that the first of a launch may raise its BASE. -/
def State.sendPairs (s : State) (ps : List (Nat × Pair)) : State :=
  ps.foldl (fun s p => s.reband p.2.launch) { s with mesh := s.mesh ++ ps.map (fun p => .pair p.1 p.2) }

/-- The pair as it enters: in an ordered domain not below the last committed task (R271). -/
def State.enteredPair (s : State) (p : Pair) : Pair :=
  match s.launch? p.launch with
  | none => p
  | some l =>
    if l.dom = 0 then p
    else match sget? l.dom.toNat (s.vi l.vi).lastCommit with
      | some t => if ts32lt p.ts t then { p with ts := t } else p
      | none => p

/-- The words of a pair in the spill area (R33). -/
def Pair.form (p : Pair) : List Word := [p.a.setWidth 64, p.b.setWidth 64, (p.dom ++ p.ts).setWidth 64, 0]

/-- Where slot `k` of a field's share of the spill area lies (R355 word 9, R356). -/
def Launch.spillAt (l : Launch) (f k : Nat) : Word :=
  (fld (l.word 9) 0 57).setWidth 64 + BitVec.ofNat 64 (32 * (l.spillN * sget 0 f l.shares + k))

/-- The lowest slot of the spill area that no pair has. (DESIGN CHOICE, log 57.) -/
def Fold.freeSlot (f : Fold) : Nat :=
  let used := (f.entries.filter (·.spilled)).map (·.slot)
  ((List.range (used.length + 1)).find? (fun k => !used.contains k)).getD 0

/-- Write a pair to its slot of the spill area. -/
def State.spillPair (s : State) (f : Nat) (p : Pair) (k : Nat) : State :=
  match s.launch? p.launch with
  | none => s
  | some l => s.areaWrite { cluster := none, vi := l.vi, asid := l.asid, launch := some p.launch } (l.spillAt f k)
      (wordsBytes p.form)

/-- An entry joins a Fold, on chip or in its spill area. -/
def State.addEntry (s : State) (f : Nat) (e : FoldEntry) : State :=
  let k := if e.spilled then (s.field f).fold.freeSlot else 0
  let s := s.modField f (fun g => { g with fold := { g.fold with entries := g.fold.entries ++ [{ e with slot := k }] } })
  if e.spilled then s.spillPair f e.pair k else s

/-- A pair enters a Fold or its spill area; with neither free it waits (R228, R252, R255). -/
def State.enterPair (s : State) (f : Nat) (p : Pair) : Option State :=
  let d := (s.field f).fold
  let p := s.enteredPair p
  if d.staysOn then some (s.addEntry f { pair := p })
  else if d.spilled < s.spillOf p.launch then
    some ((s.addEntry f { pair := p, spilled := true }).modField f (·.count 5 1))
  else none

/-- FOLD_PUSH (R252 to R255, R271). -/
def execFoldPush (idx : Nat) (s : State) : Out :=
  match s.mesh[idx]? with
  | some (.pair f p) =>
    match ({ s with mesh := s.mesh.eraseIdx idx } : State).enterPair f p with
    | some t => .next (t.reband p.launch)
    | none => .next s
  | _ => .next s

/-! ## Pops (R254, R255) -/

/-- The band of an entry. -/
def Fold.bandAt (f : Fold) (sh : Nat) (e : FoldEntry) : Nat := bandOf f.base e.pair.ts sh

/-- The lowest band among the entries of a launch that a pop may take. -/
def Fold.lowBand (f : Fold) (launch sh : Nat) : Option Nat :=
  ((f.entries.filter (fun e => !e.reserved && e.pair.launch == launch)).map (f.bandAt sh)).foldl
    (fun m b => match m with | none => some b | some x => some (Nat.min x b)) none

/-- The places of the entries of a launch in a band that a pop may take, on chip or spilled. -/
def Fold.places (f : Fold) (launch sh b : Nat) (spilled : Bool) : List Nat :=
  (f.entries.zipIdx.filter (fun p => !p.1.reserved && p.1.pair.launch == launch && p.1.spilled == spilled &&
    f.bandAt sh p.1 == b)).map Prod.snd

/-- Bring the `n` oldest spilled entries that no task holds on chip (R254). -/
def refill : Nat → List FoldEntry → List FoldEntry
  | 0, l => l
  | _, [] => []
  | n + 1, e :: r =>
    if e.spilled && !e.reserved then { e with spilled := false } :: refill n r else e :: refill (n + 1) r

/-- Refills of up to 256 entries until the lowest band has an entry on chip, or no entry is free (R254). -/
def Fold.refilled (f : Fold) (launch sh b : Nat) : Nat → Fold
  | 0 => f
  | fuel + 1 =>
    let free := Config.foldEntries - f.onChip
    if (f.places launch sh b false).isEmpty && decide (0 < free) then
      ({ f with entries := refill (Nat.min 256 free) f.entries } : Fold).refilled launch sh b fuel
    else f

/-- Take a pair of the lowest band; its entry stays, reserved (R251, R254). Which entry of the band is a choice
(log 2). (DEDUCED, log 62.) -/
def State.popPair (s : State) (f launch : Nat) : Option (Held × State) :=
  let sh := ((s.launch? launch).map Launch.bandsh).getD 0
  match (s.field f).fold.lowBand launch sh with
  | none => none
  | some b =>
    let d := (s.field f).fold.refilled launch sh b ((s.field f).fold.spilled + 1)
    let near := d.places launch sh b false
    let r := match near with
      | [] => (((d.places launch sh b true).head?).getD 0, s)
      | _ =>
        let k := s.choose near.length
        ((near[k.1]?).getD 0, k.2)
    match d.entries[r.1]? with
    | none => none
    | some e =>
      let d := { d with entries := lmod d.entries r.1 (fun e => { e with reserved := true }) }
      some (⟨e.pair, f, false, e.spilled⟩, r.2.modField f (fun g => { g with fold := d }))

end Sys2Proof.Machine
end

