-- ==== Sys2Proof/Machine/Link.lean ====
section
/-! DEFINITION. Nodes and link words (R31, R32), `alink` (R144 to R148), the writes of a commit that abort later
readers (R267), and PushPair (R146). -/

namespace Sys2Proof.Machine

/-! ## Nodes and links (R31, R32) -/

/-- TYPE of a header. -/
def nodeType (h : Word) : Nat := (fld h 52 12).toNat
/-- ARITY of a header. -/
def nodeArity (h : Word) : Nat := (fld h 49 3).toNat
/-- Does a net instruction accept the header (R31, R226)? -/
def nodeOk (h : Word) : Bool := nodeType h != 0 && nodeArity h != 7 && !h.getLsbD 48

/-- The kinds of link words. -/
inductive LinkKind where
  | free
  | port
  | redir
  | value
  | out
  | bad
deriving DecidableEq, Repr

/-- KIND. -/
def linkKind (w : Word) : LinkKind :=
  match (fld w 61 3).toNat with
  | 0 => .free
  | 1 => .port
  | 2 => .redir
  | 3 => .value
  | 4 => .out
  | _ => .bad

/-- Is the link word well formed (R32)? (DEDUCED, log 60.) -/
def linkOk (w : Word) : Bool :=
  match linkKind w with
  | .free => w == 0
  | .port => fld w 51 7 == 0
  | .redir => fld w 51 7 == 0
  | .value => true
  | .out => fld w 16 45 == 0
  | .bad => false

/-- LINE of a PORT or REDIR word. -/
def linkLine (w : Word) : BitVec 51 := fld w 0 51
/-- PORT of a PORT or REDIR word. -/
def linkPort (w : Word) : Nat := (fld w 58 3).toNat
/-- The word address of port `p` of the node at a line (R144). -/
def portAddr (line : BitVec 51) (p : Nat) : Word := (line.setWidth 64 <<< 6) + BitVec.ofNat 64 (8 * (1 + p))
/-- The word address that a PORT or REDIR word names. -/
def linkTarget (w : Word) : Word := portAddr (linkLine w) (linkPort w)
/-- A PORT word to a port address. -/
def mkLink (kind : Nat) (line : BitVec 51) (p : Nat) : Word := BitVec.ofNat 3 kind ++ BitVec.ofNat 3 p ++ 0#7 ++ line
/-- The line of a node address. -/
def nodeLine (va : Word) : BitVec 51 := fld va 6 51

/-! ## On whose behalf -/

/-- On whose behalf net operations run. At a commit, `commit` is the place of the committing task. -/
structure Actor where
  site   : Nat
  sp     : Space
  launch : Nat
  vi     : Nat
  dom    : BitVec 8
  commit : Option (BitVec 32 × BitVec 32) := none

/-- The actor of a task on a tile. -/
def State.actor (s : State) (site : Nat) (c : Ctx) : Actor where
  site := site
  sp := s.spaceOf site
  launch := c.task.msg.launch
  vi := c.task.msg.vi
  dom := c.task.msg.dom

/-- Abort the tasks of the domain that registered on a written line and are later than the committing task (R267). -/
def State.conflicts (s : State) (x : Actor) (k : LineKey) (me : BitVec 32 × BitVec 32) : State :=
  let rs := ((s.readers.find? (·.1 == k)).map Prod.snd).getD []
  let mine := rs.filter (fun r => r.1 == x.vi && r.2.1 == x.dom)
  mine.foldl (fun s r =>
    match s.allTasks.find? (fun t => t.inDom x.vi x.dom && t.id == r.2.2) with
    | some t => if taskLt me t.key then s.abortTask x.vi x.dom t.id else s
    | none => s) s

/-- A net write or a write of a commit has reached a line: `rel.h` remembers it, and a commit aborts later readers. -/
def State.wroteLine (s : State) (x : Actor) (k : LineKey) : State :=
  let s := s.noteHbm x.site k
  match x.commit with
  | some me => s.conflicts x k me
  | none => s

/-- The line of a VA for a net access, its poison met (R386). -/
def State.netLine (s : State) (x : Actor) (n : Need) (va : Word) : Try (LineKey × State) := do
  let (_, k, s) ← s.reach x.sp n va
  let s := s.lineErrors k x.sp.launch
  if s.poisoned k then trapWith .poison 0 va else .ok (k, s)

/-- Doubleword `j` of a line at its home slice. -/
def State.slot (s : State) (k : LineKey) (j : Nat) : Word := leWord (lineBytes (s.lineAt k) (8 * j) 8)

/-! ## alink (R145) -/

/-- Follow redirections from T: the word address reached, its line, and the word there. `n` more hops are allowed. (DEDUCED, log 60.) -/
def State.follow (s : State) (x : Actor) (l : Word) : Nat → Word → Try (Word × LineKey × Word × State)
  | n, t => do
    let (k, s) ← s.netLine x .atomic t
    let h := s.slot k 0
    let w := t.toNat / 8 % 8
    need (nodeOk h && w != 0 && decide (w ≤ 1 + nodeArity h)) .linkerr 2 t
    let c := s.slot k w
    need (linkOk c) .linkerr 1 t
    if linkKind c = .redir ∧ linkKind l ≠ .redir then
      match n with
      | 0 => trapWith .linkerr 3 t
      | m + 1 => s.follow x l m (linkTarget c)
    else .ok (t, k, c, s)

/-- The field whose Fold takes a pair: the home of the node with the lower line (R146). (DEDUCED, log 60.) -/
def State.nodeField (s : State) (x : Actor) (line : BitVec 51) : Try (Nat × State) := do
  let va := line.setWidth 64 <<< 6
  let (leaf, s) ← s.translate x.sp .load va
  .ok (s.homeField (pteHome leaf.pte) (leaf.key va), s)

/-- The write of an `alink` at its serialisation point: the word replaced, and the pair it forms (R145 to R147). -/
def State.alinkAt (s : State) (x : Actor) (t l : Word) (ts : BitVec 32) :
    Try (Word × List (Nat × Pair) × State) := do
  let (t, k, c, s) ← s.follow x l 16 t
  need (!(linkKind l == .redir && linkKind c == .redir)) .linkerr 4 t
  need (!((linkKind l == .port || linkKind l == .redir) && linkTarget l == t)) .linkerr 5 t
  let s := (s.lineWrite k (t.toNat % 64) (wordBytes l)).wroteLine x k
  let me := nodeLine t
  if t.toNat / 8 % 8 == 1 && linkKind l == .port && linkPort l == 0 && decide (linkLine l < me) then
    let (f, s) ← s.nodeField x (linkLine l)
    .ok (c, [(f, { a := linkLine l, b := me, ts := ts, dom := x.dom, launch := x.launch })], s)
  else .ok (c, [], s)

/-- Write back and drop the executing tile's L1 copies of the line of a VA, under whatever VA they lie (R144, R148). -/
def State.dropVA (s : State) (x : Actor) (va : Word) : State :=
  let hits := (s.tile x.site).l1.filter (fun l => l.asid == x.sp.asid && l.line == va.toNat / 64)
  let s := hits.foldl (fun s l => s.dropOwn x.site l.key) s
  match s.translate x.sp .own va with
  | .ok (leaf, s') => s'.dropOwn x.site (leaf.key va)
  | .error _ => s

/-- The checks of R144, made at issue in every domain. -/
def State.alinkChecks (s : State) (x : Actor) (d : Spec) (t l : Word) : Try State := do
  need (x.dom == 0 || d == 0) .illdom 0 t
  need (!isLocal t) .localrange 1 t
  need (aligned t 8) .align 0 t
  let (_, s) ← s.translate x.sp .atomic t
  need (linkOk l) .linkerr 1 t
  .ok s

/-- R144 to R148. -/
def execAlink (d a b : Spec) (s : State) : Out :=
  word (.alink d a b) s (fun s => do
    let (t, s) ← s.src .A a
    let (l, s) ← s.src .A b
    let (site, slot, c) ← s.here
    let x := s.actor site c
    let s ← s.alinkChecks x d t l
    if x.dom != 0 then .ok (s.buffer site slot (.alink t l c.pc))
    else
      let s := s.dropVA x t
      let (old, ps, s) ← s.alinkAt x t l (c.task.msg.ts + c.task.msg.delta.signExtend 32)
      need (s.roomFor ps) .foldspill 1 t
      (s.sendPairs ps).dst .A d old)

end Sys2Proof.Machine
end

