-- ==== Sys2Proof/Machine/Net.lean ====
section
/-! DEFINITION. Net instructions (R222 to R232): pairs, the rule table (R35, R36), the built-in templates (R228,
R229), dispatch (R230) and node lines (R231, R356). -/

namespace Sys2Proof.Machine

/-! ## Pairs (R222 to R225) -/

/-- The pairs a task holds that no operation has named (R222). -/
def Ctx.heldPairs (c : Ctx) : List Held := c.pairs.filter (!·.spent)

/-- LINEA << 6, LINEB << 6 and (DOM << 32) | TS of a pair (R223). -/
def Pair.wordA (p : Pair) : Word := p.a.setWidth 64 <<< 6
def Pair.wordB (p : Pair) : Word := p.b.setWidth 64 <<< 6
def Pair.wordT (p : Pair) : Word := (p.dom ++ p.ts).setWidth 64

/-- Give a popped pair to the task and its registers (R223, R224). -/
def State.givePair (s : State) (site slot : Nat) (d a b : Spec) (h : Held) : Try State := do
  let s := s.modCtx site slot (fun c => { c with pairs := c.pairs ++ [h] })
  let s := s.reband h.pair.launch
  let s ← s.dst .A d h.pair.wordA
  let s ← s.dst .A a h.pair.wordB
  if b = 0 then .ok s else s.dst .A b h.pair.wordT

/-- An empty Fold writes 0 to d and a (R223). -/
def State.givePairNone (s : State) (d a : Spec) : Try State := do
  let s ← s.dst .A d 0
  s.dst .A a 0

/-- R223. FOLDSPILL for a ninth pair comes before the look at the Fold (DESIGN CHOICE, log 91). -/
def execPpop (d a b : Spec) (s : State) : Out :=
  word (.ppop d a b) s (fun s => do
    let (site, slot, c) ← s.here
    need (decide (c.heldPairs.length < 8)) .foldspill 2
    match s.popPair (siteField site) c.task.msg.launch with
    | some (h, s) => s.givePair site slot d a b h
    | none => .error (.wait .queue))

/-- R223. FOLDSPILL for a ninth pair comes before the look at the Fold (DESIGN CHOICE, log 91). -/
def execPpopNb (d a b : Spec) (s : State) : Out :=
  word (.ppopNb d a b) s (fun s => do
    let (site, slot, c) ← s.here
    need (decide (c.heldPairs.length < 8)) .foldspill 2
    match s.popPair (siteField site) c.task.msg.launch with
    | some (h, s) => s.givePair site slot d a b h
    | none => s.givePairNone d a)

/-- R224. -/
def execSteal (d a b : Spec) (s : State) : Out :=
  word (.steal d a b) s (fun s => do
    let (v, s) ← s.src .A b
    let (site, slot, c) ← s.here
    let f := v.toNat % 128
    let held := match s.launch? c.task.msg.launch with
      | some l => l.fields.contains f
      | none => false
    need (held && decide (f < Config.fields) && adjacentFields f (siteField site)) .prot 1
    need (decide (c.heldPairs.length < 8)) .foldspill 2
    match s.popPair f c.task.msg.launch with
    | some (h, s) => s.givePair site slot d a b h
    | none => s.givePairNone d a)

/-- A node address of `ppush`: [5:0] and [63:57] zero (R225). -/
def nodeForm (v : Word) : Bool := fld v 0 6 == 0 && fld v 57 7 == 0

/-- R225, R271. The translation of the lower node, whose home selects the Fold, comes before LINKERR (R422 items 7 and
8). -/
def execPpush (d a b : Spec) (s : State) : Out :=
  word (.ppush d a b) s (fun s => do
    needReg d
    let (va, s) ← s.src .A a
    let (vb, s) ← s.src .A b
    let (vd, s) ← s.src .A d
    let (site, slot, c) ← s.here
    let ts : BitVec 32 := vd.setWidth 32
    need (c.task.msg.dom == 0 || !ts32lt ts c.task.msg.ts) .illdom
    need (!isLocal va && !isLocal vb) .localrange 1
    need (nodeForm va && nodeForm vb) .align
    let lo := if va.ult vb then va else vb
    let hi := if va.ult vb then vb else va
    let x := s.actor site c
    let (f, s) ← s.nodeField x (nodeLine lo)
    need (va != vb) .linkerr 6
    let p : Pair := { a := nodeLine lo, b := nodeLine hi, ts := ts, dom := c.task.msg.dom, launch := x.launch }
    if c.task.msg.dom != 0 then .ok (s.buffer site slot (.push p c.pc))
    else
      need (s.roomFor [(f, p)]) .foldspill 1
      .ok (s.sendPairs [(f, p)]))

/-! ## Rule entries (R35, R36) -/

/-- The four words of a rule entry. -/
structure Entry where
  w0 : Word
  w1 : Word
  w2 : Word
  w3 : Word

def Entry.lo (e : Entry) : Nat := (fld e.w0 52 12).toNat
def Entry.hi (e : Entry) : Nat := (fld e.w0 40 12).toNat
def entryKind (w0 : Word) : Nat := (fld w0 36 4).toNat
def entryChan (w0 : Word) : Nat := (fld w0 30 6).toNat
def entryClass (w0 : Word) : Nat := (fld w0 28 2).toNat
def entryTempl (w0 : Word) : Nat := (fld w0 16 12).toNat
def entryDelta (w0 : Word) : BitVec 16 := fld w0 0 16
def entryGh (w1 : Word) : Nat := (fld w1 36 12).toNat
def entryGw (w1 : Word) : Nat := (fld w1 24 12).toNat
def entryGy0 (w1 : Word) : Nat := (fld w1 12 12).toNat
def entryGx0 (w1 : Word) : Nat := (fld w1 0 12).toNat

/-- GW and GH of a launch's record (R355). -/
def Launch.gw (l : Launch) : Nat := (fld (l.word 1) 16 16).toNat
def Launch.gh (l : Launch) : Nat := (fld (l.word 1) 32 16).toNat

/-- Is the entry well formed (R36)? -/
def Entry.ok (e : Entry) (gw gh : Nat) : Bool :=
  decide (entryKind e.w0 ≤ 5) && decide (e.lo ≤ e.hi) && decide ((fld e.w2 4 4).toNat ≤ 11) && fld e.w2 8 56 == 0 &&
  e.w3 == 0 &&
  (if entryKind e.w0 = 4 then
     fld e.w1 48 16 == 0 && entryGw e.w1 != 0 && entryGh e.w1 != 0 &&
     decide (entryGx0 e.w1 + entryGw e.w1 ≤ gw) && decide (entryGy0 e.w1 + entryGh e.w1 ≤ gh)
   else fld e.w1 57 7 == 0 && fld e.w1 0 6 == 0)

/-- BASE and LOGN of RULEB (R24). -/
def rulebBase (r : Word) : Word := (fld r 5 52).setWidth 64 <<< 5
def rulebLog (r : Word) : Nat := (fld r 0 5).toNat

/-- Read a rule entry at its home slices, past the tile's L1. (DESIGN CHOICE, log 103.) -/
def State.readEntry (s : State) (sp : Space) (va : Word) : Try (Entry × State) := do
  let (w0, s) ← s.homeWord sp va
  let (w1, s) ← s.homeWord sp (va + 8)
  let (w2, s) ← s.homeWord sp (va + 16)
  let (w3, s) ← s.homeWord sp (va + 24)
  .ok (⟨w0, w1, w2, w3⟩, s)

/-- GW and GH of the launch grid. (DESIGN CHOICE, log 101.) -/
def State.gridOf (s : State) (launch : Nat) : Nat × Nat :=
  match s.launch? launch with
  | some l => (l.gw, l.gh)
  | none => (1, 1)

/-- The first slot of a type pair (R35). -/
def firstSlot (lo hi logn : Nat) : Nat :=
  let h := (hi * 4096 + lo) * 0x9E3779B1 % 2 ^ 32
  if logn = 0 then 0 else h >>> (32 - logn)

/-- Probe the table (R35): the address of the matching slot. -/
def State.probe (s : State) (x : Actor) (base : Word) (lo hi logn : Nat) (slot : Nat) : Nat → Try (Word × State)
  | 0 => trapWith .rulemiss 0
  | n + 1 => do
    let va := base + BitVec.ofNat 64 (32 * (slot % 2 ^ logn))
    let (e, s) ← s.readEntry x.sp va
    if e.w0 = 0 then trapWith .rulemiss 0
    else if e.lo = lo ∧ e.hi = hi then do
      let g := s.gridOf x.launch
      need (e.ok g.1 g.2) .rulemiss 1
      .ok (va, s)
    else s.probe x base lo hi logn (slot + 1) n

/-- The address checks of the nodes of a net instruction (R226, R422): R of `rule`, `rcall` and `rgroup`, R and W of `rewr`,
which writes them (R144, R232). -/
def State.nodeAddrs (s : State) (x : Actor) (n : Need) (a b : Word) : Try State := do
  need (!isLocal a && !isLocal b) .localrange 1 (if isLocal a then a else b)
  need (aligned a 64 && aligned b 64) .align 0 (if aligned a 64 then b else a)
  let (_, s) ← s.translate x.sp n a
  let (_, s) ← s.translate x.sp n b
  .ok s

/-- Read a node's header, checked (R31, R226); a task of an ordered domain registers as a reader (R232). -/
def State.nodeHeader (s : State) (x : Actor) (slot : Nat) (c : Ctx) (va : Word) : Try (Word × LineKey × State) := do
  let (k, s) ← s.netLine x .load va
  let s ← s.register x.site slot c k
  let h := s.slot k 0
  need (nodeOk h) .linkerr 2 va
  .ok (h, k, s)

/-- R226. -/
def execRule (d a b : Spec) (s : State) : Out :=
  word (.rule d a b) s (fun s => do
    let (va, s) ← s.src .A a
    let (vb, s) ← s.src .A b
    let (site, slot, c) ← s.here
    let x := s.actor site c
    let s ← s.nodeAddrs x .load va vb
    let (ha, _, s) ← s.nodeHeader x slot c va
    let (hb, _, s) ← s.nodeHeader x slot c vb
    let r := (s.tile site).ruleb
    let lo := Nat.min (nodeType ha) (nodeType hb)
    let hi := Nat.max (nodeType ha) (nodeType hb)
    let (slot, s) ← s.probe x (rulebBase r) lo hi (rulebLog r) (firstSlot lo hi (rulebLog r)) 8
    s.dst .A d slot)

/-! ## Node lines (R231, R356) -/

/-- Draw lines from a flock and, in runs of 64, its refill; none when they fall short (R231, R356). -/
def State.takeLines (s : State) (f launch n : Nat) : Option (List Word × State) :=
  match s.launch? launch with
  | none => none
  | some l =>
    let noden := (fld (l.word 15) 0 32).toNat
    let base := (fld (l.word 14) 0 57).setWidth 64
    let have_ := sget [] launch (s.field f).flock
    let runs := (n - have_.length + 63) / 64
    let k := Nat.min (64 * runs) (noden - l.nodeNext)
    let more := (List.range k).map (fun i => base + BitVec.ofNat 64 (64 * (l.nodeNext + i)))
    let all := have_ ++ more
    if all.length < n then none
    else
      let s := s.modLaunch launch (fun l => { l with nodeNext := l.nodeNext + k })
      some (all.take n, s.modField f (fun g => { g with flock := sset launch (all.drop n) g.flock }))

/-- A line from the flock reads zero (R231). (DEDUCED, log 63.) -/
def State.zeroLine (s : State) (x : Actor) (va : Word) : State :=
  match s.translate x.sp .own va with
  | .ok (leaf, s') =>
    let k := leaf.key va
    let s' := s'.dropVA x va
    if s'.lineAt k = 0 && !s'.poisoned k then s' else s'.lineWrite k 0 (List.replicate 64 0)
  | .error _ => s

/-- Take `n` zeroed lines, or raise NODEEXH with nothing taken. -/
def State.allocLines (s : State) (x : Actor) (n : Nat) : Try (List Word × State) :=
  match s.takeLines (siteField x.site) x.launch n with
  | some (ls, s) => .ok (ls, ls.foldl (fun s va => s.zeroLine x va) s)
  | none => trapWith .nodeexh

/-- Zero a line and give it to this field's flock (R228, R231). -/
def State.freeLine (s : State) (x : Actor) (va : Word) : Try State := do
  let s := s.dropVA x va
  let (_, k, s) ← s.reach x.sp .store va
  let s := (s.lineWrite k 0 (List.replicate 64 0)).wroteLine x k
  .ok (s.toFlock (siteField x.site) x.launch [va])

/-- The task no longer owns these allocated lines. -/
def Ctx.disown (c : Ctx) (ls : List Word) : Ctx := { c with lines := c.lines.filter (!ls.contains ·) }

/-- The checks of the array of `nalloc` and `nfree` in the order of R422; answers count, target and offset. -/
def State.lineArray (s : State) (site : Nat) (n arr : Word) : Try (Nat × Nat × Nat) := do
  need (isLocal arr) .localrange 1 arr
  need (aligned arr 8) .align 0 arr
  let ok := n != 0 && decide (n.toNat ≤ 8)
  let (target, off) ← s.localCheck site arr (if ok then 8 * n.toNat else 0)
  need ok .illop 2 arr
  .ok (n.toNat, target, off)

/-- R231. It acts at once in every domain, wherever the array lies (R232). -/
def execNalloc (d a b : Spec) (s : State) : Out :=
  word (.nalloc d a b) s (fun s => do
    let (n, s) ← s.src .A a
    let (arr, s) ← s.src .A b
    let (site, slot, c) ← s.here
    let (n, target, off) ← s.lineArray site n arr
    s.scoreboard target off (8 * n) true
    let (ls, s) ← s.allocLines (s.actor site c) n
    let s := s.modCtx site slot (fun c => { c with lines := c.lines ++ ls })
    let s := s.writeBy site target off (wordsBytes ls)
    s.dst .A d (BitVec.ofNat 64 n))

/-- The checks of `nfree` on its lines, before any is freed: 64-aligned, the translations, and node headers (R31, R231, R422)
as the home slices hold them (DEDUCED, log 63). -/
def State.freeChecks (s : State) (x : Actor) (ls : List Word) : Try State := do
  ls.forM (fun va => need (!isLocal va) .localrange 1 va)
  ls.forM (fun va => need (aligned va 64) .align 0 va)
  let (ks, s) ← ls.foldlM (fun (acc : List (LineKey × Word) × State) va => do
    let (k, s) ← acc.2.netLine x .atomic va
    .ok (acc.1 ++ [(k, va)], s)) ([], s)
  ks.forM (fun p => need (nodeOk (s.slot p.1 0)) .linkerr 2 p.2)
  .ok s

/-- R231, R232. -/
def execNfree (a b : Spec) (s : State) : Out :=
  word (.nfree a b) s (fun s => do
    let (n, s) ← s.src .A a
    let (arr, s) ← s.src .A b
    let (site, slot, c) ← s.here
    let (n, target, off) ← s.lineArray site n arr
    s.scoreboard target off (8 * n) false
    let (bs, s) ← s.spadRead target off (8 * n) (some c.task.msg.launch)
    let ls := (List.range n).map (fun i => leWord ((bs.drop (8 * i)).take 8))
    let x := s.actor site c
    let s ← s.freeChecks x ls
    if c.task.msg.dom != 0 then .ok (s.buffer site slot (.free ls c.pc))
    else
      let s ← ls.foldlM (fun s va => s.freeLine x va) s
      .ok (s.modCtx site slot (·.disown ls)))

/-! ## Templates (R228, R229) -/

/-- A port of a node: its line and number. -/
structure PortRef where
  line : BitVec 51
  p    : Nat

/-- The word address of a port. -/
def PortRef.addr (r : PortRef) : Word := portAddr r.line r.p

/-- A template under way: the pairs pushed so far and the state. -/
abbrev Work := List (Nat × Pair) × State

/-- `alink` inside a template. -/
def Work.link (w : Work) (x : Actor) (ts : BitVec 32) (t l : Word) : Try (Word × Work) := do
  let (c, ps, s) ← (w.2.dropVA x t).alinkAt x t l ts
  .ok (c, w.1 ++ ps, s)

/-- Write bytes at the home slices, one or two lines: every line is reached before any is written. -/
def State.homePut (s : State) (x : Actor) (va : Word) (bs : List Byte) : Try State := do
  let (l, s) ← (pieces va bs.length bs.length).foldlM (fun (acc : List (LineKey × Nat × Nat) × State) p => do
    let (_, k, s) ← acc.2.reach x.sp .store p.1
    .ok (acc.1 ++ [(k, p.1.toNat % 64, p.2)], s)) (([], s) : List (LineKey × Nat × Nat) × State)
  .ok (l.foldl (fun (acc : List Byte × State) p =>
    (acc.1.drop p.2.2, (acc.2.lineWrite p.1 p.2.1 (acc.1.take p.2.2)).wroteLine x p.1)) (bs, s)).2

/-- Out(x, y) (R228, R356): slot k lies at OUTA + 8k, whatever the alignment of OUTA. -/
def Work.out (w : Work) (x : Actor) (u y : Word) : Try Work :=
  if linkKind u = .out then do
    match w.2.launch? x.launch with
    | none => .ok w
    | some l =>
      let k := (fld u 0 16).toNat
      need (decide (k < (fld (l.word 10) 32 16).toNat)) .linkerr 9
      let va := (fld (l.word 11) 0 57).setWidth 64 + BitVec.ofNat 64 (8 * k)
      let s ← w.2.homePut x va (wordBytes y)
      .ok (w.1, s)
  else .ok w

/-- Join(P, Q) (R228). -/
def Work.join (w : Work) (x : Actor) (ts : BitVec 32) (p q : PortRef) : Try Work := do
  let (u, w) ← w.link x ts p.addr (mkLink 2 q.line q.p)
  let (v, w) ← w.link x ts q.addr u
  let w ← (if linkKind u = .port then do
      let (_, w) ← w.link x ts (linkTarget u) v
      .ok w
    else .ok w : Try Work)
  let w ← (if linkKind v = .port then do
      let (_, w) ← w.link x ts (linkTarget v) u
      .ok w
    else .ok w : Try Work)
  if linkKind u ≠ .port ∧ linkKind v ≠ .port then do
    let w ← w.out x u v
    w.out x v u
  else .ok w

/-- Attach(P, F) (R228). -/
def Work.attach (w : Work) (x : Actor) (ts : BitVec 32) (p f : PortRef) : Try Work := do
  let (u, w) ← w.link x ts p.addr (mkLink 2 f.line f.p)
  let (_, w) ← w.link x ts f.addr u
  if linkKind u = .port then do
    let (_, w) ← w.link x ts (linkTarget u) (mkLink 1 f.line f.p)
    .ok w
  else if linkKind u = .out then w.out x u (mkLink 1 f.line f.p)
  else .ok w

/-- Write a fresh node: TYPE and PAYLOAD of `h`, an arity, and its links from port 0 on. -/
def Work.make (w : Work) (x : Actor) (va h : Word) (links : List Word) : Try Work := do
  let (_, k, s) ← w.2.reach x.sp .store va
  let ws := (h &&& 0xFFFEFFFFFFFFFFFF) :: (links ++ List.replicate (7 - links.length) 0)
  .ok (w.1, (s.lineWrite k 0 (wordsBytes ws)).wroteLine x k)

/-- Free a consumed node. -/
def Work.free (w : Work) (x : Actor) (va : Word) : Try Work := do
  let s ← w.2.freeLine x va
  .ok (w.1, s)

/-- Fresh lines a template needs (R229): `b` is the node whose ports an ERASE visits. -/
def freshNeeded (kind : Nat) (m n : Nat) (visited : List Word) : Nat :=
  if kind = 1 then m + n
  else if kind = 2 then (visited.filter (fun w => linkKind w == .port || linkKind w == .redir)).length
  else 0

/-- The link words of a node's ports 1 to its arity. -/
def State.auxLinks (s : State) (k : LineKey) : List Word :=
  (List.range (nodeArity (s.slot k 0))).map (fun p => s.slot k (2 + p))

/-- What an `alink` of a Join finds behind each auxiliary port of a node: its word, past redirections (R145, R228). A chain that
leads nowhere runs no Out: the template's own `alink` raises what is wrong with it. -/
def State.joinLinks (s : State) (x : Actor) (k : LineKey) (line : BitVec 51) : List Word :=
  (List.range (nodeArity (s.slot k 0))).map (fun p => match s.follow x 0 16 (portAddr line (p + 1)) with
    | .ok (_, _, c, _) => c
    | .error _ => mkLink 1 line 0)

/-- The link words on which a template runs Out, `la` and `lb` being those of ports 1 to the arities (R228, R229), those of a
Join's second node past redirections: both of a Join of which neither is PORT, and each of an Attach or an ERASE. -/
def outWords (kind : Nat) (la lb : List Word) : List Word :=
  if kind = 0 then
    ((la.zip lb).filter (fun p => linkKind p.1 != .port && linkKind p.2 != .port)).flatMap (fun p => [p.1, p.2])
  else la ++ lb

/-- The checks of a template on both nodes, `pa` and `pb` being their principal words (R228, R356): link words, arities,
and the slots of each Out, `jb` being what lies behind the second node's ports. (DEDUCED, log 60.) -/
def templateChecks (kind outn : Nat) (ha hb pa pb : Word) (la lb jb : List Word) : Try Unit := do
  (pa :: la ++ pb :: lb).forM (fun w => need (w != 0 && linkOk w) .linkerr 2)
  let m := nodeArity ha
  let n := nodeArity hb
  need (if kind = 0 then m == n else if kind = 1 then decide (m + n ≤ 12) else m == 0 || n == 0) .linkerr 8
  need ((outWords kind la (if kind = 0 then jb else lb)).all (fun w => !(linkKind w == .out) || decide ((fld w 0 16).toNat < outn))) .linkerr 9

/-- ANNIH: Join(A.p, B.p) (R229). -/
def Work.annih (w : Work) (x : Actor) (ts : BitVec 32) (a b : BitVec 51) (m : Nat) : Try Work :=
  (List.range m).foldlM (fun w p => w.join x ts ⟨a, p + 1⟩ ⟨b, p + 1⟩) w

/-- COMM: fresh copies, linked with stores, then attached (R229). -/
def Work.comm (w : Work) (x : Actor) (ts : BitVec 32) (a b : BitVec 51) (ha hb : Word) (fresh : List Word) :
    Try Work := do
  let n := nodeArity hb
  let fa := fresh.take n
  let fb := fresh.drop n
  let w ← fa.zipIdx.foldlM (fun w q =>
    w.make x q.1 ha (0 :: fb.map (fun f => mkLink 1 (nodeLine f) (q.2 + 1)))) w
  let w ← fb.zipIdx.foldlM (fun w q =>
    w.make x q.1 hb (0 :: fa.map (fun f => mkLink 1 (nodeLine f) (q.2 + 1)))) w
  let w ← fa.zipIdx.foldlM (fun w q => w.attach x ts ⟨b, q.2 + 1⟩ ⟨nodeLine q.1, 0⟩) w
  let w ← fb.zipIdx.foldlM (fun w q => w.attach x ts ⟨a, q.2 + 1⟩ ⟨nodeLine q.1, 0⟩) w
  .ok w

/-- ERASE: every partner of the other node's ports (R229). `he` is the header of the arity-0 node, `o` the line of the
other, `ls` its links. -/
def Work.erase (w : Work) (x : Actor) (ts : BitVec 32) (he : Word) (o : BitVec 51) :
    Nat → List Word → List Word → Try Work
  | _, [], _ => .ok w
  | p, l :: ls, fresh =>
    if linkKind l = .port ∨ linkKind l = .redir then
      match fresh with
      | [] => trapWith .nodeexh
      | f :: fs => do
        let w ← w.make x f he [0]
        let w ← w.attach x ts ⟨o, p⟩ ⟨nodeLine f, 0⟩
        w.erase x ts he o (p + 1) ls fs
    else if linkKind l = .out then do
      let w ← w.out x l 0
      w.erase x ts he o (p + 1) ls fresh
    else w.erase x ts he o (p + 1) ls fresh

/-- The writes of a template and the freeing of both nodes (R228, R229). -/
def State.template (s : State) (x : Actor) (w0 a b : Word) (ts : BitVec 32) (fresh : List Word) : Try Work := do
  let (ka, s) ← s.netLine x .atomic a
  let (kb, s) ← s.netLine x .atomic b
  let ha := s.slot ka 0
  let hb := s.slot kb 0
  let w : Work := ([], s)
  let w ← (if entryKind w0 = 0 then w.annih x ts (nodeLine a) (nodeLine b) (nodeArity ha)
    else if entryKind w0 = 1 then w.comm x ts (nodeLine a) (nodeLine b) ha hb fresh
    else if nodeArity ha = 0 then w.erase x ts ha (nodeLine b) 1 (s.auxLinks kb) fresh
    else w.erase x ts hb (nodeLine a) 1 (s.auxLinks ka) fresh : Try Work)
  let w ← w.free x a
  w.free x b

/-! ## The operations on a pair of nodes (R227 to R230) -/

/-- The held pair that names two nodes (R222). -/
def Ctx.heldOf (c : Ctx) (a b : Word) : Option Held :=
  c.pairs.find? (fun h => !h.spent &&
    ((h.pair.a == nodeLine a && h.pair.b == nodeLine b) || (h.pair.a == nodeLine b && h.pair.b == nodeLine a)))

/-- The pair timestamp (R222). -/
def Ctx.pairTs (c : Ctx) (a b : Word) : BitVec 32 := ((c.heldOf a b).map (·.pair.ts)).getD c.task.msg.ts

/-- The pair of two nodes is consumed: at once in domain 0, at commit otherwise (R222). -/
def State.consume (s : State) (site slot : Nat) (a b : Word) : State :=
  match s.ctx? site slot with
  | none => s
  | some c =>
    match c.heldOf a b with
    | none => s
    | some h =>
      if c.task.msg.dom = 0 then
        let s := s.setCtx site slot { c with pairs := c.pairs.erase h }
        (s.modField h.field (fun f => { f with fold := { f.fold with entries := dropReserved h.pair f.fold.entries } }))
      else
        s.setCtx site slot { c with pairs := c.pairs.map (fun p => if p == h then { p with spent := true } else p) }

/-- The entry that a `rewr`, `rcall` or `rgroup` names, with the nodes' headers, checked (R227), the translations first
(R422). (DEDUCED, log 61.) -/
def State.applied (s : State) (x : Actor) (slot : Nat) (c : Ctx) (n : Need) (kinds : List Nat) (d a b : Word) :
    Try (Entry × LineKey × LineKey × State) := do
  let s ← s.nodeAddrs x n a b
  let s ← (if isLocal d then .ok s else do
    let (_, s) ← s.translate x.sp .load d
    .ok s : Try State)
  let r := (s.tile x.site).ruleb
  let off := d - rulebBase r
  need (off.toNat % 32 == 0 && decide (off.toNat < 32 * 2 ^ rulebLog r)) .rulemiss 1 d
  let (e, s) ← s.readEntry x.sp d
  let g := s.gridOf x.launch
  need (e.ok g.1 g.2) .rulemiss 1 d
  let (ha, ka, s) ← s.nodeHeader x slot c a
  let (hb, kb, s) ← s.nodeHeader x slot c b
  let lo := Nat.min (nodeType ha) (nodeType hb)
  let hi := Nat.max (nodeType ha) (nodeType hb)
  need (e.lo == lo && e.hi == hi) .rulemiss 2 d
  need (kinds.contains (entryKind e.w0)) .rulemiss 2 d
  .ok (e, ka, kb, s)

/-- R227 to R229, R232. The link words within the arities, the principal's included (R31), are checked first. When they
name one queue, d pops before a, and a before b (DEDUCED, log 92). (DEDUCED, log 63.) -/
def execRewr (d a b : Spec) (s : State) : Out :=
  word (.rewr d a b) s (fun s => do
    let (vd, s) ← s.src .A d
    let (va, s) ← s.src .A a
    let (vb, s) ← s.src .A b
    let (site, slot, c) ← s.here
    let x := s.actor site c
    let (e, ka, kb, s) ← s.applied x slot c .atomic [0, 1, 2] vd va vb
    let kind := entryKind e.w0
    let ha := s.slot ka 0
    let hb := s.slot kb 0
    let la := s.auxLinks ka
    let lb := s.auxLinks kb
    let outn := match s.launch? x.launch with
      | some l => (fld (l.word 10) 32 16).toNat
      | none => 0
    templateChecks kind outn ha hb (s.slot ka 1) (s.slot kb 1) la lb (s.joinLinks x kb (nodeLine vb))
    let visited := if nodeArity ha = 0 then lb else la
    let (fresh, s) ← s.allocLines x (freshNeeded kind (nodeArity ha) (nodeArity hb) visited)
    let ts := c.pairTs va vb + (entryDelta e.w0).signExtend 32
    if c.task.msg.dom != 0 then
      let s := s.modCtx site slot (fun c => { c with lines := c.lines ++ fresh })
      .ok ((s.buffer site slot (.rewr e.w0 va vb ts fresh c.pc)).consume site slot va vb)
    else
      let w ← s.template x e.w0 va vb ts fresh
      need (w.2.roomFor w.1) .foldspill 1
      let s := (w.2.sendPairs w.1).modCtx site slot (·.disown [va, vb])
      .ok ((s.consume site slot va vb).reband x.launch))

/-! ## Dispatch (R230) -/

/-- The tile of a class of the launch that a CALL goes to, node A's home field first; which of them is a choice
(log 2). -/
def State.pickTile (s : State) (launch cls field : Nat) : Option (Nat × State) :=
  let all := (s.tiles.filter (fun p => p.2.launch == some launch && (siteClass p.1).code == cls)).map Prod.fst
  let near := all.filter (fun t => siteField t == field)
  let l := if near.isEmpty then all else near
  if l.isEmpty then none
  else
    let k := s.choose l.length
    some ((l[k.1]?).getD 0, k.2)

/-- The site of a cell of the launch grid. -/
def Launch.cell (l : Launch) (x y : Nat) : Option Nat := sget? (y * l.gw + x) l.cells

/-- The cells of a sub-grid with their places in it (R230). -/
def subGrid (w1 : Word) : List (Nat × Nat) :=
  ((List.range (entryGh w1)).map (fun y => (List.range (entryGw w1)).map (fun x => (x, y)))).flatten

/-- The message of a dispatch to a tile (R230). -/
def State.dispatchMsg (s : State) (x : Actor) (w0 w1 w2 a b : Word) (ts : BitVec 32) (site : Nat)
    (grid : Option Grid) : Message :=
  let hdr : Word := 0x40#8 ++ BitVec.ofNat 6 (entryChan w0) ++ 4#4 ++ 0#6 ++ s.nameOf site ++ 0#16 ++ 0#8
  { words := [hdr, a, b, w1, BitVec.ofNat 64 (entryTempl w0)], vi := x.vi, launch := x.launch,
    dom := ((s.launch? x.launch).map (·.dom)).getD 0, ts := ts, delta := entryDelta w0, ec := fld w2 0 3,
    prio := if w2.getLsbD 3 then some (fld w2 4 4).toNat else none, grid := grid, sender := x.site, dispatch := true }

/-- Send the messages of a dispatch, or say what it lacks (R230). A cell without a tile lacks the class of a GROUP. (DESIGN
CHOICE, log 114.) -/
def State.dispatch (s : State) (x : Actor) (w0 w1 w2 a b : Word) (ts : BitVec 32) : Try State := do
  match s.launch? x.launch with
  | none => .ok s
  | some l =>
    if entryKind w0 = 3 then do
      let (f, s) ← s.nodeField x (nodeLine a)
      match s.pickTile x.launch (entryClass w0) f with
      | none => trapWith .illclass 2
      | some (t, s) => .ok { s with mesh := s.mesh ++ [.message t (s.dispatchMsg x w0 w1 w2 a b ts t none) none none] }
    else if entryKind w0 = 5 then
      .ok { s with mesh := s.mesh ++ [.message x.site (s.dispatchMsg x w0 w1 w2 a b ts x.site none) none none] }
    else do
      let cells := (subGrid w1).map (fun c => (c, l.cell (entryGx0 w1 + c.1) (entryGy0 w1 + c.2)))
      need (cells.all (fun c => match c.2 with
        | some t => (siteClass t).code == entryClass w0
        | none => false)) .illclass 1
      let grid (c : Nat × Nat) : Grid :=
        ⟨BitVec.ofNat 16 c.1, BitVec.ofNat 16 c.2, BitVec.ofNat 16 (entryGw w1), BitVec.ofNat 16 (entryGh w1)⟩
      .ok { s with mesh := s.mesh ++ cells.filterMap (fun c => c.2.map (fun t =>
        .message t (s.dispatchMsg x w0 w1 w2 a b ts t (some (grid c.1))) none none)) }

/-- `rcall` and `rgroup` (R227, R230, R232). When they name one queue, d pops before a, and a before b (DEDUCED,
log 92). -/
def call (i : Instr) (kinds : List Nat) (d a b : Spec) (s : State) : Out :=
  word i s (fun s => do
    let (vd, s) ← s.src .A d
    let (va, s) ← s.src .A a
    let (vb, s) ← s.src .A b
    let (site, slot, c) ← s.here
    let x := s.actor site c
    let (e, _, _, s) ← s.applied x slot c .load kinds vd va vb
    let ts := c.pairTs va vb
    let sent ← s.dispatch x e.w0 e.w1 e.w2 va vb ts
    let s := if c.task.msg.dom = 0 then sent
      else s.buffer site slot (.dispatch e.w0 e.w1 e.w2 va vb ts c.pc)
    .ok ((s.consume site slot va vb).reband x.launch))

def execRcall (d a b : Spec) (s : State) : Out := call (.rcall d a b) [3, 4, 5] d a b s
def execRgroup (d a b : Spec) (s : State) : Out := call (.rgroup d a b) [4] d a b s

end Sys2Proof.Machine
end

