-- ==== Sys2Proof/Machine/Sync.lean ====
section
/-! DEFINITION. Bell (R149, R150), Hurdles (R37, R151 to R153) and `qfence` (R154). -/

namespace Sys2Proof.Machine

/-! ## Bell -/

/-- The Bell of a tag. -/
def Launch.bell (l : Launch) (tag : Nat) : Bell := vget {} l.bells tag
/-- Replace the Bell of a tag. -/
def Launch.setBell (l : Launch) (tag : Nat) (b : Bell) : Launch := { l with bells := vput l.bells tag b }

/-- Has the phase of the tile's latest arrival completed, or has the tile not arrived (R149)? -/
def Bell.over (b : Bell) (site : Nat) : Bool :=
  match sget? site b.latest with
  | some p => decide (p < b.phase)
  | none => true

/-- The launch of a task, which every running task has. -/
def State.launchOf (s : State) (c : Ctx) : Try Launch :=
  match s.launch? c.task.msg.launch with
  | some l => .ok l
  | none => .error (.fault .noAgent)

/-- Arrive on a tag with a form and a value (R149, R150). (DEDUCED, log 64.) -/
def State.arrive (s : State) (site : Nat) (c : Ctx) (tag form : Nat) (v : BitVec 32) : Try State := do
  let l ← s.launchOf c
  let b := l.bell tag
  need (l.holdsCell site) .barovr 3
  need (!b.arrived.any (fun a => a.1 == site)) .barovr
  need (b.arrived.all (fun a => a.2.1 == form)) .barovr 2
  .ok (s.modLaunch c.task.msg.launch (·.setBell tag
    { b with arrived := b.arrived ++ [(site, form, v)], latest := sset site b.phase b.latest }))

/-- R149. -/
def execBarr (t : BitVec 3) (s : State) : Out :=
  word (.barr t) s (fun s => do
    let (site, _, c) ← s.here
    need (c.task.msg.dom == 0) .illdom
    s.arrive site c t.toNat 0 0)

/-- R149: it waits for the phase that the tile's latest arrival belonged to when it began to wait. -/
def execBwait (t : BitVec 3) (s : State) : Out :=
  word (.bwait t) s (fun s => do
    let (site, _, c) ← s.here
    need (c.task.msg.dom == 0) .illdom
    let l ← s.launchOf c
    let b := l.bell t.toNat
    match c.aWait.map (·.kind) with
    | some (WaitKind.bell tag ph) =>
      await (decide (ph < b.phase)) (.bell tag ph)
      .ok (s.acquired site)
    | _ =>
      await (b.over site) (.bell t.toNat ((sget? site b.latest).getD 0))
      .ok (s.acquired site))

/-- `bred` (R150): it arrives when it first issues, waits, and completes with the result of its phase. -/
def bred (i : Instr) (form : Nat) (d a b : Spec) (s : State) : Out :=
  word i s (fun s0 => do
    let (tv, s) ← s0.src .A a
    let (v, s) ← s.src .A b
    let (site, _, c) ← s0.here
    need (c.task.msg.dom == 0) .illdom
    let tag := tv.toNat % 8
    let l ← s.launchOf c
    match c.aWait.map (·.kind) with
    | some (WaitKind.bell _ ph) =>
      await (decide (ph < (l.bell tag).phase)) (.bell tag ph)
      (s.acquired site).dst .A d ((((l.bell tag).results[ph]?).getD 0).setWidth 64)
    | _ =>
      let s1 ← s0.arrive site c tag form (v.setWidth 32)
      .error (.goto (s1.block i (.bell tag (l.bell tag).phase))))

def execBredMin (d a b : Spec) (s : State) : Out := bred (.bredMin d a b) 1 d a b s
def execBredSum (d a b : Spec) (s : State) : Out := bred (.bredSum d a b) 2 d a b s
def execBredOr (d a b : Spec) (s : State) : Out := bred (.bredOr d a b) 3 d a b s

/-- The reduction of a phase by its form (R150). -/
def reduceBell (form : Nat) (vs : List (BitVec 32)) : BitVec 32 :=
  match form with
  | 0 => 0
  | 1 => vs.foldl (fun m v => if v.ult m then v else m) (BitVec.allOnes 32)
  | 2 => vs.foldl (· + ·) 0
  | _ => vs.foldl (· ||| ·) 0

/-- Every cell of the launch grid has arrived (R149). -/
def Launch.allArrived (l : Launch) (b : Bell) : Bool := l.cells.all (fun c => b.arrived.any (fun a => a.1 == c.2))

/-- The phase is over: its result is kept and the next begins. -/
def Bell.finish (b : Bell) : Bell :=
  let form := (b.arrived.head?.map (fun a => a.2.1)).getD 0
  { b with phase := b.phase + 1, arrived := [], results := b.results ++ [reduceBell form (b.arrived.map (fun a => a.2.2))] }

/-- BELL_PHASE_COMPLETE (R149). -/
def execBellPhaseComplete (launch tag : Nat) (s : State) : Out :=
  match s.launch? launch with
  | none => .next s
  | some l =>
    if l.allArrived (l.bell tag) && !(l.bell tag).arrived.isEmpty then
      .next (s.modLaunch launch (·.setBell tag (l.bell tag).finish))
    else .next s

/-! ## Hurdles (R37, R152) -/

/-- A Hurdle's fields, with its reserved bits. -/
structure Hurdle where
  gen    : BitVec 4
  armed  : Bool
  ovr    : Bool
  low    : BitVec 2
  pend   : BitVec 24
  expect : BitVec 24
  high   : BitVec 8
  inb    : BitVec 32
  outb   : BitVec 32
deriving DecidableEq, Repr

/-- The fields of a Hurdle's 16 bytes. -/
def Hurdle.ofBits (b : BitVec 128) : Hurdle where
  gen := fld b 0 4
  armed := b.getLsbD 4
  ovr := b.getLsbD 5
  low := fld b 6 2
  pend := fld b 8 24
  expect := fld b 32 24
  high := fld b 56 8
  inb := fld b 64 32
  outb := fld b 96 32

/-- The 16 bytes of a Hurdle. -/
def Hurdle.bits (h : Hurdle) : BitVec 128 :=
  h.outb ++ h.inb ++ h.high ++ h.expect ++ h.pend ++ h.low ++ BitVec.ofBool h.ovr ++ BitVec.ofBool h.armed ++ h.gen

/-- The Hurdle at an offset. -/
def State.hurdleAt (s : State) (target off : Nat) : Hurdle :=
  Hurdle.ofBits (BitVec.ofNat 128 (leNat (s.spadBytes target off 16)))

/-- CheckPhase: the Hurdle and whether a phase completed. -/
def Hurdle.check (h : Hurdle) : Hurdle × Bool :=
  if h.armed && h.pend == 0 && h.inb == 0 && h.outb == 0 then
    ({ h with gen := h.gen + 1, pend := h.expect, armed := h.expect != 0 }, true)
  else (h, false)

/-- Release every `hwait` on a Hurdle. -/
def State.releaseHurdle (s : State) (target off : Nat) : State :=
  { s with tiles := s.tiles.map (fun p => (p.1, { p.2 with ctxs := p.2.ctxs.map (fun c => c.map (fun c =>
      { c with aWait := c.aWait.map (fun w => match w.kind with
          | .hurdle a b _ => if a == target && b == off then { w with kind := .hurdle a b true } else w
          | _ => w) })) })) }

/-- Write a Hurdle and check its phase. -/
def State.putHurdle (s : State) (target off : Nat) (h : Hurdle) : State :=
  let r := h.check
  let s := s.spadWrite target off (leBytes 16 r.1.bits.toNat)
  if r.2 then s.releaseHurdle target off else s

/-- A rejected update sets the overrun flag and nothing else (R6, R152). -/
def State.overrun (s : State) (target off : Nat) (h : Hurdle) : State :=
  s.spadWrite target off (leBytes 16 ({ h with ovr := true } : Hurdle).bits.toNat)

/-- The address checks of `harm`, `hwait` and `hexp` (R151). -/
def State.hurdleAddr (s : State) (site : Nat) (c : Ctx) (a : Word) : Try (Nat × Nat) := do
  need (c.task.msg.dom == 0) .illdom 0 a
  need (isLocal a) .localrange 1 a
  need (aligned a 16) .align 0 a
  s.localCheck site a 16

/-- R152. Like a store, it stays behind reads that R310 orders first. (DEDUCED, log 39.) -/
def execHarm (d a b : Spec) (s : State) : Out :=
  word (.harm d a b) s (fun s => do
    let (va, s) ← s.src .A a
    let (vb, s) ← s.src .A b
    let (site, _, c) ← s.here
    let (target, off) ← s.hurdleAddr site c va
    await (!s.heldBack) .scoreboard
    let s ← s.spadErrors target off 16 (some c.task.msg.launch)
    let h := s.hurdleAt target off
    let n : BitVec 24 := fld vb 0 24
    let s := s.putHurdle target off
      { h with expect := n, pend := n, inb := (fld vb 24 20).setWidth 32, outb := (fld vb 44 20).setWidth 32,
               ovr := false, armed := true }
    s.dst .A d (h.gen.setWidth 64))

/-- R151, R152. -/
def execHarr (a b : Spec) (s : State) : Out :=
  word (.harr a b) s (fun s => do
    let (name, s) ← s.src .A a
    let (o, s) ← s.src .A b
    let (site, _, c) ← s.here
    need (c.task.msg.dom == 0) .illdom
    need (aligned o 16) .align 0 o
    need (fld o 22 42 == 0) .localrange 0 o
    match s.siteOfName (siteField site) c.task.msg.launch (name.setWidth 16) with
    | none => trapWith .localrange 2 o
    | some target =>
      let off := o.toNat
      need (decide (off + 16 ≤ spadSize (s.tile target).l1sz)) .localrange 0 o
      await (!s.heldBack) .scoreboard
      let s ← s.spadErrors target off 16 (some c.task.msg.launch)
      let h := s.hurdleAt target off
      if !h.armed || h.pend == 0 then
        .error (.trapAfter { code := .barovr, addr := o } (s.overrun target off h))
      else .ok (s.putHurdle target off { h with pend := h.pend - 1 }))

/-- R153. -/
def execHwait (a b : Spec) (s : State) : Out :=
  word (.hwait a b) s (fun s => do
    let (va, s) ← s.src .A a
    let (seen, s) ← s.src .A b
    let (site, _, c) ← s.here
    let (target, off) ← s.hurdleAddr site c va
    match c.aWait.map (·.kind) with
    | some (WaitKind.hurdle _ _ released) =>
      await released (.hurdle target off false)
      .ok (s.acquired site)
    | _ =>
      let s ← s.spadErrors target off 16 (some c.task.msg.launch)
      await ((s.hurdleAt target off).gen != fld seen 0 4) (.hurdle target off false)
      .ok (s.acquired site))

/-- R152. -/
def execHexp (d a b : Spec) (s : State) : Out :=
  word (.hexp d a b) s (fun s => do
    let (va, s) ← s.src .A a
    let (vb, s) ← s.src .A b
    let (site, _, c) ← s.here
    let (target, off) ← s.hurdleAddr site c va
    await (!s.heldBack) .scoreboard
    let s ← s.spadErrors target off 16 (some c.task.msg.launch)
    let h := s.hurdleAt target off
    if !h.armed then
      .error (.trapAfter { code := .barovr, addr := va } (s.overrun target off h))
    else
      need (decide (h.inb.toNat + (fld vb 0 32).toNat < 2 ^ 32) && decide (h.outb.toNat + (fld vb 32 32).toNat < 2 ^ 32))
        .barovr 0 va
      let s := s.putHurdle target off { h with inb := h.inb + fld vb 0 32, outb := h.outb + fld vb 32 32 }
      s.dst .A d (h.gen.setWidth 64))

/-! ## qfence (R154) -/

/-- The places in `out` of the queues of a mask: bit 0 is e0, bit 1 e2, bit 2 e4. -/
def maskPorts (m : Nat) : List Nat := (List.range 3).filter (fun i => m / 2 ^ i % 2 == 1)

/-- A fence entry goes into the named queues of a tile. (DEDUCED, log 65.) -/
def Tile.addFence (t : Tile) (mask : Nat) (task : BitVec 32) (run : Nat) : Tile :=
  { t with fences := t.fences ++ [⟨mask, t.seq, task, run⟩], seq := t.seq + 1 }

/-- R154. With e4 named it waits until the C-stream has issued every word fetched before it. The buffered fence of an ordered
domain orders no command that runs at once. (DESIGN CHOICE, log 111.) -/
def execQfence (a : Spec) (s : State) : Out :=
  word (.qfence a) s (fun s => do
    let (v, s) ← s.src .A a
    let (site, slot, c) ← s.here
    let m := v.toNat % 8
    need (m != 0 && fld v 3 61 == 0) .illop
    await (decide (m < 4) || c.cIssued) .queue
    need ((maskPorts m).all (fun p => (vget [] c.out p).isEmpty)) .illop
    await ((maskPorts m).all (fun p => decide (portUsed (s.tile site) slot c p < 16))) .queue
    if c.task.msg.dom != 0 then .ok (s.buffer site slot (.qfence m c.pc))
    else .ok (s.modTile site (·.addFence m c.task.id c.run)))

end Sys2Proof.Machine
end

