-- ==== Sys2Proof/Machine/Vector.lean ====
section
/-! DEFINITION. The frame of the vector instructions (R156 to R162): tiles, sources, results, flags and the vector
unit's time, and the issue fraction of R299. -/

namespace Sys2Proof.Machine

/-- A shaped tile's rows, columns and element type (R156). -/
structure Rect where
  rows : Nat
  cols : Nat
  ty   : VType
deriving DecidableEq, Repr

/-- Bytes of a tile. -/
def Rect.bytes (t : Rect) : Nat := t.rows * t.cols * t.ty.size
/-- Elements of a tile. -/
def Rect.count (t : Rect) : Nat := t.rows * t.cols
/-- May the tile exist (R157)? -/
def Rect.ok (t : Rect) : Bool :=
  decide (t.bytes ≤ 4096) && decide (1 ≤ t.rows) && decide (t.rows ≤ 64) && decide (1 ≤ t.cols) && decide (t.cols ≤ 256)

/-- The element patterns of a tile (R156). -/
def elems (v : VReg) (size n : Nat) : List Nat := (List.range n).map (fun k => (v.extractLsb' (8 * size * k) (8 * size)).toNat)

/-- Patterns side by side, the first lowest. -/
def packElems (size : Nat) : List Nat → Nat
  | [] => 0
  | e :: r => e % 2 ^ (8 * size) + 2 ^ (8 * size) * packElems size r

/-- Write a tile's bytes; the bytes beyond keep their values (R156). -/
def putElems (old : VReg) (size : Nat) (es : List Nat) : VReg :=
  let n := 8 * size * es.length
  BitVec.ofNat 32768 (packElems size es + old.toNat / 2 ^ n * 2 ^ n)

/-- What a vector instruction computes: elements, sticky flags, SAT, TERNBAD, and the new AMAX (R24, R160). -/
structure VRes where
  es    : List Nat
  flags : Flags := 0
  sat   : Bool := false
  tern  : Bool := false
  amax  : Word → Word := id

/-! ## The issue fraction (R299) -/

/-- f in eighths for a need of `n` and an available holding of `a`. -/
def fraction (a n : Nat) : Nat := Nat.min 8 (8 * a / n)

/-- D for vector instructions. -/
def vecDraw : TileClass → Nat
  | .dt => 32
  | .st => 32
  | .at => 32
  | .vt => 64

/-- D for matrix items. -/
def matDraw : TileClass → Nat
  | .dt => 128
  | .st => 96
  | .at => 112
  | .vt => 128

/-- f of a vector instruction, at least 2/8. -/
def Ctx.vecFraction (c : Ctx) (k : TileClass) : Nat :=
  Nat.max 2 (fraction c.tok.avail (Nat.max (needOf c.task.msg.ec) (vecDraw k)))

/-- W of R162. -/
def vecWidth : TileClass → Nat
  | .vt => 512
  | .dt => 128
  | .st => 128
  | .at => 128

/-- The vector unit is held for ceil(B / (W f)) ticks (R162); an issue below full rate is counted (R407). -/
def State.holdVector (s : State) (site slot : Nat) (c : Ctx) (bytes : Nat) : State :=
  let k := siteClass site
  let f := c.vecFraction k
  let t := (8 * bytes + vecWidth k * f - 1) / (vecWidth k * f)
  let s := (s.modCtx site slot (fun c => { c with vecBusy := t })).modTile site (fun x => { x with vecHold := t })
  if f < 8 then s.modTile site (·.count 8 1) else s

/-! ## Sources and results -/

/-- A vector source: a register, or one entry of vq0 or vq1 (R158). -/
def State.vsrc (s : State) (site slot : Nat) (v : VSpec) (t : Rect) : Try (List Nat × State) :=
  match s.ctx? site slot with
  | none => .error (.fault .noAgent)
  | some c =>
    if v.toNat < 28 then do
      let s ← s.scrub site slot (.vreg v.toNat)
      .ok (elems (vget 0 c.v v.toNat) t.ty.size t.count, s)
    else if v.toNat < 30 then
      match vget [] c.vq (v.toNat - 28) with
      | [] => .error (.wait .queue)
      | e :: r => do
        need (e.rows == t.rows && e.cols == t.cols && e.ty.size == t.ty.size) .shape
        .ok (elems e.data t.ty.size t.count, s.setCtx site slot { c with vq := vput c.vq (v.toNat - 28) r })
    else trapWith .illop

/-- A vector result: a register's bytes, or an entry of vq2 or vq3 (R156, R158). -/
def State.vdst (s : State) (site slot : Nat) (v : VSpec) (t : Rect) (es : List Nat) : Try State :=
  match s.ctx? site slot with
  | none => .error (.fault .noAgent)
  | some c =>
    if v.toNat < 28 then
      .ok (s.setCtx site slot
        ({ c with v := vput c.v v.toNat (putElems (vget 0 c.v v.toNat) t.ty.size es) }.unmark (.vreg v.toNat)))
    else if 30 ≤ v.toNat then
      let e : VEntry := { rows := t.rows, cols := t.cols, ty := t.ty, data := putElems 0 t.ty.size es, mark := (s.tile site).seq }
      .ok (s.setCtx site slot { c with vq := vput c.vq (v.toNat - 28) (vget [] c.vq (v.toNat - 28) ++ [e]) })
    else trapWith .illop

/-- The sticky flags and AMAX of a vector result (R24, R160). -/
def Ctx.stickRes (c : Ctx) (r : VRes) : Ctx :=
  let c := ((c.stickV r.flags).stickSat r.sat).stickTern r.tern
  { c with amax := r.amax c.amax }

/-- A vector specifier that must name a register (R159). -/
def needV (v : VSpec) : Try Unit := need (decide (v.toNat < 28)) .illop

/-- Read the sources in order. (DEDUCED, log 19.) -/
def State.vsrcs (s : State) (site slot : Nat) : List (VSpec × Rect) → Try (List (List Nat) × State)
  | [] => .ok ([], s)
  | (v, t) :: r => do
    let (es, s) ← s.vsrc site slot v t
    let (rest, s) ← s.vsrcs site slot r
    .ok (es :: rest, s)

/-- The body of a vector instruction (R157 to R162): shapes, sources, result, flags, time. `ins` and `out` give the
tiles for (R, C), `cond` the entry's own shape conditions. -/
def State.vecBody (s : State) (ins : Nat → Nat → List (VSpec × Rect)) (out : Nat → Nat → VSpec × Rect)
    (cond : Nat → Nat → Bool) (f : Nat → Nat → Modes → List (List Nat) → VRes) : Try State := do
  let (site, slot, c) ← s.here
  let rows := shapeRows c.vshape
  let cols := shapeCols c.vshape
  let srcs := ins rows cols
  let o := out rows cols
  need (cond rows cols && o.2.ok && srcs.all (fun p => p.2.ok)) .shape
  let (vals, s) ← s.vsrcs site slot srcs
  let r := f rows cols c.modes vals
  let s ← s.vdst site slot o.1 o.2 r.es
  let s := s.modCtx site slot (·.stickRes r)
  .ok (s.holdVector site slot c ((srcs.map (fun p => p.2.bytes)).foldl Nat.max o.2.bytes))

/-- No condition of its own. -/
def always : Nat → Nat → Bool := fun _ _ => true

/-- One element with what it raises. -/
structure El where
  p     : Nat
  flags : Flags := 0
  sat   : Bool := false
deriving DecidableEq, Repr

/-- Elements together. -/
def VRes.ofEls (l : List El) : VRes where
  es := l.map (·.p)
  flags := l.foldl (fun f e => f ||| e.flags) 0
  sat := l.any (·.sat)

/-- Source `k` of a list of sources. -/
def srcAt (vs : List (List Nat)) (k : Nat) : List Nat := (vs[k]?).getD []

/-- Element-wise on one source of type `t` giving type `u`. -/
def vec1 (i : Instr) (d a : VSpec) (t u : VType) (f : Modes → Nat → El) (s : State) : Out :=
  word i s (fun s => s.vecBody (fun r k => [(a, ⟨r, k, t⟩)]) (fun r k => (d, ⟨r, k, u⟩)) always
    (fun _ _ md vs => VRes.ofEls ((srcAt vs 0).map (f md))))

/-- Element-wise on two sources of types `t` and `t2` giving type `u`. -/
def vec2 (i : Instr) (d a b : VSpec) (t t2 u : VType) (f : Modes → Nat → Nat → El) (s : State) : Out :=
  word i s (fun s => s.vecBody (fun r k => [(a, ⟨r, k, t⟩), (b, ⟨r, k, t2⟩)]) (fun r k => (d, ⟨r, k, u⟩)) always
    (fun _ _ md vs => VRes.ofEls (List.zipWith (f md) (srcAt vs 0) (srcAt vs 1))))

/-- Apply to three lists at once. -/
def zip3 (f : Nat → Nat → Nat → El) : List Nat → List Nat → List Nat → List El
  | a :: as, b :: bs, c :: cs => f a b c :: zip3 f as bs cs
  | _, _, _ => []

/-- Element-wise on va, vb and vd read as type `u` (R159). -/
def vec3 (i : Instr) (d a b : VSpec) (t u : VType) (f : Modes → Nat → Nat → Nat → El) (s : State) : Out :=
  word i s (fun s => do
    needV d
    s.vecBody (fun r k => [(a, ⟨r, k, t⟩), (b, ⟨r, k, t⟩), (d, ⟨r, k, u⟩)]) (fun r k => (d, ⟨r, k, u⟩)) always
      (fun _ _ md vs => VRes.ofEls (zip3 (f md) (srcAt vs 0) (srcAt vs 1) (srcAt vs 2))))

/-! ## Element operations (R165 to R167) -/

/-- A rounded result. -/
def elOf (r : Nat × Flags) : El := { p := r.1, flags := r.2 }

/-- An integer result that wraps, or a float result rounded once. -/
def elBin (t : VType) (fi : Int → Int → Int) (ff : RM → FVal → FVal → Ex) (md : Modes) (a b : Nat) : El :=
  match fmtOf t with
  | none => { p := t.wrap (fi (t.toInt a) (t.toInt b)) }
  | some f => elOf (f.roundEx md (ff md.rm (f.unpack a) (f.unpack b)))

def elAdd (t : VType) : Modes → Nat → Nat → El := elBin t (· + ·) FVal.add
def elSub (t : VType) : Modes → Nat → Nat → El := elBin t (· - ·) (fun rm a b => FVal.add rm a b.neg)
def elMul (t : VType) : Modes → Nat → Nat → El := elBin t (· * ·) (fun _ a b => FVal.mul a b)

/-- va x vb + vd (R165). -/
def elMla (t : VType) (md : Modes) (a b c : Nat) : El :=
  match fmtOf t with
  | none => { p := t.wrap (t.toInt a * t.toInt b + t.toInt c) }
  | some f => elOf (f.roundEx md (FVal.fma md.rm (f.unpack a) (f.unpack b) (f.unpack c)))

def elMin (t : VType) (_ : Modes) (a b : Nat) : El :=
  match fmtOf t with
  | none => { p := if t.toInt a < t.toInt b then a else b }
  | some f => { p := f.min a b }

def elMax (t : VType) (_ : Modes) (a b : Nat) : El :=
  match fmtOf t with
  | none => { p := if t.toInt a < t.toInt b then b else a }
  | some f => { p := f.max a b }

def elAbs (t : VType) (_ : Modes) (a : Nat) : El :=
  match fmtOf t with
  | none => { p := t.wrap (t.toInt a).natAbs }
  | some f => { p := if f.isNaN a then f.nan else a % f.signBit true }

def elNeg (t : VType) (_ : Modes) (a : Nat) : El :=
  match fmtOf t with
  | none => { p := t.wrap (-(t.toInt a)) }
  | some f => { p := if f.isNaN a then f.nan else (a + f.signBit true) % 2 ^ t.width }

/-- Shift left by `n` (R166). -/
def elShl (t : VType) (a n : Nat) : El := { p := if t.width ≤ n then 0 else a * 2 ^ n % 2 ^ t.width }

/-- Shift right by `n`, with sign fill for signed types (R165, R166). -/
def elShr (t : VType) (a n : Nat) : El := { p := t.wrap (t.toInt a / (2 ^ Nat.min n t.width : Nat)) }

/-- A saturating result (R43, R165). -/
def elSat (t : VType) (z : Int) : El :=
  let r := t.clamp z
  { p := t.wrap r.1, sat := r.2 }

/-- The upper half of the product (R165). -/
def elMulh (t : VType) (a b : Nat) : El := { p := t.wrap (t.toInt a * t.toInt b / (2 ^ t.width : Nat)) }

/-- The integer type of a mask (R168). -/
def maskType (t : VType) : VType := if t.size = 1 then .i8 else if t.size = 2 then .i16 else .i32

/-- All ones or zero (R168). -/
def elMask (t : VType) (b : Bool) (f : Flags := 0) : El := { p := if b then 2 ^ t.width - 1 else 0, flags := f }

/-- A comparison (R45, R168). -/
def elCmp (t : VType) (k : VCond) (_ : Modes) (a b : Nat) : El :=
  match fmtOf t with
  | none =>
    let x := t.toInt a
    let y := t.toInt b
    elMask t (match k with
      | .eq => x == y
      | .ne => x != y
      | .lt => decide (x < y)
      | .le => decide (x ≤ y)
      | .gt => decide (y < x)
      | .ge => decide (y ≤ x)
      | .ord => true
      | .unord => false)
  | some f =>
    let nan := f.isNaN a || f.isNaN b
    let x := f.unpack a
    let y := f.unpack b
    let iv : Flags := if nan then flagIV else 0
    match k with
    | .eq => elMask t (x.eqv y)
    | .ne => elMask t (!x.eqv y)
    | .lt => elMask t (x.lt y) iv
    | .le => elMask t (x.lt y || x.eqv y) iv
    | .gt => elMask t (y.lt x) iv
    | .ge => elMask t (y.lt x || x.eqv y) iv
    | .ord => elMask t (!nan)
    | .unord => elMask t nan

end Sys2Proof.Machine
end

