-- ==== Sys2Proof/Machine/VecOps.lean ====
section
/-! DEFINITION. Vector instructions: element-wise, compare, select, convert, scalar forms, reductions, rearranging and
packing (R163 to R186). -/

namespace Sys2Proof.Machine

/-- R164, R72. -/
def execVsplat (d : VSpec) (i : BitVec 16) (t : VType) (s : State) : Out :=
  word (.vsplat d i t) s (fun s => s.vecBody (fun _ _ => []) (fun r k => (d, ⟨r, k, t⟩)) always
    (fun r k md _ =>
      let e : Nat × Flags := match fmtOf t with
        | none => (t.wrap i.toInt, 0)
        | some f => f.convert md (Fmt.bf16.unpack i.toNat)
      { es := List.replicate (r * k) e.1, flags := e.2 }))

def execVadd (d a b : VSpec) (t : VType) (s : State) : Out := vec2 (.vadd d a b t) d a b t t t (elAdd t) s
def execVsub (d a b : VSpec) (t : VType) (s : State) : Out := vec2 (.vsub d a b t) d a b t t t (elSub t) s
def execVmul (d a b : VSpec) (t : VType) (s : State) : Out := vec2 (.vmul d a b t) d a b t t t (elMul t) s
/-- R159, R165. -/
def execVmla (d a b : VSpec) (t : VType) (s : State) : Out :=
  vec3 (.vmla d a b t) d a b t t (elMla t) s
def execVmin (d a b : VSpec) (t : VType) (s : State) : Out := vec2 (.vmin d a b t) d a b t t t (elMin t) s
def execVmax (d a b : VSpec) (t : VType) (s : State) : Out := vec2 (.vmax d a b t) d a b t t t (elMax t) s
def execVabs (d a : VSpec) (t : VType) (s : State) : Out := vec1 (.vabs d a t) d a t t (elAbs t) s
def execVneg (d a : VSpec) (t : VType) (s : State) : Out := vec1 (.vneg d a t) d a t t (elNeg t) s
def execVnot (d a : VSpec) (t : VType) (s : State) : Out := vec1 (.vnot d a t) d a t t (fun _ x => { p := 2 ^ t.width - 1 - x }) s
def execVmov (d a : VSpec) (t : VType) (s : State) : Out := vec1 (.vmov d a t) d a t t (fun _ x => { p := x }) s
def execVand (d a b : VSpec) (t : VType) (s : State) : Out :=
  vec2 (.vand d a b t) d a b t t t (fun _ x y => { p := Nat.land x y }) s
def execVor (d a b : VSpec) (t : VType) (s : State) : Out :=
  vec2 (.vor d a b t) d a b t t t (fun _ x y => { p := Nat.lor x y }) s
def execVxor (d a b : VSpec) (t : VType) (s : State) : Out :=
  vec2 (.vxor d a b t) d a b t t t (fun _ x y => { p := Nat.xor x y }) s
def execVshl (d a b : VSpec) (t : VType) (s : State) : Out :=
  vec2 (.vshl d a b t) d a b t t t (fun _ x y => elShl t x y) s
def execVshr (d a b : VSpec) (t : VType) (s : State) : Out :=
  vec2 (.vshr d a b t) d a b t t t (fun _ x y => elShr t x y) s
def execVadds (d a b : VSpec) (t : VType) (s : State) : Out :=
  vec2 (.vadds d a b t) d a b t t t (fun _ x y => elSat t (t.toInt x + t.toInt y)) s
def execVsubs (d a b : VSpec) (t : VType) (s : State) : Out :=
  vec2 (.vsubs d a b t) d a b t t t (fun _ x y => elSat t (t.toInt x - t.toInt y)) s
def execVmulh (d a b : VSpec) (t : VType) (s : State) : Out :=
  vec2 (.vmulh d a b t) d a b t t t (fun _ x y => elMulh t x y) s
/-- R168. -/
def execVcmp (d a b : VSpec) (t : VType) (c : VCond) (s : State) : Out :=
  vec2 (.vcmp d a b t c) d a b t t (maskType t) (elCmp t c) s

/-- R169: vd is the mask, read whole before any element is written. -/
def execVsel (d a b : VSpec) (t : VType) (s : State) : Out :=
  vec3 (.vsel d a b t) d a b t t (fun _ x y m => { p := if m = 0 then y else x }) s

/-! ## Division, roots and special functions (R64 to R67, R170, R173) -/

/-- A float operation on one source. -/
def elFloat1 (t : VType) (g : Fmt → Modes → Nat → Nat × Flags) (md : Modes) (a : Nat) : El :=
  match fmtOf t with
  | some f => elOf (g f md a)
  | none => { p := a }

/-- R170. -/
def execVdiv (d a b : VSpec) (t : VType) (s : State) : Out :=
  vec2 (.vdiv d a b t) d a b t t t (fun md x y => match fmtOf t with
    | some f => elOf (f.div md (f.unpack x) (f.unpack y))
    | none => { p := x }) s

def execVsqrt (d a : VSpec) (t : VType) (s : State) : Out :=
  vec1 (.vsqrt d a t) d a t t (elFloat1 t (fun f md x => f.sqrt md (f.unpack x))) s

/-- The nearest integer to 2^(idx/64) x 2^30 (R64): the 64th root by six square roots. -/
def expTab (idx : Nat) : Nat :=
  (isqrt (isqrt (isqrt (isqrt (isqrt (isqrt (2 ^ (1984 + idx))))))) + 1) / 2

/-- The nearest integer to 2^37 / (8193 + 2i) (R65). -/
def rcpTab (i : Nat) : Nat := (2 ^ 38 / (8193 + 2 * i) + 1) / 2

/-- The nearest integer to 2^24 / sqrt((4097 + 2 (i mod 2048)) 2^p / 4096) (R66). -/
def rsqTab (i p : Nat) : Nat := (isqrt (2 ^ 62 / ((4097 + 2 * (i % 2048)) * 2 ^ p)) + 1) / 2

/-- Round m x 2^e to an integer, to nearest-even. -/
def nearInt (neg : Bool) (m : Nat) (e : Int) : Int :=
  let n : Int := (roundInt .rne neg m e).1
  if neg then -n else n

/-- VExf (R64, R173): it reads neither RM nor FZ. -/
def vexfEl (a : Nat) : Nat × Flags :=
  match Fmt.fp32.unpack a with
  | .nan => (Fmt.fp32.nan, 0)
  | .inf _ => (Fmt.fp32.nan, flagIV)
  | .fin neg m e =>
    if (FVal.fin false 1 0).lt (.fin false m e) then (Fmt.fp32.nan, flagIV)
    else
      let x := nearInt neg m (e + 24)
      let j := x / 2 ^ 18
      let r := (x % 2 ^ 18).toNat
      let ex := j / 64
      let idx := (j % 64).toNat
      let p := 257941248 + 59597083 * r / 2 ^ 24
      let p := 744261118 + p * r / 2 ^ 24
      let p := 2 ^ 30 + p * r / 2 ^ 24
      Fmt.fp32.roundMag Modes.ne false (expTab idx * p / 2 ^ 30) (ex - 30) false

/-- A normalised magnitude: a 24-bit mantissa M and e with |x| = M / 2^23 x 2^e. -/
def normalise (m : Nat) (e : Int) : Nat × Int := (m * 2 ^ (23 - m.log2), e + m.log2)

/-- RNE with the FZ of the modes (R67). -/
def nearModes (md : Modes) : Modes := { fz := md.fz }

/-- VRcp (R65, R67). -/
def vrcpEl (f : Fmt) (md : Modes) (a : Nat) : Nat × Flags :=
  match f.unpack a with
  | .nan => (f.nan, 0)
  | .inf neg => (f.signBit neg, 0)
  | .fin neg m e =>
    if m = 0 then (f.exactInf false neg, flagDZ)
    else
      let q := normalise m e
      let t := rcpTab ((q.1 - 2 ^ 23) / 2 ^ 11)
      f.roundMag (nearModes md) neg (t * (2 ^ 48 - q.1 * t) / 2 ^ 41) (-30 - q.2) false

/-- VRsq (R66, R67). -/
def vrsqEl (f : Fmt) (md : Modes) (a : Nat) : Nat × Flags :=
  match f.unpack a with
  | .nan => (f.nan, 0)
  | .inf neg => if neg then (f.nan, flagIV) else (0, 0)
  | .fin neg m e =>
    if m = 0 then (f.exactInf false neg, flagDZ)
    else if neg then (f.nan, flagIV)
    else
      let q := normalise m e
      let p := (q.2 % 2).toNat
      let t := rsqTab (2048 * p + (q.1 - 2 ^ 23) / 2 ^ 12) p
      f.roundMag (nearModes md) false (t * (3 * 2 ^ 71 - q.1 * 2 ^ p * (t * t)) / 2 ^ 66) (-30 - (q.2 - p) / 2) false

def execVrcp (d a : VSpec) (t : VType) (s : State) : Out := vec1 (.vrcp d a t) d a t t (elFloat1 t vrcpEl) s
def execVrsq (d a : VSpec) (t : VType) (s : State) : Out := vec1 (.vrsq d a t) d a t t (elFloat1 t vrsqEl) s
/-- R173: type fp32 only. -/
def execVexf (d a : VSpec) (t : VType) (s : State) : Out :=
  vec1 (.vexf d a t) d a t t (fun _ x => elOf (vexfEl x)) s

/-! ## Conversions (R51 to R53, R62, R63, R81, R171) -/

/-- One element of `vcvt`. -/
def cvtEl (src dst : VType) (sat : Bool) (md : Modes) (a : Nat) : El :=
  match fmtOf src, fmtOf dst with
  | none, none => if sat then elSat dst (src.toInt a) else { p := dst.wrap (src.toInt a) }
  | none, some g => elOf (g.ofInt md (src.toInt a))
  | some f, none =>
    let r := toInt md.rm dst.lo dst.hi (f.unpack a)
    { p := dst.wrap r.1, flags := r.2 }
  | some f, some g =>
    if src = dst then { p := if f.isNaN a then f.nan else a } else elOf (g.convert md (f.unpack a))

/-- The magnitude of an element as FP32, exact (R62); none for a NaN. -/
def magOf (f : Fmt) (a : Nat) : Option Nat :=
  match f.unpack a with
  | .nan => none
  | .inf _ => some 0x7F800000
  | .fin _ m e => some (Fmt.fp32.roundMag Modes.ne false m e false).1

/-- AMAX after the elements of one conversion (R62, R63). -/
def amaxStep (f : Fmt) (w : Word) (a : Nat) : Word :=
  match magOf f a with
  | none => w ||| 0x100000000
  | some m => if w.toNat % 2 ^ 32 < m then (w &&& 0x100000000) ||| BitVec.ofNat 64 m else w

/-- R171. -/
def execVcvt (d a : VSpec) (src : VType) (sat amax : Bool) (dst : VType) (s : State) : Out :=
  word (.vcvt d a src sat amax dst) s (fun s =>
    s.vecBody (fun r k => [(a, ⟨r, k, src⟩)]) (fun r k => (d, ⟨r, k, dst⟩)) always
      (fun _ _ md vs =>
        let es := srcAt vs 0
        { VRes.ofEls (es.map (cvtEl src dst sat md)) with
          amax := fun w => match fmtOf src with
            | some f => if amax then es.foldl (amaxStep f) w else w
            | none => w }))

/-! ## Rounding to integral, exponent and mantissa (R172, R174, R175) -/

/-- Round to an integral value of the same format (R172). -/
def integral (rm : RM) (ix : Bool) (f : Fmt) (a : Nat) : Nat × Flags :=
  match f.unpack a with
  | .nan => (f.nan, 0)
  | .inf _ => (a, 0)
  | .fin neg m e =>
    let r := roundInt rm neg m e
    ((f.roundMag Modes.ne neg r.1 0 false).1, if ix && r.2 then flagIX else 0)

def execVrint (d a : VSpec) (t : VType) (s : State) : Out :=
  vec1 (.vrint d a t) d a t t (elFloat1 t (fun f md => integral md.rm true f)) s
def execVfloor (d a : VSpec) (t : VType) (s : State) : Out :=
  vec1 (.vfloor d a t) d a t t (elFloat1 t (fun f _ => integral .rd false f)) s
def execVceil (d a : VSpec) (t : VType) (s : State) : Out :=
  vec1 (.vceil d a t) d a t t (elFloat1 t (fun f _ => integral .ru false f)) s
def execVtrunc (d a : VSpec) (t : VType) (s : State) : Out :=
  vec1 (.vtrunc d a t) d a t t (elFloat1 t (fun f _ => integral .rz false f)) s
def execVrne (d a : VSpec) (t : VType) (s : State) : Out :=
  vec1 (.vrne d a t) d a t t (elFloat1 t (fun f _ => integral .rne false f)) s

/-- One element of `vinse` (R174). -/
def vinseEl (md : Modes) (a e : Nat) : Nat × Flags :=
  if e = 0x7FFFFFFF then (Fmt.fp32.infPat, 0)
  else if e = 0x80000000 then (0, 0)
  else match Fmt.fp32.unpack a with
    | .nan => (Fmt.fp32.nan, 0)
    | .inf _ => (a, 0)
    | .fin neg m x => if m = 0 then (a, 0) else Fmt.fp32.roundMag md neg m (x + VType.i32.toInt e) false

/-- R174: type fp32 only, vb an i32 tile. -/
def execVinse (d a b : VSpec) (t : VType) (s : State) : Out :=
  vec2 (.vinse d a b t) d a b t .i32 t (fun md x e => elOf (vinseEl md x e)) s

/-- floor(log2 |va|) as i32 (R175). -/
def getexpEl (f : Fmt) (a : Nat) : Nat × Flags :=
  match f.unpack a with
  | .nan => (0x80000000, flagIV)
  | .inf _ => (0x7FFFFFFF, flagIV)
  | .fin _ m e => if m = 0 then (0x80000000, flagIV) else (VType.i32.wrap (e + m.log2), 0)

def execVgetexp (d a : VSpec) (t : VType) (s : State) : Out :=
  vec1 (.vgetexp d a t) d a t .i32 (elFloat1 t (fun f _ x => getexpEl f x)) s

/-- |va| / 2^floor(log2 |va|) with the sign of va (R175). -/
def getmanEl (f : Fmt) (a : Nat) : Nat × Flags :=
  match f.unpack a with
  | .nan => (f.nan, 0)
  | .inf _ => (a, 0)
  | .fin neg m _ => if m = 0 then (a, 0) else (f.roundMag Modes.ne neg m (-(m.log2 : Int)) false)

def execVgetman (d a : VSpec) (t : VType) (s : State) : Out :=
  vec1 (.vgetman d a t) d a t t (elFloat1 t (fun f _ x => getmanEl f x)) s

/-! ## Vector-scalar forms (R177, R178) -/

/-- Element-wise on va and a scalar; a queue gives one entry for the whole instruction. -/
def vecS (i : Instr) (d a : VSpec) (sc : Spec) (t : VType) (f : Modes → Nat → Word → El) (s : State) : Out :=
  word i s (fun s => do
    let (v, s) ← s.src .C sc
    s.vecBody (fun r k => [(a, ⟨r, k, t⟩)]) (fun r k => (d, ⟨r, k, t⟩)) always
      (fun _ _ md vs => VRes.ofEls ((srcAt vs 0).map (fun x => f md x v))))

/-- The scalar read as the type (R177). -/
def scalarAs (t : VType) (v : Word) : Nat := v.toNat % 2 ^ t.width

def execVaddS (d a : VSpec) (c : Spec) (t : VType) (s : State) : Out :=
  vecS (.vaddS d a c t) d a c t (fun md x v => elAdd t md x (scalarAs t v)) s
def execVsubS (d a : VSpec) (c : Spec) (t : VType) (s : State) : Out :=
  vecS (.vsubS d a c t) d a c t (fun md x v => elSub t md x (scalarAs t v)) s
def execVmulS (d a : VSpec) (c : Spec) (t : VType) (s : State) : Out :=
  vecS (.vmulS d a c t) d a c t (fun md x v => elMul t md x (scalarAs t v)) s
def execVminS (d a : VSpec) (c : Spec) (t : VType) (s : State) : Out :=
  vecS (.vminS d a c t) d a c t (fun md x v => elMin t md x (scalarAs t v)) s
def execVmaxS (d a : VSpec) (c : Spec) (t : VType) (s : State) : Out :=
  vecS (.vmaxS d a c t) d a c t (fun md x v => elMax t md x (scalarAs t v)) s
def execVshlS (d a : VSpec) (c : Spec) (t : VType) (s : State) : Out :=
  vecS (.vshlS d a c t) d a c t (fun _ x v => elShl t x v.toNat) s
def execVshrS (d a : VSpec) (c : Spec) (t : VType) (s : State) : Out :=
  vecS (.vshrS d a c t) d a c t (fun _ x v => elShr t x v.toNat) s

/-- va x S + vd (R159, R177). -/
def execVmlaS (d a : VSpec) (c : Spec) (t : VType) (s : State) : Out :=
  word (.vmlaS d a c t) s (fun s => do
    needV d
    let (v, s) ← s.src .C c
    s.vecBody (fun r k => [(a, ⟨r, k, t⟩), (d, ⟨r, k, t⟩)]) (fun r k => (d, ⟨r, k, t⟩)) always
      (fun _ _ md vs => VRes.ofEls (List.zipWith (fun x y => elMla t md x (scalarAs t v) y) (srcAt vs 0) (srcAt vs 1))))

/-- R178. -/
def execVbcast (d : VSpec) (c : Spec) (t : VType) (s : State) : Out :=
  word (.vbcast d c t) s (fun s => do
    let (v, s) ← s.src .C c
    s.vecBody (fun _ _ => []) (fun r k => (d, ⟨r, k, t⟩)) always
      (fun r k _ _ => { es := List.replicate (r * k) (scalarAs t v) }))

/-! ## Reductions (R179, R180) -/

/-- The exact sum of finite values, as an integer times 2^g. -/
def sumFin (g : Int) : List FVal → Int
  | [] => 0
  | .fin n m e :: r => alignTo g n m e + sumFin g r
  | _ :: r => sumFin g r

/-- The least exponent of the finite values, and 0. -/
def leastExp : List FVal → Int
  | [] => 0
  | .fin _ _ e :: r => min e (leastExp r)
  | _ :: r => leastExp r

/-- Is the value a zero of this sign? -/
def FVal.isZero (neg : Bool) : FVal → Bool
  | .fin n m _ => m == 0 && n == neg
  | .nan => false
  | .inf _ => false

/-- The exact sum of values, rounded once, with the special cases of R180. -/
def sumVals (f : Fmt) (md : Modes) (vs : List FVal) : El :=
  if vs.any (· == .nan) then { p := f.nan }
  else
    let pos := vs.any (· == .inf false)
    let neg := vs.any (· == .inf true)
    if pos && neg then { p := f.nan, flags := flagIV }
    else if pos || neg then { p := f.exactInf md.sat8 neg }
    else
      let g := leastExp vs
      let t := sumFin g vs
      if t = 0 then
        { p := f.signBit (if vs.all (·.isZero true) then true
            else if vs.all (·.isZero false) then false else md.rm == .rd) }
      else elOf (f.roundMag md (decide (t < 0)) t.natAbs g false)

/-- A float sum: exact, rounded once (R180). -/
def sumEl (f : Fmt) (md : Modes) (ps : List Nat) : El := sumVals f md (ps.map f.unpack)

/-- One reduction (R179). Operation 0 is sum, 1 max, 2 min. -/
def reduceEls (t : VType) (op : Nat) (md : Modes) (ps : List Nat) : El :=
  match op, fmtOf t, ps with
  | _, _, [] => { p := 0 }
  | 0, none, _ => { p := t.wrap ((ps.map t.toInt).foldl (· + ·) 0) }
  | 0, some f, _ => sumEl f md ps
  | 1, _, x :: r => { p := r.foldl (fun m y => (elMax t md m y).p) (elMax t md x x).p }
  | _, _, x :: r => { p := r.foldl (fun m y => (elMin t md m y).p) (elMin t md x x).p }

/-- Elements of row `r`, of column `c`. -/
def rowOf (es : List Nat) (cols r : Nat) : List Nat := (es.drop (r * cols)).take cols
def colOf (es : List Nat) (rows cols c : Nat) : List Nat := (List.range rows).map (fun r => (es[r * cols + c]?).getD 0)

/-- A reduction (R179); one element stands for itself, a NaN as the canonical one. -/
def vred (i : Instr) (op : Nat) (d a : VSpec) (t : VType) (k : RedDir) (s : State) : Out :=
  word i s (fun s => s.vecBody (fun r c => [(a, ⟨r, c, t⟩)])
    (fun r c => (d, match k with
      | .rows => ⟨r, 1, t⟩
      | .cols => ⟨1, c, t⟩
      | .all => ⟨1, 1, t⟩)) always
    (fun r c md vs =>
      let es := srcAt vs 0
      VRes.ofEls (match k with
        | .rows => (List.range r).map (fun j => reduceEls t op md (rowOf es c j))
        | .cols => (List.range c).map (fun j => reduceEls t op md (colOf es r c j))
        | .all => [reduceEls t op md es])))

def execVredsum (d a : VSpec) (t : VType) (k : RedDir) (s : State) : Out := vred (.vredsum d a t k) 0 d a t k s
def execVredmax (d a : VSpec) (t : VType) (k : RedDir) (s : State) : Out := vred (.vredmax d a t k) 1 d a t k s
def execVredmin (d a : VSpec) (t : VType) (k : RedDir) (s : State) : Out := vred (.vredmin d a t k) 2 d a t k s

/-! ## Rearranging (R181) -/

/-- Element (r, c) of a tile with `cols` columns. -/
def at2 (es : List Nat) (cols r c : Nat) : Nat := (es[r * cols + c]?).getD 0

/-- A tile by rows and columns. -/
def tabulate (rows cols : Nat) (f : Nat → Nat → Nat) : List Nat :=
  ((List.range rows).map (fun r => (List.range cols).map (f r))).flatten

def execVtrans (d a : VSpec) (t : VType) (s : State) : Out :=
  word (.vtrans d a t) s (fun s => s.vecBody (fun r k => [(a, ⟨r, k, t⟩)]) (fun r k => (d, ⟨k, r, t⟩))
    (fun _ k => decide (k ≤ 64))
    (fun r k _ vs => { es := tabulate k r (fun c x => at2 (srcAt vs 0) k x c) }))

def execVrot (d a b : VSpec) (t : VType) (s : State) : Out :=
  word (.vrot d a b t) s (fun s => do
    needV b
    s.vecBody (fun r k => [(a, ⟨r, k, t⟩), (b, ⟨r, 1, .u16⟩)]) (fun r k => (d, ⟨r, k, t⟩)) always
      (fun r k _ vs => { es := tabulate r k (fun x c =>
        at2 (srcAt vs 0) k x ((c + at2 (srcAt vs 1) 1 x 0) % k)) }))

def execVperm (d a b : VSpec) (t : VType) (s : State) : Out :=
  word (.vperm d a b t) s (fun s => do
    needV b
    s.vecBody (fun r k => [(a, ⟨r, k, t⟩), (b, ⟨r, k, .u16⟩)]) (fun r k => (d, ⟨r, k, t⟩)) always
      (fun r k _ vs => { es := tabulate r k (fun x c =>
        at2 (srcAt vs 0) k x (at2 (srcAt vs 1) k x c % k)) }))

def execVzip (d a b : VSpec) (t : VType) (s : State) : Out :=
  word (.vzip d a b t) s (fun s => s.vecBody (fun r k => [(a, ⟨r, k, t⟩), (b, ⟨r, k, t⟩)])
    (fun r k => (d, ⟨r, 2 * k, t⟩)) (fun _ k => decide (2 * k ≤ 256))
    (fun r k _ vs => { es := tabulate r (2 * k) (fun x c => at2 (srcAt vs (c % 2)) k x (c / 2)) }))

def execVunzip (d a : VSpec) (t : VType) (s : State) : Out :=
  word (.vunzip d a t) s (fun s => s.vecBody (fun r k => [(a, ⟨r, k, t⟩)]) (fun r k => (d, ⟨r, k, t⟩))
    (fun _ k => k % 2 == 0)
    (fun r k _ vs => { es := tabulate r k (fun x c =>
      at2 (srcAt vs 0) k x (if c < k / 2 then 2 * c else 2 * c - k + 1)) }))

/-! ## Narrow formats (R54, R55, R57, R182 to R184) -/

/-- The multipliers of R57. -/
def tritMul (i : Nat) : Nat :=
  match i with
  | 0 => 65536
  | 1 => 21846
  | 2 => 7282
  | 3 => 2428
  | _ => 810

/-- Digit `i` of a byte of trits (R57). -/
def trit (b i : Nat) : Nat := b * tritMul i / 65536 % 3

/-- The weight of digit `i`, zero for the bytes 243 to 255 (R57). -/
def tritWeight (b i : Nat) : Int :=
  if 243 ≤ b then 0 else match trit b i with
    | 0 => 0
    | 1 => 1
    | _ => -1

/-- A signed number of `n` bits. -/
def signedOf (n v : Nat) : Int := if 2 ^ (n - 1) ≤ v then (v : Int) - 2 ^ n else v

/-- Bits [lo + n) of a row of bytes. -/
def rowBits (bs : List Nat) (lo n : Nat) : Nat := packElems 1 bs / 2 ^ lo % 2 ^ n

/-- R183: unpack trits. -/
def execVunp3 (d a : VSpec) (s : State) : Out :=
  word (.vunp3 d a) s (fun s => s.vecBody (fun r k => [(a, ⟨r, k / 5, .u8⟩)]) (fun r k => (d, ⟨r, k, .i8⟩))
    (fun _ k => k % 5 == 0)
    (fun r k _ vs =>
      { es := tabulate r k (fun x c => VType.i8.wrap (tritWeight (at2 (srcAt vs 0) (k / 5) x (c / 5)) (c % 5))),
        tern := (srcAt vs 0).any (fun b => decide (243 ≤ b)) }))

/-- Unpack `w`-bit signed fields of each row (R182). -/
def vunpack (i : Instr) (w m : Nat) (d a : VSpec) (s : State) : Out :=
  word i s (fun s => s.vecBody (fun r k => [(a, ⟨r, k * w / 8, .u8⟩)]) (fun r k => (d, ⟨r, k, .i8⟩))
    (fun _ k => k % m == 0)
    (fun r k _ vs => { es := tabulate r k (fun x c =>
      VType.i8.wrap (signedOf w (rowBits (rowOf (srcAt vs 0) (k * w / 8) x) (w * c) w))) }))

def execVunp4 (d a : VSpec) (s : State) : Out := vunpack (.vunp4 d a) 4 2 d a s
def execVunp3i (d a : VSpec) (s : State) : Out := vunpack (.vunp3i d a) 3 16 d a s

/-- Clamp to `w` signed bits. -/
def clampBits (w : Nat) (z : Int) : Int :=
  let h : Int := (2 ^ (w - 1) : Nat)
  if z < -h then -h else if h - 1 < z then h - 1 else z

/-- Pack clamped elements into `w`-bit fields, row by row (R184). -/
def packRow (w : Nat) (zs : List Int) : Nat :=
  match zs with
  | [] => 0
  | z :: r => (clampBits w z % (2 ^ w : Nat)).toNat + 2 ^ w * packRow w r

/-- Pack each row (R182, R184). -/
def vpack (i : Instr) (w m : Nat) (d a : VSpec) (s : State) : Out :=
  word i s (fun s => s.vecBody (fun r k => [(a, ⟨r, k, .i8⟩)]) (fun r k => (d, ⟨r, k * w / 8, .u8⟩))
    (fun _ k => k % m == 0)
    (fun r k _ vs =>
      let zs := (srcAt vs 0).map VType.i8.toInt
      { es := ((List.range r).map (fun x =>
          (leBytes (k * w / 8) (packRow w ((zs.drop (x * k)).take k))).map (·.toNat))).flatten,
        sat := zs.any (fun z => clampBits w z != z) }))

def execVpack4 (d a : VSpec) (s : State) : Out := vpack (.vpack4 d a) 4 2 d a s
def execVpack3 (d a : VSpec) (s : State) : Out := vpack (.vpack3 d a) 3 16 d a s

/-! ## Integer accumulation (R185, R186) -/

/-- R185. -/
def execVtacc (d a b : VSpec) (t : VType) (s : State) : Out :=
  word (.vtacc d a b t) s (fun s => do
    needV d
    s.vecBody (fun r k => [(a, ⟨r, k, t⟩), (b, ⟨r, k, t⟩), (d, ⟨r, k, .i32⟩)]) (fun r k => (d, ⟨r, k, .i32⟩)) always
      (fun _ _ _ vs => VRes.ofEls (zip3 (fun w x y =>
        let w := t.toInt w
        let x := t.toInt x
        { p := VType.i32.wrap (VType.i32.toInt y + (if 0 < w then x else if w < 0 then -x else 0)) })
        (srcAt vs 0) (srcAt vs 1) (srcAt vs 2))))

/-- R186. -/
def execVdot4 (d a b : VSpec) (t : VType) (s : State) : Out :=
  word (.vdot4 d a b t) s (fun s => do
    needV d
    s.vecBody (fun r k => [(a, ⟨r, k, t⟩), (b, ⟨r, k, t⟩), (d, ⟨r, k / 4, .i32⟩)]) (fun r k => (d, ⟨r, k / 4, .i32⟩))
      (fun _ k => k % 4 == 0)
      (fun r k _ vs => { es := tabulate r (k / 4) (fun x j =>
        VType.i32.wrap (VType.i32.toInt (at2 (srcAt vs 2) (k / 4) x j) +
          ((List.range 4).map (fun u => t.toInt (at2 (srcAt vs 0) k x (4 * j + u)) *
            t.toInt (at2 (srcAt vs 1) k x (4 * j + u)))).foldl (· + ·) 0)) }))

end Sys2Proof.Machine
end

