-- ==== Sys2Proof/Machine/Matrix.lean ====
section
/-! DEFINITION. The matrix instructions: operands through windows (R28 to R30, R54 to R59, R187, R188), the summation
of R60 and R61, `mma` and `smma` (R193, R197, R198), the accumulator operations (R194 to R196, R423) and what an item
does to the array (R191, R192). Operand bytes are read when the item starts. -/

namespace Sys2Proof.Machine

/-! ## The configuration word (R84, R85, R199) -/

def cfgK (c : Word) : Nat := (fld c 0 16).toNat
def cfgGA (c : Word) : Nat := 16 * 2 ^ (fld c 16 2).toNat
def cfgGB (c : Word) : Nat := 16 * 2 ^ (fld c 18 2).toNat
def cfgTri (c : Word) : Nat := (fld c 20 2).toNat
def cfgDiag (c : Word) : Int := (fld c 22 16).toInt
def cfgMask (c : Word) : Nat := (fld c 38 2).toNat
def cfgPbank (c : Word) : Nat := (fld c 40 3).toNat
def cfgTau (c : Word) : Nat := (fld c 48 16).toNat

/-- R85; `attn` extends the word (R199). -/
def cfgCheck (attn : Bool) (c : Word) : Try Unit :=
  need ((if attn then fld c 43 5 == 0 else fld c 40 24 == 0) && cfgTri c != 3 && cfgK c != 0 && cfgK c % 16 == 0 &&
    decide (cfgK c ≤ 4096)) .illop c

/-- Is element (i, j) masked (R193)? -/
def maskedAt (c : Word) (i j : Nat) : Bool :=
  match cfgTri c with
  | 0 => false
  | 1 => decide ((i : Int) + cfgDiag c < j)
  | _ => decide ((j : Int) < i + cfgDiag c)

/-- Is the 16 x 16 sub-tile computed: has it an element that is not masked (R193)? -/
def liveTile (c : Word) (bi bj : Nat) : Bool :=
  match cfgTri c with
  | 0 => true
  | 1 => decide ((16 * bj : Int) ≤ 16 * bi + 15 + cfgDiag c)
  | _ => decide ((16 * bi : Int) + cfgDiag c ≤ 16 * bj + 15)

/-- The row bands and the column bands that computed sub-tiles read, and their number (R191, R193). -/
def liveRows (c : Word) : List Nat := (List.range 8).filter (fun bi => (List.range 4).any (liveTile c bi))
def liveCols (c : Word) : List Nat := (List.range 4).filter (fun bj => (List.range 8).any (fun bi => liveTile c bi bj))
def liveCount (c : Word) : Nat :=
  ((List.range 8).map (fun bi => ((List.range 4).filter (liveTile c bi)).length)).foldl (· + ·) 0

/-- MaskConst as an FP32 pattern; none keeps the element (R84, R193). -/
def maskConst (c : Word) : Option Nat :=
  match cfgMask c with
  | 0 => some 0
  | 1 => some 0xFF800000
  | 2 => some 0xFE800000
  | _ => none

/-! ## Windows of matrix operands (R28, R29, R59) -/

/-- What R29 forbids of every window. -/
def wdLegal (d : Word) : Bool :=
  wdFmt d != 15 && wdSfmt d != 3 && (!wdAsf d || ((wdFmt d == 8 || wdFmt d == 9) && wdSfmt d == 2))

/-- A window of operand A: BF16 or FP8 (R29, R59). -/
def wdForA (d : Word) : Bool := wdLegal d && (wdFmt d == 6 || wdFmt d == 8 || wdFmt d == 9)

/-- A window of operand B in groups of `g` (R29, R59). -/
def wdForB (d : Word) (g : Nat) : Bool :=
  wdLegal d && match wdFmt d with
    | 6 => true
    | 8 => true
    | 9 => true
    | 10 => wdSfmt d == 1
    | 11 => wdSfmt d == 1
    | 12 => wdSfmt d == 2 && g == 32
    | 13 => wdSfmt d != 2
    | _ => false

/-- The pairings of R59. -/
def pairOk (fa fb : Nat) : Bool := if fa = 6 then fb == 6 || decide (10 ≤ fb) else fb != 6

/-! ## Elements and scales (R30, R54 to R58, R188) -/

/-- Bytes that hold the first `n` elements of a format. -/
def fmtBytes (f n : Nat) : Nat :=
  match f with
  | 6 => 2 * n
  | 10 => (n + 1) / 2
  | 12 => (n + 1) / 2
  | 11 => 6 * ((n + 15) / 16)
  | 13 => (n + 4) / 5
  | _ => n

/-- The first byte of element `e`, a multiple of 16. -/
def fmtStart (f e : Nat) : Nat :=
  match f with
  | 6 => 2 * e
  | 10 => e / 2
  | 12 => e / 2
  | 11 => 6 * (e / 16)
  | 13 => e / 5
  | _ => e

/-- A signed integer as a value. -/
def intVal (z : Int) : FVal := .fin (decide (z < 0)) z.natAbs 0

/-- The expanded integers of the E2M1 nibbles (R56). -/
def mxExpand (n : Nat) : Nat :=
  match n with
  | 0 => 0
  | 1 => 1
  | 2 => 2
  | 3 => 3
  | 4 => 4
  | 5 => 6
  | 6 => 8
  | _ => 12

/-- Element `e` of an operand whose bytes `get` reads (R54 to R57). -/
def elemVal (f : Nat) (get : Nat → Nat) (e : Nat) : FVal :=
  let nib := get (e / 2) / 16 ^ (e % 2) % 16
  match f with
  | 6 => Fmt.bf16.unpack (get (2 * e) + 256 * get (2 * e + 1))
  | 8 => Fmt.e4m3.unpack (get e)
  | 9 => Fmt.e5m2.unpack (get e)
  | 10 => intVal (signedOf 4 nib)
  | 11 =>
    let bit := 3 * (e % 16)
    let at_ := 6 * (e / 16) + bit / 8
    intVal (signedOf 3 ((get at_ + 256 * get (at_ + 1)) / 2 ^ (bit % 8) % 8))
  | 12 => .fin (decide (8 ≤ nib)) (mxExpand (nib % 8)) 0
  | _ => intVal (tritWeight (get (e / 5)) (e % 5))

/-- A scale: BF16, or E8M0 read with bias `bias` (R56, R58). -/
def scaleVal (sfmt : Nat) (bias : Int) (get : Nat → Nat) (k : Nat) : FVal :=
  if sfmt = 1 then Fmt.bf16.unpack (get (2 * k) + 256 * get (2 * k + 1))
  else if get k = 255 then .nan else .fin false 1 (get k - bias)

/-- An operand: window, format, place, the element bytes it reads as (offset, length), the bytes of its scales and
metadata, and its scales, if any. -/
structure Opd where
  wd     : Word
  fmt    : Nat
  target : Nat
  off    : Nat
  spans  : List (Nat × Nat)
  extra  : List (Nat × Nat) := []
  sfmt   : Nat := 0
  soff   : Nat := 0
  groups : Nat := 1
  size   : Nat := 16

/-- Bytes of a scale. -/
def scaleSize (sfmt : Nat) : Nat := if sfmt = 1 then 2 else 1

/-- Is the operand scaled (R29, R58)? The scale format, 0 for none. -/
def scaleOf (isA : Bool) (d : Word) : Nat := if isA then (if wdAsf d then 2 else 0) else wdSfmt d

/-- Locate an operand and check the bytes and scales it reads (R27, R30, R187, R193). `per` elements stand in each
row or column of decode order, `trans` marks the K-major A, `bands` are the bands of 16 rows or columns read, and
scales count from index `first`. -/
def State.operand (s : State) (site : Nat) (isA : Bool) (addr : Word) (per k g : Nat) (trans : Bool) (bands : List Nat)
    (first : Nat) : Try Opd := do
  let d := (s.tile site).window (locWin addr)
  let f := wdFmt d
  let cut (lo hi : Nat) : Nat × Nat := (fmtStart f lo, fmtBytes f hi - fmtStart f lo)
  let rel := if trans then
      (bands.map (fun b => (List.range k).map (fun x => cut (128 * x + 16 * b) (128 * x + 16 * b + 16)))).flatten
    else bands.map (fun b => cut (16 * b * per) (16 * (b + 1) * per))
  let (target, off) ← s.localCheck site addr ((rel.map (fun p => p.1 + p.2)).foldl Nat.max 0)
  let spans := rel.map (fun p => (off + p.1, p.2))
  let sf := scaleOf isA d
  if sf = 0 then .ok { wd := d, fmt := f, target := target, off := off, spans := spans }
  else
    let groups := (k + g - 1) / g
    let z := scaleSize sf
    let soff := wdSoff d + z * first
    let sspans := bands.map (fun b => (soff + z * (16 * b * groups), z * (16 * groups)))
    need (sspans.all (fun p => decide (p.1 + p.2 ≤ spadSize (s.tile target).l1sz))) .localrange 0
      (addr - BitVec.ofNat 64 (locOff addr) + BitVec.ofNat 64 soff)
    .ok { wd := d, fmt := f, target := target, off := off, spans := spans, extra := sspans, sfmt := sf, soff := soff, groups := groups,
          size := g }

/-- The ranges of a scratchpad that an operand reads. -/
def Opd.cuts (o : Opd) : List (Nat × Nat) := o.spans ++ o.extra

/-- Is a read one that the same request of another tile meets within 64 ticks of the first (R189)? -/
def OpRead.serves (r : OpRead) (o : Opd) (site now : Nat) : Bool :=
  r.ranges == o.cuts && r.wd == o.wd && !r.served.contains site && decide (now ≤ r.since + 64)

/-- The bytes an operand is read from: those of a read that also serves this tile (R189), else the scratchpad's. (DEDUCED, log 78.) -/
def State.opdSource (s : State) (site : Nat) (o : Opd) : Memory :=
  if o.target = site then (s.tile site).spad
  else match (s.tile o.target).opReads.find? (·.serves o site (s.clusterTick (siteCluster o.target))) with
    | some r => r.bytes
    | none => (s.tile o.target).spad

/-- An operand has been read: a read of another tile's scratchpad is kept for 64 ticks (R189). -/
def State.noteRead (s : State) (site : Nat) (o : Opd) : State :=
  if o.target = site then s
  else
    let now := s.clusterTick (siteCluster o.target)
    let within (m : Memory) : Memory := m.filter (fun c => o.cuts.any (fun p => decide (p.1 ≤ c.1) && decide (c.1 < p.1 + p.2)))
    s.modTile o.target (fun t =>
      let l := t.opReads.filter (fun r => decide (now ≤ r.since + 64))
      match l.find? (·.serves o site now) with
      | some r => { t with opReads := l.map (fun x => if x = r then { x with served := site :: x.served } else x) }
      | none => { t with opReads := ⟨o.cuts, o.wd, now, [site], within t.spad⟩ :: l })

/-- The bytes of an operand from an offset. -/
def State.opdBytes (s : State) (site : Nat) (o : Opd) (off n : Nat) : Array Byte := ((s.opdSource site o).readN off n).toArray

/-- Byte `i` of an array, as a number. -/
def byteAt (a : Array Byte) (i : Nat) : Nat := ((a[i]?).getD 0).toNat

/-- The elements of an operand of `n` elements, in decode order. -/
def State.opdElems (s : State) (site : Nat) (o : Opd) (n : Nat) : Array FVal :=
  let bs := s.opdBytes site o o.off (fmtBytes o.fmt n)
  ((List.range n).map (elemVal o.fmt (byteAt bs))).toArray

/-- Element `e` of an operand. -/
def valAt (a : Array FVal) (e : Nat) : FVal := (a[e]?).getD .nan

/-- The group scales of an operand, by scale index (R30, R188); none when it is not scaled. -/
def State.opdScales (s : State) (site : Nat) (o : Opd) (rows : Nat) : Array FVal :=
  if o.sfmt = 0 then #[]
  else
    let bs := s.opdBytes site o o.soff (scaleSize o.sfmt * rows * o.groups)
    ((List.range (rows * o.groups)).map (scaleVal o.sfmt (if o.fmt = 12 then 128 else 127) (byteAt bs))).toArray

/-- The group scale at depth `k` of row or column `r` (R30, R188). -/
def Opd.scaleAt (o : Opd) (a : Array FVal) (r k : Nat) : FVal :=
  if o.sfmt = 0 then .fin false 1 0 else valAt a (r * o.groups + k / o.size)

/-- Does the operand read a TERN5 element byte from 243 to 255 (R57)? -/
def State.ternBad (s : State) (site : Nat) (o : Opd) : Bool :=
  o.fmt == 13 && o.spans.any (fun p => ((s.opdSource site o).readN p.1 p.2).any (fun b => decide (243 ≤ b.toNat)))

/-! ## The summation (R60, R61) -/

/-- The sum of finite products as a value; an exact zero is −0 only when all products are −0. -/
def exactSum (ps : List FVal) : FVal :=
  let g := leastExp ps
  let t := sumFin g ps
  if t = 0 then .fin (ps.all (·.isZero true)) 0 0 else .fin (decide (t < 0)) t.natAbs g

/-- A sum times both scales, exact. -/
def scaled (v sa sb : FVal) : Ex :=
  let x := v.mul sa
  let y := x.1.mul sb
  (y.1, x.2 ||| y.2)

/-- Vr of one group (R60, R61). A NaN among the elements or scales gives NaN without IV, also when the group has an invalid
product or infinities of both signs, for which another row of R61 sets IV. (DESIGN CHOICE, log 117.) -/
def groupSum (md : Modes) (ps : List (FVal × FVal)) (sa sb : FVal) : Nat × Flags :=
  if sa = .nan ∨ sb = .nan ∨ ps.any (fun p => p.1 == .nan || p.2 == .nan) then (Fmt.fp32.nan, 0)
  else
    let xs := ps.map (fun p => p.1.mul p.2)
    let vs := xs.map Prod.fst
    let pos := vs.any (· == .inf false)
    let neg := vs.any (· == .inf true)
    if xs.any (fun x => x.2 != 0) || (pos && neg) then (Fmt.fp32.nan, flagIV)
    else Fmt.fp32.roundEx md (scaled (if pos || neg then .inf neg else exactSum vs) sa sb)

/-- Add one group into an accumulator element (R60). -/
def addGroup (md : Modes) (c : Nat × Flags) (v : Nat × Flags) : Nat × Flags :=
  let r := Fmt.fp32.roundEx md (FVal.add .rne (Fmt.fp32.unpack c.1) (Fmt.fp32.unpack v.1))
  (r.1, c.2 ||| v.2 ||| r.2)

/-- One accumulator element over all groups of 16, in increasing order (R60). -/
def dotInto (md : Modes) (k : Nat) (a b : Nat → FVal) (sa sb : Nat → FVal) (c : Nat) : Nat × Flags :=
  (List.range (k / 16)).foldl (fun acc g =>
    addGroup md acc (groupSum md ((List.range 16).map (fun x => (a (16 * g + x), b (16 * g + x)))) (sa (16 * g))
      (sb (16 * g)))) (c, 0)

/-! ## Accumulators -/

/-- Element (i, j) of a bank as a pattern. -/
def accEl (c : Acc) (i j : Nat) : Nat := (c.extractLsb' (32 * (64 * i + j)) 32).toNat

/-- A bank from its 8,192 elements in order. -/
def accOf (l : List Nat) : Acc := BitVec.ofNat 262144 (packElems 4 l)

/-- Change every element, with the flags raised. -/
def accMap (f : Nat → Nat → Nat → Nat × Flags) (c : Acc) : Acc × Flags :=
  let l := (List.range 8192).map (fun e => f (e / 64) (e % 64) (accEl c (e / 64) (e % 64)))
  (accOf (l.map Prod.fst), l.foldl (fun x p => x ||| p.2) 0)

/-- The product of R193 into a bank. `b i x j` is b(x, j) as row i meets it: a sparse row has +0 products where it has no
value (R198). -/
def product (md : Modes) (cfg : Word) (k : Nat) (a : Nat → Nat → FVal) (sa : Nat → Nat → FVal)
    (b : Nat → Nat → Nat → FVal) (sb : Nat → Nat → FVal) (c : Acc) : Acc × Flags :=
  accMap (fun i j old =>
    if maskedAt cfg i j then ((maskConst cfg).getD old, 0)
    else dotInto md k (a i) (fun x => b i x j) (sa i) (sb j) old) c

/-- The banks of a task with their mstat. -/
structure Banks where
  acc   : Vector Acc 8
  mstat : Vector MStat 4

/-- One bank. -/
def Banks.bank (b : Banks) (k : Nat) : Acc := vget 0 b.acc k

/-- Matrix work after its checks: the operands it reads, base time times sub-tiles (R191), the banks it
reads, and what it does: banks, flags, TERNBAD. -/
structure MatWork where
  opds   : List Opd
  ts     : Nat
  reads  : List Nat
  run    : Banks → Banks × Flags
  tern   : Bool := false
  /-- The banks it writes whole, whose errors go with their contents. -/
  fresh  : List Nat := []

/-- The base time of the products (R191). -/
def baseTime (fa fb k : Nat) : Nat := if fa = 6 then k else if fb = 8 ∨ fb = 9 then k / 2 else k / 4

/-- The products that OP of R212 and the matrix instructions name. -/
inductive MatOp where
  | mma
  | mmaT
  | smma
  | smmaB
deriving DecidableEq, Repr

/-- The scratchpad ranges an operand reads. -/
def Opd.ranges (o : Opd) : List (Nat × Nat × Nat) := o.cuts.map (fun p => (o.target, p.1, p.2))

/-- The scratchpad ranges an item reads. -/
def MatWork.ranges (w : MatWork) : List (Nat × Nat × Nat) := (w.opds.map Opd.ranges).flatten

/-- The logical element a(i, k) of a sparse A from its two values (R197), with IV for +∞ and −∞ at one place. -/
def sparseEl (v0 v1 : FVal) (p0 p1 pos : Nat) : Ex :=
  if p0 = pos ∧ p1 = pos then
    if v0 = .nan ∨ v1 = .nan then (.nan, 0) else FVal.add .rne v0 v1
  else if p0 = pos then (v0, 0)
  else if p1 = pos then (v1, 0)
  else (.fin false 0 0, 0)

/-- The place of value 2q and of value 2q + 1 in group q of row i (R197). -/
def sparsePos (k : Nat) (meta_ : Nat → Nat) (i q : Nat) : Nat × Nat :=
  let nib := meta_ (i * (k / 8) + q / 2) / 16 ^ (q % 2) % 16
  (nib % 4, nib / 4)

/-- Has the logical a(i, x) no value (R197)? -/
def sparseEmpty (k : Nat) (meta_ : Nat → Nat) (i x : Nat) : Bool :=
  let p := sparsePos k meta_ i (x / 4)
  p.1 != x % 4 && p.2 != x % 4

/-- b(x, j) as a position without a value meets it: the product is +0, whatever b is (R198); a NaN still makes its group
NaN (R61; DEDUCED, log 98). -/
def holeB (b : FVal) : FVal := if b = .nan then .nan else .fin false 0 0

/-- The logical A of `smma`: values by decode index, metadata bytes by index (R197). -/
def sparseA (k : Nat) (val : Nat → FVal) (meta_ : Nat → Nat) (i x : Nat) : Ex :=
  let q := x / 4
  let p := sparsePos k meta_ i q
  sparseEl (val (i * (k / 2) + 2 * q)) (val (i * (k / 2) + 2 * q + 1)) p.1 p.2 (x % 4)

/-- The window checks of the operands of a product (R29, R59); a global address names no window (R28). -/
def State.productWindows (s : State) (site : Nat) (a b : Word) (ga gb : Nat) (trans : Bool) : Try Unit := do
  let da := (s.tile site).window (locWin a)
  let db := (s.tile site).window (locWin b)
  need (!isLocal a || (wdForA da && !(trans && wdAsf da) && (wdFmt da != 12 || ga == 32))) .winfmt
  need (!isLocal b || wdForB db gb) .winfmt
  need (!isLocal a || !isLocal b || pairOk (wdFmt da) (wdFmt db)) .winfmt

/-- The checks of a product and what it does (R187, R188, R193, R197, R198). -/
def State.productWork (s : State) (site : Nat) (op : MatOp) (zero : Bool) (bank : Nat) (a b cfg : Word) (fz : Bool) :
    Try MatWork := do
  let k := cfgK cfg
  let ga := cfgGA cfg
  let gb := cfgGB cfg
  let trans := op == .mmaT
  let sparse := op == .smma
  s.productWindows site a b ga gb trans
  need (isLocal a) .localrange 1 a
  need (isLocal b) .localrange 1 b
  let oa0 ← s.operand site true a (if sparse then k / 2 else k) k ga trans (liveRows cfg) 0
  let ob ← s.operand site false b k k gb false (liveCols cfg) 0
  let vals := fmtBytes oa0.fmt (64 * k)
  let (_, mo) ← (if sparse then s.localCheck site (a + BitVec.ofNat 64 vals) (16 * k) else .ok (oa0.target, 0) :
    Try (Nat × Nat))
  let oa : Opd := if sparse then { oa0 with extra := oa0.extra ++ [(mo, 16 * k)] } else oa0
  let md : Modes := { fz := fz }
  let va := s.opdElems site oa (if sparse then 64 * k else 128 * k)
  let vb := s.opdElems site ob (64 * k)
  let sa := s.opdScales site oa 128
  let sb := s.opdScales site ob 64
  let mb := s.opdBytes site oa mo (if sparse then 16 * k else 0)
  let logical (i x : Nat) : Ex :=
    if sparse then sparseA k (valAt va) (byteAt mb) i x
    else (valAt va (if trans then x * 128 + i else i * k + x), 0)
  let le := ((List.range (128 * k)).map (fun e => logical (e / k) (e % k))).toArray
  let iv : Flags := if le.any (fun x => x.2 != 0) then flagIV else 0
  let la (i x : Nat) : FVal := ((le[i * k + x]?).getD (.nan, 0)).1
  .ok { opds := [oa, ob]
        ts := baseTime oa.fmt ob.fmt k * (if op = .smmaB then 2 else 1) * liveCount cfg
        reads := if zero then [] else [bank]
        run := fun x =>
          let c : Acc := if zero then 0 else x.bank bank
          let r := product md cfg k la (oa.scaleAt sa) (fun i y j =>
            let b := valAt vb (j * k + y)
            if sparse && sparseEmpty k (byteAt mb) i y then holeB b else b) (ob.scaleAt sb) c
          ({ x with acc := vput x.acc bank r.1 }, r.2 ||| iv)
        tern := s.ternBad site ob
        fresh := if zero then [bank] else [] }

/-- The check of a product's configuration word, its operands, then TRI of a sparse product (R85, R193, R198). R85 comes
first, as the pseudocode of R193 has it. (DESIGN CHOICE, log 79.) -/
def State.matWork (s : State) (site : Nat) (op : MatOp) (zero : Bool) (bank : Nat) (a b cfg : Word) (fz : Bool) :
    Try MatWork := do
  cfgCheck false cfg
  let w ← s.productWork site op zero bank a b cfg fz
  need (op != .smma || cfgTri cfg == 0) .illop cfg
  .ok w

/-! ## Items on the array (R190 to R192, R299, R423) -/

/-- The array is free for a C-stream item of a context: no item holds it, and no matrix command that this context wrote
to e4 earlier is left (R191). -/
def Tile.arrayFree (t : Tile) (slot : Nat) : Bool :=
  t.array.isNone && !t.cmds.any (fun m => m.port == 4 && !m.remote && m.slot == some slot && !m.finished &&
    hdrOpc m.hdr == 0x20)

/-- Every range an item reads is clear of inbound transfers (R190). -/
def State.rangesClear (s : State) (l : List (Nat × Nat × Nat)) (write : Bool) : Try Unit :=
  l.forM (fun r => s.scoreboard r.1 r.2.1 r.2.2 write)

/-- The reads of an item meet errors and poison. (DEDUCED, log 74.) -/
def State.rangesErrors (s : State) (l : List (Nat × Nat × Nat)) (launch : Option Nat) : Try State :=
  l.foldlM (fun s r => s.spadErrors r.1 r.2.1 r.2.2 launch) s

/-- The reads of an item that an engine placed: an engine does not fault on errors; what its operands are poisoned by taints
the launch (R386). (DEDUCED, log 74.) -/
def State.rangesEngine (s : State) (l : List (Nat × Nat × Nat)) (launch : Nat) : State :=
  l.foldl (fun s r =>
    let t := s.tile r.1
    let ds := dwords r.2.1 r.2.2
    let s := s.spadScrub r.1 ds (some launch)
    if ds.any (fun d => t.poison.contains d || t.bad.contains d) then s.taint launch else s) s

/-- f of a matrix item in eighths for a holding and a need of its class (R299). -/
def Ctx.matFraction (c : Ctx) (k : TileClass) : Nat :=
  fraction c.tok.avail (Nat.max (needOf c.task.msg.ec) (matDraw k))

/-- ceil(T x s / 32 / f) (R191). -/
def itemTicks (ts f : Nat) : Nat := (8 * ts + 32 * f - 1) / (32 * f)

/-- A context's banks. -/
def Ctx.banks (c : Ctx) : Banks := ⟨c.acc, c.mstat⟩

/-- The flags of a matrix instruction go to VSTAT (R49, R57). -/
def Ctx.putBanks (c : Ctx) (b : Banks) (fl : Flags) (tern : Bool) : Ctx :=
  ({ c with acc := b.acc, mstat := b.mstat }.stickV fl).stickTern tern

/-- Start a C-stream item whose work is known: the array, the tokens, the ranges, the effect (R190 to R192). (DEDUCED, log 39.) -/
def State.runItem (s : State) (site slot : Nat) (w : MatWork) : Try State :=
  match s.ctx? site slot with
  | none => .error (.fault .noAgent)
  | some c => do
    let t := s.tile site
    await (t.arrayFree slot) .array
    let f := c.matFraction (siteClass site)
    await (f != 0) .token
    s.rangesClear w.ranges false
    let s ← s.rangesErrors w.ranges (some c.task.msg.launch)
    let s := w.opds.foldl (fun s o => s.noteRead site o) s
    let s ← w.reads.foldlM (fun s k => s.scrub site slot (.bank k)) s
    let r := w.run c.banks
    let s := s.modCtx site slot (fun c => w.fresh.foldl (fun c k => c.unmark (.bank k)) (c.putBanks r.1 r.2 w.tern))
    let s := if f < 8 then s.modTile site (·.count 8 1) else s
    .ok (s.modTile site (fun t => { t with array := some ⟨itemTicks w.ts f, some slot, none, false, false⟩ }))

/-- A product instruction. When they name one queue the configuration word pops first, as the pseudocode of R193 reads it,
then a, then b (DEDUCED, log 92). -/
def matInstr (i : Instr) (op : MatOp) (zero : Bool) (k : BitVec 3) (a b c : Spec) (s : State) : Out :=
  word i s (fun s => do
    let (cfg, s) ← s.src .C c
    let (va, s) ← s.src .C a
    let (vb, s) ← s.src .C b
    let (site, slot, c) ← s.here
    let w ← s.matWork site op zero k.toNat va vb cfg c.modes.fz
    s.runItem site slot w)

def execMma (k : BitVec 3) (a b c : Spec) (s : State) : Out := matInstr (.mma k a b c) .mma false k a b c s
def execMmaZ (k : BitVec 3) (a b c : Spec) (s : State) : Out := matInstr (.mmaZ k a b c) .mma true k a b c s
def execMmaT (k : BitVec 3) (a b c : Spec) (s : State) : Out := matInstr (.mmaT k a b c) .mmaT false k a b c s
def execMmaTz (k : BitVec 3) (a b c : Spec) (s : State) : Out := matInstr (.mmaTz k a b c) .mmaT true k a b c s
def execSmma (k : BitVec 3) (a b c : Spec) (s : State) : Out := matInstr (.smma k a b c) .smma false k a b c s
def execSmmaZ (k : BitVec 3) (a b c : Spec) (s : State) : Out := matInstr (.smmaZ k a b c) .smma true k a b c s
def execSmmaB (k : BitVec 3) (a b c : Spec) (s : State) : Out := matInstr (.smmaB k a b c) .smmaB false k a b c s

/-! ## Accumulator operations (R194 to R196, R423) -/

/-- An accumulator operation holds the array for a fixed time, whatever the tokens (R423). -/
def State.holdArray (s : State) (site slot ticks : Nat) : State :=
  s.modTile site (fun t => { t with array := some ⟨ticks, some slot, none, false, false⟩ })

/-- The row of an mstat as `mzero` sets it: MAX −∞, SUM +0, CORR 1.0 (R194). -/
def mstatRow0 : Nat := 0xFF800000 + 2 ^ 64 * 0x3F800000

/-- An mstat of equal rows. -/
def mstatFill (row : Nat) : MStat := BitVec.ofNat 12288 (packElems 12 (List.replicate 128 row))

/-- R194. -/
def execMzero (k : BitVec 3) (s : State) : Out :=
  word (.mzero k) s (fun s => do
    let (site, slot, _) ← s.here
    await ((s.tile site).arrayFree slot) .array
    let s := s.modCtx site slot (fun c =>
      { c with acc := vput c.acc k.toNat 0
               mstat := if siteClass site == TileClass.at then vput c.mstat k.toNat (mstatFill mstatRow0) else c.mstat }.unmark
        (.bank k.toNat))
    .ok (s.holdArray site slot 4))

/-- The window of an accumulator transfer: the format, none for raw bytes (R29, R195). `mwr` reads an FP32 window too. (DEDUCED, log 80.) -/
def accWindow (d : Word) : Try (Option Fmt) :=
  if wdLegal d then
    match wdFmt d with
    | 6 => .ok (some .bf16)
    | 7 => .ok (some .fp32)
    | 8 => .ok (some .e4m3)
    | 9 => .ok (some .e5m2)
    | 14 => .ok none
    | _ => trapWith .winfmt
  else trapWith .winfmt

/-- Bytes of an element of an accumulator transfer. -/
def accSize : Option Fmt → Nat
  | none => 4
  | some f => f.bits / 8

/-- The checks of `mrd` and `mwr`: format, row pitch, target and offset of row 0 (R195). -/
def State.accPlace (s : State) (site : Nat) (own : Bool) (a pw : Word) : Try (Option Fmt × Nat × Nat × Nat) := do
  let f ← (if isLocal a then accWindow ((s.tile site).window (locWin a)) else .ok none : Try (Option Fmt))
  need (isLocal a) .localrange 1 a
  need (!own || locTile a == siteIdx site) .localrange 3 a
  let z := accSize f
  let p := (fld pw 0 32).toNat
  let pitch := if p = 0 then 64 * z else p
  let (target, off) ← s.localCheck site a (127 * pitch + 64 * z)
  need (fld pw 32 32 == 0) .illop
  .ok (f, pitch, target, off)

/-- The rows of an accumulator transfer as ranges. -/
def accRows (target off pitch n : Nat) : List (Nat × Nat × Nat) :=
  (List.range 128).map (fun i => (target, off + i * pitch, n))

/-- R195: store a bank through a window. The address pops before the pitch (DEDUCED, log 92). A later row overwrites an
earlier one (DESIGN CHOICE, log 112). -/
def execMrd (k : BitVec 3) (a c : Spec) (s : State) : Out :=
  word (.mrd k a c) s (fun s => do
    let (va, s) ← s.src .C a
    let (pw, s) ← s.src .C c
    let (site, slot, x) ← s.here
    let (f, pitch, target, off) ← s.accPlace site true va pw
    await ((s.tile site).arrayFree slot) .array
    let z := accSize f
    s.rangesClear (accRows target off pitch (64 * z)) true
    let s ← s.scrub site slot (.bank k.toNat)
    let bank := vget 0 x.acc k.toNat
    let enc (p : Nat) : Nat × Flags := match f with
      | none => (p, 0)
      | some g => g.convert x.modes (Fmt.fp32.unpack p)
    let rows := (List.range 128).map (fun i => (List.range 64).map (fun j => enc (accEl bank i j)))
    let s := rows.zipIdx.foldl (fun s r =>
      s.spadWrite target (off + r.2 * pitch) ((r.1.map (fun p => leBytes z p.1)).flatten)) s
    let fl := rows.flatten.foldl (fun x p => x ||| p.2) (0 : Flags)
    .ok ((s.modCtx site slot (·.stickV fl)).holdArray site slot 64))

/-- R195: load a bank through a window. The address pops before the pitch (DEDUCED, log 92). -/
def execMwr (k : BitVec 3) (a c : Spec) (s : State) : Out :=
  word (.mwr k a c) s (fun s => do
    let (va, s) ← s.src .C a
    let (pw, s) ← s.src .C c
    let (site, slot, x) ← s.here
    let (f, pitch, target, off) ← s.accPlace site false va pw
    await ((s.tile site).arrayFree slot) .array
    let z := accSize f
    let rows := accRows target off pitch (64 * z)
    s.rangesClear rows false
    let s ← s.rangesErrors rows (some x.task.msg.launch)
    let dec (p : Nat) : Nat := match f with
      | none => p
      | some g => (Fmt.fp32.round Modes.ne (g.unpack p)).1
    let es := (rows.map (fun r => (List.range 64).map (fun j =>
      dec (leNat (s.spadBytes r.1 (r.2.1 + z * j) z))))).flatten
    let s := s.modCtx site slot (fun c => { c with acc := vput c.acc k.toNat (accOf es) }.unmark (.bank k.toNat))
    .ok (s.holdArray site slot 64))

/-- The FP32 scales at a local address. -/
def State.scaleVec (s : State) (site : Nat) (a : Word) (n : Nat) : Try (Nat × Nat × Nat) := do
  let (target, off) ← s.localCheck site a (4 * n)
  .ok (target, off, 4 * n)

/-- The exact product of three operands, a NaN among them giving NaN (R45, R196). (DEDUCED, log 71.) -/
def scaled3 (v sa sb : FVal) : Ex := if v = .nan ∨ sa = .nan ∨ sb = .nan then (.nan, 0) else scaled v sa sb

/-- R196. The select word pops after a and b (DEDUCED, log 92). -/
def execMscl (k : BitVec 3) (a b c : Spec) (s : State) : Out :=
  word (.mscl k a b c) s (fun s => do
    let (va, s) ← s.src .C a
    let (vb, s) ← s.src .C b
    let (sel, s) ← s.src .C c
    let (site, slot, x) ← s.here
    let useR := sel.getLsbD 0
    let useC := sel.getLsbD 1
    need (!useR || isLocal va) .localrange 1 va
    need (!useC || isLocal vb) .localrange 1 vb
    let r ← (if useR then s.scaleVec site va 128 else .ok (site, 0, 0) : Try (Nat × Nat × Nat))
    let q ← (if useC then s.scaleVec site vb 64 else .ok (site, 0, 0) : Try (Nat × Nat × Nat))
    need (fld sel 2 62 == 0) .illop
    await ((s.tile site).arrayFree slot) .array
    s.rangesClear [r, q] false
    let s ← s.rangesErrors [r, q] (some x.task.msg.launch)
    let s ← s.scrub site slot (.bank k.toNat)
    let one (use : Bool) (p : Nat × Nat × Nat) (i : Nat) : FVal :=
      if use then Fmt.fp32.unpack (leNat (s.spadBytes p.1 (p.2.1 + 4 * i) 4)) else .fin false 1 0
    let md : Modes := { fz := x.modes.fz }
    let rs := ((List.range 128).map (one useR r)).toArray
    let qs := ((List.range 64).map (one useC q)).toArray
    let res := accMap (fun i j e =>
      Fmt.fp32.roundEx md (scaled3 (Fmt.fp32.unpack e) (valAt rs i) (valAt qs j))) (vget 0 x.acc k.toNat)
    let s := s.modCtx site slot (fun c => ({ c with acc := vput c.acc k.toNat res.1 }).stickV res.2)
    .ok (s.holdArray site slot 32))

end Sys2Proof.Machine
end

