-- ==== Sys2Proof/Machine/Attn.lean ====
section
/-! DEFINITION. The attention instructions of an AT (R199 to R204). -/

namespace Sys2Proof.Machine

/-- A row of mstat: MAX, SUM and CORR as FP32 patterns (R199). -/
structure MRow where
  max  : Nat
  sum  : Nat
  corr : Nat

/-- Row `i` of an mstat. -/
def mrow (m : MStat) (i : Nat) : MRow where
  max := (m.extractLsb' (96 * i) 32).toNat
  sum := (m.extractLsb' (96 * i + 32) 32).toNat
  corr := (m.extractLsb' (96 * i + 64) 32).toNat

/-- A row as a number. -/
def MRow.nat (r : MRow) : Nat := r.max + 2 ^ 32 * r.sum + 2 ^ 64 * r.corr

/-- An mstat from its 128 rows. -/
def mstatOf (l : List MRow) : MStat := BitVec.ofNat 12288 (packElems 12 (l.map MRow.nat))

/-- The mstat of a bank. -/
def Banks.stat (b : Banks) (k : Nat) : MStat := vget 0 b.mstat k

/-- TAU must be finite where it is read (R199). -/
def tauCheck (cfg : Word) : Try Unit := need (cfgTau cfg / 128 % 256 != 255) .illop cfg

/-- Pow2: the sequence of R176 on one value, with the flags of its instructions. -/
def pow2 (md : Modes) (x : Nat) : Nat × Flags :=
  let n := integral md.rm true .fp32 x
  let f := elSub .fp32 md x n.1
  let m := vexfEl f.p
  let e := cvtEl .fp32 .i32 false md n.1
  let r := vinseEl md m.1 e.p
  (r.1, n.2 ||| f.flags ||| m.2 ||| e.flags ||| r.2)

/-- A rounded FP32 product of patterns. -/
def mulPat (md : Modes) (a b : Nat) : Nat × Flags := Fmt.fp32.roundEx md (FVal.mul (Fmt.fp32.unpack a) (Fmt.fp32.unpack b))

/-- A rounded FP32 difference of patterns. -/
def subPat (md : Modes) (a b : Nat) : Nat × Flags :=
  Fmt.fp32.roundEx md (FVal.add md.rm (Fmt.fp32.unpack a) (Fmt.fp32.unpack b).neg)

/-- OR of the flags of results. -/
def allFlags (l : List (Nat × Flags)) : Flags := l.foldl (fun x p => x ||| p.2) 0

/-- The pattern of −∞. -/
def negInf : Nat := 0xFF800000

/-- The largest element that is no NaN, −∞ if there is none (R201). -/
def largest (l : List Nat) : Nat :=
  l.foldl (fun m x => if Fmt.fp32.isNaN x then m else Fmt.fp32.max m x) negInf

/-- One row of `attn.sm` (R201): the probabilities, the new mstat row, the flags. -/
def smRow (md : Modes) (tau : Nat) (row : List Nat) (r : MRow) : List Nat × MRow × Flags :=
  let xs := row.map (fun e => mulPat md e tau)
  let mn := Fmt.fp32.max r.max (largest (xs.map Prod.fst))
  let dead := mn == negInf
  let ds := xs.map (fun x => if dead then (0, 0) else subPat md x.1 mn)
  let ps := ds.map (fun d => if dead then (0, 0) else pow2 md d.1)
  let dc := if dead then (0, 0) else subPat md r.max mn
  let corr := if dead then (0x3F800000, 0) else pow2 md dc.1
  let pr := FVal.mul (Fmt.fp32.unpack corr.1) (Fmt.fp32.unpack r.sum)
  let sum := sumVals .fp32 md (pr.1 :: ps.map (fun p => Fmt.fp32.unpack p.1))
  (ps.map Prod.fst, ⟨mn, sum.p, corr.1⟩,
   allFlags xs ||| allFlags ds ||| allFlags ps ||| dc.2 ||| corr.2 ||| pr.2 ||| sum.flags)

/-- Row `i` of a bank. -/
def accRow (c : Acc) (i : Nat) : List Nat := (List.range 64).map (fun j => accEl c i j)

/-- `attn.sm` on a bank (R201). -/
def softmax (md : Modes) (tau bank : Nat) (x : Banks) : Banks × Flags :=
  let rs := (List.range 128).map (fun i => smRow md tau (accRow (x.bank bank) i) (mrow (x.stat bank) i))
  ({ acc := vput x.acc bank (accOf ((rs.map (·.1)).flatten)), mstat := vput x.mstat bank (mstatOf (rs.map (·.2.1))) },
   rs.foldl (fun f r => f ||| r.2.2) 0)

/-- `attn.pv` on output bank `o` with probabilities in `p`; `v k j` are the elements of V and `sv j k` its scales
(R202). P is read before O is scaled, should they be one bank. (DESIGN CHOICE, log 81.) -/
def pvInto (md : Modes) (pf : Fmt) (o p : Nat) (v : Nat → Nat → FVal) (sv : Nat → Nat → FVal) (x : Banks) :
    Banks × Flags :=
  let s := accMap (fun i _ e => mulPat md e (mrow (x.stat p) i).corr) (x.bank o)
  let ps := ((List.range 8192).map (fun e => pf.convert md (Fmt.fp32.unpack (accEl (x.bank p) (e / 64) (e % 64)))))
  let pa := (ps.map (fun q => pf.unpack q.1)).toArray
  let r := product md 0 64 (fun i k => (pa[64 * i + k]?).getD .nan) (fun _ _ => .fin false 1 0) (fun _ => v) sv s.1
  ({ x with acc := vput x.acc o r.1 }, s.2 ||| allFlags ps ||| r.2)

/-- `attn.fin` on a bank (R203). -/
def finInto (md : Modes) (o p : Nat) (x : Banks) : Banks × Flags :=
  let r := accMap (fun i _ e =>
    let m := (mrow (x.stat p) i).sum
    if m = 0 then (0, 0) else Fmt.fp32.div md (Fmt.fp32.unpack e) (Fmt.fp32.unpack m)) (x.bank o)
  ({ x with acc := vput x.acc o r.1 }, r.2)

/-- The format that P is rounded to for a V of a format (R202). -/
def pFormat (fv : Nat) : Fmt := if fv = 8 ∨ fv = 9 then .e4m3 else .bf16

/-- The operand code of that format. -/
def pCode (fv : Nat) : Nat := if fv = 8 ∨ fv = 9 then 8 else 6

/-- The modes that matrix work reads: FZ and SAT8; it rounds to nearest-even (R25, R201, R202). -/
def Modes.mat (m : Modes) : Modes := { fz := m.fz, sat8 := m.sat8 }

/-- What R199 asks of the configuration word, in its order: ILLOP, then ILLCLASS of PBANK or a derived bank. (DESIGN
CHOICE, log 79.) -/
def attnCheck (bank : Nat) (cfg : Word) : Try Unit := do
  cfgCheck true cfg
  need (decide (bank ≤ 3)) .illclass

/-- `attn.qk` (R200), with R85 first as the pseudocode of R193 has it. (DESIGN CHOICE, log 79.) -/
def State.qkWork (s : State) (site bank : Nat) (a b cfg : Word) (md : Modes) : Try MatWork := do
  cfgCheck true cfg
  let w ← s.productWork site .mma true bank a b cfg md.fz
  need (decide (bank ≤ 3)) .illclass
  need (decide (cfgK cfg ≤ 128)) .illop cfg
  .ok w

/-- `attn.sm` (R201). -/
def smWork (bank : Nat) (cfg : Word) (md : Modes) : Try MatWork := do
  cfgCheck true cfg
  tauCheck cfg
  need (decide (bank ≤ 3)) .illclass
  .ok { opds := [], ts := 64 * 32, reads := [bank], run := softmax md.mat (cfgTau cfg * 65536) bank }

/-- The V operand at an address (R202, R204): work on output bank `o`. -/
def State.vWork (s : State) (site o p : Nat) (a cfg : Word) (first : Nat) (md : Modes) : Try MatWork := do
  let ov ← s.operand site false a 64 64 (cfgGB cfg) false [0, 1, 2, 3] first
  let v := s.opdElems site ov 4096
  let sv := s.opdScales site ov 64
  .ok { opds := [ov], ts := 32 * baseTime (pCode ov.fmt) ov.fmt 64, reads := [o, p]
        run := pvInto md.mat (pFormat ov.fmt) o p (fun k j => valAt v (j * 64 + k)) (ov.scaleAt sv)
        tern := s.ternBad site ov }

/-- `attn.pv` (R202): the window, the kind of address and its range, then what it asks of the configuration word (R422). -/
def State.pvWork (s : State) (site bank : Nat) (a cfg : Word) (md : Modes) : Try MatWork := do
  need (!isLocal a || wdForB ((s.tile site).window (locWin a)) (cfgGB cfg)) .winfmt
  need (isLocal a) .localrange 1 a
  let w ← s.vWork site bank (cfgPbank cfg) a cfg 0 md
  attnCheck (cfgPbank cfg) cfg
  need (cfgK cfg == 64 && cfgTri cfg == 0) .illop cfg
  .ok w

/-- `attn.fin` (R203). -/
def finWork (bank : Nat) (cfg : Word) (md : Modes) : Try MatWork := do
  attnCheck (cfgPbank cfg) cfg
  .ok { opds := [], ts := 32 * 32, reads := [bank], run := finInto md.mat bank (cfgPbank cfg) }

/-- Two items of work as one (R204). (DESIGN CHOICE, log 82.) -/
def MatWork.andThen (w v : MatWork) : MatWork where
  opds := w.opds ++ v.opds
  ts := w.ts + v.ts
  reads := w.reads ++ v.reads
  run := fun x =>
    let r := w.run x
    let q := v.run r.1
    (q.1, r.2 ||| q.2)
  tern := w.tern || v.tern
  fresh := w.fresh ++ v.fresh

/-- `attn.step` (R204). Through a TERN5 window the two V blocks start at a byte boundary. (DESIGN CHOICE, log 82.) -/
def State.stepWork (s : State) (site bank : Nat) (a b cfg : Word) (md : Modes) : Try MatWork := do
  let d := cfgK cfg
  cfgCheck true cfg
  let halves := if d = 64 then 1 else if d = 128 then 2 else 0
  let qk ← s.productWork site .mma true bank a b cfg md.fz
  let f := wdFmt ((s.tile site).window (locWin b))
  let g := cfgGB cfg
  let vs ← (List.range halves).mapM (fun h =>
    s.vWork site (bank + 1 + h) bank (b + BitVec.ofNat 64 (fmtBytes f (64 * d) + h * fmtBytes f 4096)) cfg
      (64 * ((d + g - 1) / g) + 64 * h * ((64 + g - 1) / g)) md)
  tauCheck cfg
  need (decide (bank + (if d = 128 then 2 else 1) ≤ 3)) .illclass
  need (halves != 0) .illop cfg
  let sm ← smWork bank cfg md
  .ok { vs.foldl MatWork.andThen (qk.andThen sm) with reads := (List.range halves).map (fun h => bank + 1 + h) }

/-- An attention instruction whose work `f` gives from bank, A, B and configuration, which pops first as for a product
(R193; DEDUCED, log 92). -/
def attn (i : Instr) (k : BitVec 3) (a b : Option Spec) (c : Spec)
    (f : State → Nat → Nat → Word → Word → Word → Modes → Try MatWork) (s : State) : Out :=
  word i s (fun s => do
    let (cfg, s) ← s.src .C c
    let (va, s) ← (match a with
      | some a => s.src .C a
      | none => .ok (0, s) : Try (Word × State))
    let (vb, s) ← (match b with
      | some b => s.src .C b
      | none => .ok (0, s) : Try (Word × State))
    let (site, slot, x) ← s.here
    let w ← f s site k.toNat va vb cfg x.modes
    s.runItem site slot w)

def execAttnQk (k : BitVec 3) (a b c : Spec) (s : State) : Out :=
  attn (.attnQk k a b c) k (some a) (some b) c State.qkWork s
def execAttnSm (k : BitVec 3) (c : Spec) (s : State) : Out :=
  attn (.attnSm k c) k none none c (fun _ _ bank _ _ cfg md => smWork bank cfg md) s
def execAttnPv (k : BitVec 3) (a c : Spec) (s : State) : Out :=
  attn (.attnPv k a c) k (some a) none c (fun s site bank va _ cfg md => s.pvWork site bank va cfg md) s
def execAttnFin (k : BitVec 3) (c : Spec) (s : State) : Out :=
  attn (.attnFin k c) k none none c (fun _ _ bank _ _ cfg md => finWork bank cfg md) s
def execAttnStep (k : BitVec 3) (a b c : Spec) (s : State) : Out :=
  attn (.attnStep k a b c) k (some a) (some b) c State.stepWork s

end Sys2Proof.Machine
end

