-- ==== Sys2Proof/Machine/Engine.lean ====
section
/-! DEFINITION. How engines take commands (R89 to R92, R154, R205 to R209, R281): when a command may start, rejection,
cancellation, hand-over of e6 commands, faults, completion words, Hurdles, and the movement of bytes. -/

namespace Sys2Proof.Machine

/-- A command of a tile. -/
def State.cmdAt (s : State) (site idx : Nat) : Option Cmd := (s.tile site).cmds[idx]?

/-- Change a command of a tile. -/
def State.modCmd (s : State) (site idx : Nat) (f : Cmd → Cmd) : State :=
  s.modTile site (fun t => { t with cmds := lmod t.cmds idx f })

/-! ## The order of starts (R89, R90, R154, R206) -/

/-- Are the commands written to one port of one context, or handed over from one? (DEDUCED, log 68.) -/
def Cmd.samePort (a b : Cmd) : Bool :=
  a.task == b.task && a.run == b.run && a.port == b.port && a.remote == b.remote && a.from_ == b.from_ && a.slot == b.slot

/-- The engine that takes a command: 0 copy, 2 gather, 4 matrix, 6 none of the tile's own (R91). -/
def Cmd.engine (m : Cmd) : Nat :=
  if m.port != 6 then m.port
  else if hdrOpc m.hdr < 0x10 then 0
  else if hdrOpc m.hdr < 0x20 then 2
  else if hdrOpc m.hdr < 0x30 then 4
  else 6

/-- The command written to the same port just before. -/
def Tile.before (t : Tile) (m : Cmd) : Option Cmd :=
  (t.cmds.filter (fun x => x.samePort m && decide (x.seq < m.seq))).foldl (fun b x => match b with
    | none => some x
    | some y => if y.seq < x.seq then some x else some y) none

/-- Does a fence mask name the queue of a port? -/
def maskHas (mask port : Nat) : Bool := port != 6 && mask / 2 ^ (port / 2) % 2 == 1

/-- The mask of a QFENCE command: its own queue is always included (R220). -/
def Cmd.fenceMask (m : Cmd) : Nat := Nat.lor ((m.word 1).toNat % 8) (2 ^ (m.port / 2))

/-- The fence entries in force: those of `qfence` and those of QFENCE commands that are complete in their port. -/
def Tile.allFences (t : Tile) : List QFence :=
  t.fences ++ (t.cmds.filter (fun m => hdrOpc m.hdr == 0x50 && !m.remote && m.port != 6 && !m.finished)).map
    (fun m => ⟨m.fenceMask, m.seq, m.task, m.run⟩)

/-- Have the commands before a fence completed (R154)? -/
def Tile.fenceOpen (t : Tile) (f : QFence) : Bool :=
  t.cmds.all (fun x => x.remote || x.finished || x.task != f.task || x.run != f.run || !maskHas f.mask x.port || decide (f.seq ≤ x.seq))

/-- Do the fences let a command start? -/
def Tile.unfenced (t : Tile) (m : Cmd) : Bool :=
  t.allFences.all (fun f => m.remote || f.task != m.task || f.run != m.run || !maskHas f.mask m.port || decide (m.seq ≤ f.seq) ||
    t.fenceOpen f)

/-- Is the completion port of the run that wrote a command full (R206, R282)? -/
def Tile.doneFull (t : Tile) (m : Cmd) : Bool :=
  !m.remote && m.port != 6 && match m.slot.bind (fun k => vget none t.ctxs k) with
    | some c => c.run == m.run && decide (16 ≤ (vget [] c.inp (m.port / 2)).length)
    | none => false

/-- May a command start: it is complete and waits, earlier ones of its port have started, no completion port holds its
engine up, FOLLOW and fences are met? -/
def Tile.mayStart (t : Tile) (m : Cmd) : Bool :=
  !m.running && !m.finished && !m.sent &&
  t.cmds.all (fun x => !(x.samePort m && decide (x.seq < m.seq)) || x.running || x.finished) &&
  t.cmds.all (fun x => !(x.finished && !x.told) || x.engine != m.engine) && !t.doneFull m &&
  (match t.before m with
    | some p => !hdrFollow p.hdr || p.finished
    | none => true) &&
  t.unfenced m

/-- The STATUS of a failed FOLLOW predecessor (R90). -/
def Tile.cancelled (t : Tile) (m : Cmd) : Option (BitVec 8) :=
  match t.before m with
  | some p => if hdrFollow p.hdr && p.finished && p.status != 0 then some p.status else none
  | none => none

/-! ## Rejection (R91, R92, R209, R214, R216 to R220) -/

/-- The words of an opcode without the Hurdle word, none when any number goes, and the ports that take it (R91). -/
def opcodeRow (opc : Nat) : Option (Option Nat × List Nat) :=
  match opc with
  | 0x01 => some (some 3, [0, 6])
  | 0x02 => some (some 5, [0, 6])
  | 0x03 => some (some 3, [0, 6])
  | 0x04 => some (some 7, [0, 6])
  | 0x10 => some (some 5, [2, 6])
  | 0x11 => some (some 5, [2, 6])
  | 0x12 => some (some 6, [2, 6])
  | 0x20 => some (some 4, [4, 6])
  | 0x30 => some (some 4, [6])
  | 0x31 => some (some 3, [6])
  | 0x40 => some (none, [6])
  | 0x41 => some (none, [6])
  | 0x50 => some (some 1, [0, 2, 4])
  | 0x60 => some (some 3, [6])
  | _ => none

/-- Reserved fields and illegal values of the command words. -/
def Cmd.wordsBad (m : Cmd) : Bool :=
  let high32 (k : Nat) : Bool := fld (m.word k) 32 32 != 0
  match hdrOpc m.hdr with
  | 0x01 => high32 3
  | 0x03 => high32 3
  | 0x04 => high32 3 || fld (m.word 7) 6 58 != 0
  | 0x12 => !((fld (m.word 6) 60 4 == 6) || (fld (m.word 6) 60 4 == 7)) || fld (m.word 6) 57 3 != 0
  | 0x20 => fld (m.word 4) 6 58 != 0
  | 0x30 => fld (m.word 3) 38 26 != 0 || fld (m.word 3) 36 2 == 3 || decide ((fld (m.word 3) 32 4).toNat < 4) ||
      decide (7 < (fld (m.word 3) 32 4).toNat) || fld (m.word 4) 0 19 != 0
  | 0x31 => fld (m.word 3) 0 19 == 0
  | 0x41 => hdrReply m.hdr
  | 0x50 => fld (m.word 1) 3 61 != 0
  | 0x60 => fld (m.word 1) 51 13 != 0 || fld (m.word 2) 51 13 != 0 || fld (m.word 3) 40 24 != 0
  | _ => false

/-- Is the command rejected as ILLOP? -/
def Cmd.bad (m : Cmd) : Bool :=
  match opcodeRow (hdrOpc m.hdr) with
  | none => true
  | some (n, ports) =>
    !ports.contains m.port || fld m.hdr 44 2 != 0 || (hdrHurd m.hdr && decide (0x20 ≤ hdrOpc m.hdr)) ||
    (match n with
      | some n => hdrCnt m.hdr != n + (if hdrHurd m.hdr then 1 else 0)
      | none => false) ||
    m.wordsBad || (hdrHurd m.hdr && (fld m.hurdWord 40 24 != 0 || decide (1 < (fld m.hurdWord 22 2).toNat)))

/-! ## Start, end and hand-over -/

/-- A command that came from another tile's e6 starts: it leaves that port, where with FOLLOW a mark stays for its
successor (R89, R90, R314). -/
def State.leavePort (s : State) (m : Cmd) : State :=
  if m.remote then s.modTile m.from_ (fun t => { t with cmds := t.cmds.filterMap (fun x =>
    if x.sent && x.seq == m.oseq then (if hdrFollow x.hdr then some { x with running := true } else none) else some x) })
  else s

/-- A command starts: it leaves its port, and the FOLLOW predecessor it waited for is forgotten. -/
def State.startCmd (s : State) (site idx : Nat) (m : Cmd) : State :=
  let t := s.modCmd site idx (fun m => { m with running := true })
  let t := match (s.tile site).before m with
    | some p => if p.told then t.modTile site (fun t => { t with cmds := t.cmds.filter (· != p) }) else t
    | none => t
  t.leavePort m

/-- The work of the command with a place in the tile's order is over, with a STATUS and DETAIL (R206). -/
def State.endCmd (s : State) (site seq : Nat) (status : BitVec 8) (detail : BitVec 16) : State :=
  s.modTile site (fun t => { t with cmds := t.cmds.map (fun m =>
    if m.seq = seq then { m with running := true, ended := true, status := status, detail := detail } else m) })

/-- Is the run of the task that wrote a command still going on here? Its slot. -/
def State.writerOf (s : State) (site : Nat) (m : Cmd) : Option Nat :=
  if m.remote || m.port == 6 then none
  else match m.slot with
    | some slot => match s.ctx? site slot with
      | some c => if c.run == m.run && c.task.id == m.task && c.task.msg.launch == m.msg.launch then some slot else none
      | none => none
    | none => none

/-- A fault stops a command (R207): its completion carries the code, and it aborts the task that wrote it to e0, e2 or
e4. -/
def State.failCmd (s : State) (site : Nat) (m : Cmd) (t : Trap) : State :=
  let s := (s.unlearn site m.msg.launch t).endCmd site m.seq t.code.num (t.detail.setWidth 16)
  match s.writerOf site m with
  | some slot => s.abortFault site slot t m.pc
  | none => s

/-- A completion word (R206). -/
def completionWord (status : BitVec 8) (chan : BitVec 6) (src detail : BitVec 16) (tag : BitVec 8) : Word :=
  status ++ chan ++ 0#10 ++ src ++ detail ++ tag

/-- The header of a message (R89). -/
def msgHeader (opc : BitVec 8) (chan : BitVec 6) (cnt : BitVec 4) (dest : BitVec 16) : Word :=
  opc ++ chan ++ cnt ++ 0#6 ++ dest ++ 0#16 ++ 0#8

/-- Log a message with an unknown name (R219, R351); no address is stated for it (log 2). -/
def State.unknownName (s : State) (vi : Nat) : State :=
  let (a, s) := s.draw
  s.modVI vi (·.violate a 6 0)

/-- A completion goes as a MSG.REPLY to RNAME (R206, R219, R250). -/
def State.replyTo (s : State) (launch vi : Nat) (rname : BitVec 16) (chan : BitVec 6) (w : Word) (from_ : Nat) : State :=
  match s.siteOfName (siteField from_) launch rname with
  | some t =>
    let msg : Message := { words := [msgHeader 0x41 chan 1 rname, w], vi := vi, launch := launch, sender := from_ }
    { s with mesh := s.mesh ++ [.message t msg none none] }
  | none => s.unknownName vi

/-- The completion word of a command. -/
def State.cmdWord (s : State) (site : Nat) (m : Cmd) : Word :=
  completionWord m.status (fld m.hdr 50 6) (if m.port = 6 then hdrDest m.hdr else s.nameOf site) m.detail (hdrTag m.hdr)

/-- What is left of a command whose completion is sent: nothing, or with FOLLOW a mark for its successor. -/
def State.tellCmd (s : State) (site seq : Nat) : State :=
  s.modTile site (fun t => { t with cmds := t.cmds.filterMap (fun m =>
    if m.seq = seq then (if hdrFollow m.hdr && !m.remote then some { m with finished := true, told := true } else none)
    else some m) })

/-- Tell the port an e6 command came from that it has completed (R90). -/
def State.settle (s : State) (m : Cmd) : State :=
  if m.remote && hdrFollow m.hdr then
    s.modTile m.from_ (fun t => { t with cmds := t.cmds.map (fun x =>
      if x.seq = m.oseq then { x with ended := true, finished := true, told := true, status := m.status } else x) })
  else s

/-- A CE, GE or ME command in e6 goes to the engines of the tile named DEST (R205), and stays in its port until it starts
there, so that the port's order holds (R89, R314); a name that no tile of the launch holds is LOCALRANGE with detail 2
(R219). What the command reads is read after what its writer released or observed before it (R312, R314, R319), so no read of
an operand that was made before it comes to the tile serves it (R189). (DEDUCED, log 78.) -/
def State.handOver (s : State) (site idx : Nat) (m : Cmd) : State :=
  match s.siteOfName (siteField site) m.msg.launch (hdrDest m.hdr) with
  | none => s.endCmd site m.seq Code.localrange.num 2
  | some target =>
    let s := (s.acquired target).modCmd site idx (fun x => { x with sent := true, running := false })
    s.modTile target (fun t => { t with
      seq := t.seq + 1
      cmds := t.cmds ++ [{ m with remote := true, running := false, slot := none, seq := t.seq, oseq := m.seq }] })

/-- What an engine event comes to: a wait changes nothing, a fault stops the command. -/
def engineOut (s : State) (site : Nat) (m : Cmd) (r : Try State) : Out :=
  match r with
  | .ok t => .next t
  | .error (.trap t) => .next (s.failCmd site m t)
  | .error (.trapAfter t s') => .next (s'.failCmd site m t)
  | .error (.wait _) => .next s
  | .error (.fault f) => .fault f
  | .error (.refuse r) => .refused r
  | .error (.goto s') => .next s'

/-- The frame of a command's event: nothing while it may not start, cancellation, rejection, hand-over, then its own
meaning. `go` gets the state in which the command has started. -/
def engineEvent (opc : Nat) (site idx : Nat) (go : Cmd → State → Try State) (s : State) : Out :=
  match s.cmdAt site idx with
  | none => .next s
  | some m =>
    let t := s.tile site
    if hdrOpc m.hdr != opc || !t.mayStart m then .next s
    else
      let s' := s.startCmd site idx m
      match t.cancelled m with
      | some st => .next (s'.endCmd site m.seq 0xF1 (st.setWidth 16))
      | none =>
        if m.bad then .next (s'.endCmd site m.seq 0x01 0)
        else if m.port == 6 && !m.remote && decide (opc < 0x30) then
          .next (s'.handOver site ((lfind (fun x => x.seq == m.seq) (s'.tile site).cmds).getD idx) m)
        else
          match go m s' with
          | .error (.wait _) => .next s
          | r => engineOut s' site m r

/-! ## Moving bytes (R205, R207, R386) -/

/-- One movement: bytes copied from a source, or given bytes, to a destination. `hurt` marks all of them: they were found
by a poisoned entry of a table. -/
inductive Mv where
  | copy (src dst : Word) (n : Nat) (hurt : Bool := false)
  | give (bytes : List Byte) (dst : Word) (hurt : Bool := false)

/-- A role of a command's local bytes (R281): address, bytes, inbound, role number. -/
structure Role where
  addr    : Word
  n       : Nat
  inbound : Bool
  role    : Nat

/-- A scoreboard entry to take: target, inbound, role, span. -/
structure Hull where
  target  : Nat
  inbound : Bool
  role    : Nat
  lo      : Nat
  hi      : Nat

/-- Add a span to the entry of its role and tile (R281). -/
def addHull (h : Hull) : List Hull → List Hull
  | [] => [h]
  | x :: r =>
    if x.target = h.target ∧ x.inbound = h.inbound ∧ x.role = h.role then
      { x with lo := Nat.min x.lo h.lo, hi := Nat.max x.hi h.hi } :: r
    else x :: addHull h r

/-- The entries a command needs; its local addresses are checked (R205). -/
def State.hulls (s : State) (site : Nat) (rs : List Role) : Try (List Hull) :=
  rs.foldlM (fun l r =>
    if r.n = 0 ∨ isLocal r.addr = false then .ok l
    else do
      let (target, off) ← s.localCheck site r.addr r.n
      .ok (addHull ⟨target, r.inbound, r.role, off, off + r.n⟩ l)) []

/-- Take all entries at once, or wait (R281). -/
def State.takeRanges (s : State) (site seq : Nat) (hs : List Hull) : Try State := do
  await (hs.all (fun h => decide ((s.tile h.target).ranges.length +
    (hs.filter (fun x => x.target == h.target)).length ≤ Config.scoreboard))) .scoreboard
  .ok (hs.foldl (fun s h => s.modTile h.target (fun t =>
    { t with ranges := t.ranges ++ [⟨h.inbound, h.lo, h.hi, site, seq⟩] })) s)

/-- Entries of the scoreboards of a cluster retire. -/
def State.retireRanges (s : State) (site : Nat) (p : Range → Bool) : State :=
  (List.range 16).foldl (fun s i =>
    let x := clusterSite site i
    if (s.tile x).ranges.any p then s.modTile x (fun t => { t with ranges := t.ranges.filter (fun r => !p r) }) else s) s

/-- Give back the entries of a command. -/
def State.freeRanges (s : State) (site seq : Nat) : State :=
  s.retireRanges site (fun r => r.site == site && r.seq == seq)

/-- The last byte of a command's outbound or inbound ranges has moved: they retire, before the command completes. That
its bytes moved by then is what the start did. (DESIGN CHOICE, log 67.) -/
def State.bytesMoved (s : State) (site seq : Nat) (inbound : Bool) : State :=
  if (s.tile site).cmds.any (fun m => m.seq == seq && (m.ended || m.copied)) then
    s.retireRanges site (fun r => r.site == site && r.seq == seq && r.inbound == inbound)
  else s

/-- Bytes with their poison marks, on their way to a destination. -/
abbrev Load := Word × List (Byte × Bool)

/-- Read every source byte: what was read, and what stopped it. -/
def State.readMoves (s : State) (sp : Space) (site : Nat) : List Mv → List Load × State × Option Stop
  | [] => ([], s, none)
  | .give bs d hurt :: r =>
    let x := s.readMoves sp site r
    ((d, bs.map (fun b => (b, hurt))) :: x.1, x.2)
  | .copy a d n hurt :: r =>
    match s.engRead sp site a n with
    | .ok (bs, s) =>
      let x := s.readMoves sp site r
      ((d, bs.map (fun b => (b.1, b.2 || hurt))) :: x.1, x.2)
    | .error e => ([], s, some e)

/-- Write bytes in pieces that do not cross a line. -/
def State.writeLoad (s : State) (sp : Space) (site : Nat) (l : Load) : State × Option Stop :=
  ((pieces l.1 l.2.length l.2.length).foldl (fun (acc : List (Byte × Bool) × State × Option Stop) p =>
    match acc.2.2 with
    | some _ => acc
    | none =>
      match acc.2.1.engPut sp site p.1 (acc.1.take p.2) with
      | .ok s => (acc.1.drop p.2, s, none)
      | .error e => (acc.1, acc.2.1, some e)) (l.2, s, none)).2

/-- Write every load in order until one is stopped: the last row of a COPY2D stays where rows overlap.
(DESIGN CHOICE, log 113.) -/
def State.writeLoads (s : State) (sp : Space) (site : Nat) : List Load → State × Option Stop
  | [] => (s, none)
  | l :: r =>
    match s.writeLoad sp site l with
    | (s, some e) => (s, some e)
    | (s, none) => s.writeLoads sp site r

/-- Poisoned bytes taint the launch (R364, R386). -/
def State.taintBy (s : State) (launch : Nat) (ls : List Load) : State :=
  if ls.any (fun l => l.2.any Prod.snd) then s.taint launch else s

/-- Stop an event with what it has written staying (R207). -/
def stopAfter (s : State) : Stop → Stop
  | .trap t => .trapAfter t s
  | .trapAfter t _ => .trapAfter t s
  | .wait k => .wait k
  | .fault f => .fault f
  | .refuse r => .refuse r
  | .goto s' => .goto s'

/-- Move the bytes of a command: every source byte is read before any is written. A source that faults leaves the
bytes written so far; how many those are the spec leaves open (log 2). -/
def State.moveAll (s : State) (sp : Space) (site launch : Nat) (ms : List Mv) : Try State :=
  match s.readMoves sp site ms with
  | (ls, s, none) =>
    match (s.taintBy launch ls).writeLoads sp site ls with
    | (s, none) => .ok s
    | (s, some e) => .error (stopAfter s e)
  | (ls, s, some e) =>
    let k := s.choose (ls.length + 1)
    .error (stopAfter (k.2.writeLoads sp site (ls.take k.1)).1 e)

/-- The lines of global bytes. -/
def globalLines (a : Word) (n : Nat) : List Nat :=
  if n = 0 ∨ isLocal a then [] else (List.range ((a.toNat + n - 1) / 64 - a.toNat / 64 + 1)).map (· + a.toNat / 64)

/-- Global reads of a command that runs at once in an ordered domain register its task as a reader (R208). -/
def State.registerReads (s : State) (site : Nat) (m : Cmd) (reads : List (Word × Nat)) : Try State :=
  match s.writerOf site m with
  | none => .ok s
  | some slot =>
    if m.msg.dom = 0 then .ok s
    else (reads.map (fun r => globalLines r.1 r.2)).flatten.foldlM (fun s line =>
      match s.ctx? site slot with
      | none => .ok s
      | some c =>
        match s.translate (s.spaceOf site) .load (BitVec.ofNat 64 (64 * line)) with
        | .error _ => .ok s
        | .ok (leaf, s) =>
          match s.register site slot c (leaf.key (BitVec.ofNat 64 (64 * line))) with
          | .error (.goto s') => .ok s'
          | r => r) s

/-- The Hurdle word, checked before any byte moves (R209): target and offset. -/
def State.hurdCheck (s : State) (site : Nat) (m : Cmd) : Try Unit :=
  if hdrHurd m.hdr then
    match s.siteOfName (siteField site) m.msg.launch (fld m.hurdWord 24 16) with
    | none => trapWith .localrange 2
    | some t => do
      let off := (fld m.hurdWord 0 22).toNat
      need (off % 16 == 0) .align 0 (BitVec.ofNat 64 off)
      need (decide (off + 16 ≤ spadSize (s.tile t).l1sz)) .localrange 0 (BitVec.ofNat 64 off)
  else .ok ()

/-- Count down one of a Hurdle's transfer counts, or note that it was 0 already (R152). -/
def State.countDown (s : State) (target off : Nat) (inbound : Bool) : State :=
  let h := s.hurdleAt target off
  if (if inbound then h.inb else h.outb) = 0 then s.overrun target off h
  else s.putHurdle target off (if inbound then { h with inb := h.inb - 1 } else { h with outb := h.outb - 1 })

/-- Count down the Hurdle a command names (R152): false when its count was 0 already. Its 16 bytes are read and rewritten
by the engine, with their errors (R385, R386). -/
def State.hurdCount (s : State) (site : Nat) (m : Cmd) : Bool × State :=
  if hdrHurd m.hdr then
    match s.siteOfName (siteField site) m.msg.launch (fld m.hurdWord 24 16) with
    | none => (true, s)
    | some t =>
      let off := (fld m.hurdWord 0 22).toNat
      let inbound : Bool := fld m.hurdWord 22 2 == 0
      let h := s.hurdleAt t off
      ((if inbound then h.inb else h.outb) != 0,
        s.spadUpdate t off 16 (some m.msg.launch) (fun s => s.countDown t off inbound))
  else (true, s)

/-- A command that moves bytes and ends: Hurdle, entries, registration, movement. (DESIGN CHOICE, log 67.) -/
def State.runMoves (s : State) (site : Nat) (m : Cmd) (rs : List Role) (ms : List Mv) : Try State := do
  s.hurdCheck site m
  let hs ← s.hulls site rs
  let s ← s.takeRanges site m.seq hs
  let s ← s.registerReads site m ((rs.filter (!·.inbound)).map (fun r => (r.addr, r.n)))
  s.moveAll (s.spaceOf site) site m.msg.launch ms

end Sys2Proof.Machine
end

