-- ==== Sys2Proof/Machine/Copy.lean ====
section
/-! DEFINITION. The copy engine and the gather engine (R210 to R214), with the completion of every command (R206). -/

namespace Sys2Proof.Machine

/-- The command is done, with flags in DETAIL (R206). -/
def State.doneCmd (s : State) (site : Nat) (m : Cmd) (fl : Flags) : State := s.endCmd site m.seq 0 (fl.setWidth 16)

/-- LEN of CE.COPY, CE.FILL and CE.COPYMMA, ROWLEN of CE.COPY2D. -/
def Cmd.len (m : Cmd) : Nat := (fld (m.word 3) 0 32).toNat

/-- The roles and the movement of CE.COPY (R210). -/
def copyRoles (m : Cmd) : List Role := [⟨m.word 1, m.len, false, 0⟩, ⟨m.word 2, m.len, true, 1⟩]

/-- CE_COPY (R210). -/
def execCeCopy (site idx : Nat) (s : State) : Out :=
  engineEvent 0x01 site idx (fun m s => do
    let s ← s.runMoves site m (copyRoles m) [.copy (m.word 1) (m.word 2) m.len]
    .ok (s.doneCmd site m 0)) s

/-- Row starts with a pitch, and what belongs to each. -/
def pitched (base pitch : Word) (k : Nat) : Word := base + BitVec.ofNat 64 k * pitch

/-- CE_COPY2D (R211). -/
def execCeCopy2d (site idx : Nat) (s : State) : Out :=
  engineEvent 0x02 site idx (fun m s => do
    let rows := List.range (fld (m.word 3) 32 32).toNat
    let src := pitched (m.word 1) (m.word 4)
    let dst := pitched (m.word 2) (m.word 5)
    let roles := (rows.map (fun r => [⟨src r, m.len, false, 0⟩, ⟨dst r, m.len, true, 1⟩])).flatten
    let s ← s.runMoves site m roles (rows.map (fun r => .copy (src r) (dst r) m.len))
    .ok (s.doneCmd site m 0)) s

/-- CE_FILL (R210). -/
def execCeFill (site idx : Nat) (s : State) : Out :=
  engineEvent 0x03 site idx (fun m s => do
    let bytes := (List.range m.len).map (fun p => fld (m.word 2) (8 * (p % 8)) 8)
    let s ← s.runMoves site m [⟨m.word 1, m.len, true, 1⟩] [.give bytes (m.word 1)]
    .ok (s.doneCmd site m 0)) s

/-- CE_COPYMMA: the copy (R212); its matrix work follows. -/
def execCeCopymma (site idx : Nat) (s : State) : Out :=
  engineEvent 0x04 site idx (fun m s => do
    let s ← s.runMoves site m (copyRoles m) [.copy (m.word 1) (m.word 2) m.len]
    .ok (s.modTile site (fun t => { t with cmds := t.cmds.map (fun x =>
      if x.seq = m.seq then { x with copied := true } else x) }))) s

/-! ## The gather engine (R213, R214) -/

/-- COUNT. -/
def Cmd.count (m : Cmd) : Nat := (fld (m.word 4) 32 32).toNat
/-- ROWLEN. -/
def Cmd.rowLen (m : Cmd) : Nat := (fld (m.word 4) 0 32).toNat

/-- A table of u32 entries, each with its mark. A poisoned one taints the launch (R386). -/
def State.table32 (s : State) (sp : Space) (site : Nat) (a : Word) (n : Nat) : Try (List (Nat × Bool) × State) := do
  let (bs, s) ← s.engRead sp site a (4 * n)
  let l := (List.range n).map (fun k =>
    let e := (bs.drop (4 * k)).take 4
    (leNat (e.map Prod.fst), e.any Prod.snd))
  .ok (l, if l.any Prod.snd then (sp.launch.map s.taint).getD s else s)

/-- A row of a gather or scatter: its index, its number, and whether the index is poisoned, which the bytes that it places
are then too (R386). (DEDUCED, log 41.) -/
structure TableRow where
  index : Nat
  k     : Nat
  hurt  : Bool
deriving DecidableEq, Repr

/-- The index table: aligned, its reads registered (R208, R213). -/
def State.indexTable (s : State) (site : Nat) (m : Cmd) : Try (List TableRow × State) := do
  s.hurdCheck site m
  need (aligned (m.word 3) 4) .align 0 (m.word 3)
  let s ← s.registerReads site m [(m.word 3, 4 * m.count)]
  let (idx, s) ← s.table32 (s.spaceOf site) site (m.word 3) m.count
  .ok (idx.zipIdx.map (fun p => ⟨p.1.1, p.2, p.1.2⟩), s)

/-- The role of the index table (R281). -/
def indexRole (m : Cmd) : Role := ⟨m.word 3, 4 * m.count, false, 2⟩

/-- The entry that skips its row. -/
def skipRow : Nat := 0xFFFFFFFF

/-- GE_GATHER (R213). -/
def execGeGather (site idx : Nat) (s : State) : Out :=
  engineEvent 0x10 site idx (fun m s => do
    let (rows, s) ← s.indexTable site m
    let n := m.rowLen
    let dst (k : Nat) : Word := m.word 2 + BitVec.ofNat 64 (k * n)
    let src (i : Nat) : Word := pitched (m.word 1) (m.word 5) i
    let roles := (rows.map (fun r =>
      (if r.index = skipRow then [] else [(⟨src r.index, n, false, 0⟩ : Role)]) ++ [⟨dst r.k, n, true, 1⟩])).flatten
    let s ← s.runMoves site m (indexRole m :: roles) (rows.map (fun r =>
      if r.index = skipRow then .give (List.replicate n 0) (dst r.k) r.hurt
      else .copy (src r.index) (dst r.k) n r.hurt))
    .ok (s.doneCmd site m 0)) s

/-- The rows that a scatter writes. -/
def liveRowsOf (rows : List TableRow) : List TableRow := rows.filter (fun r => r.index != skipRow)

/-- GE_SCATTER (R213). -/
def execGeScatter (site idx : Nat) (s : State) : Out :=
  engineEvent 0x11 site idx (fun m s => do
    let (rows, s) ← s.indexTable site m
    let n := m.rowLen
    let src (k : Nat) : Word := m.word 1 + BitVec.ofNat 64 (k * n)
    let dst (i : Nat) : Word := pitched (m.word 2) (m.word 5) i
    let live := liveRowsOf rows
    let roles := (live.map (fun r => [(⟨src r.k, n, false, 0⟩ : Role), ⟨dst r.index, n, true, 1⟩])).flatten
    let s ← s.runMoves site m (indexRole m :: roles) (live.map (fun r => .copy (src r.k) (dst r.index) n r.hurt))
    .ok (s.doneCmd site m 0)) s

/-- One element update of GE.SCATW at its serialisation point (R214): flags. The old value's mark stays with the sum and
taints the launch (R386). -/
def State.scatElem (s : State) (sp : Space) (site : Nat) (md : Modes) (w x : FVal) (hurt : Bool) (a : Word) :
    Try (Flags × State) := do
  let f (old : List Byte) : Nat × Flags :=
    Fmt.fp32.roundEx md (FVal.fma md.rm w x (Fmt.fp32.unpack (leNat old)))
  if isLocal a then
    let (target, off) ← s.localCheck site a 4
    let r := f (s.spadBytes target off 4)
    let s := s.spadUpdate target off 4 sp.launch (fun s => s.writeBy site target off (leBytes 4 r.1))
    .ok (r.2, if hurt then s.modTile target (fun t => { t with poison := sinsert (off / 8) t.poison }) else s)
  else
    let (_, k, s) ← s.reach sp .store a
    let s := s.lineErrors k sp.launch
    let o := a.toNat % 64
    let r := f (lineBytes (s.lineAt k) o 4)
    let s := if s.poisoned k then (sp.launch.map s.taint).getD s else s
    let s := (s.lineWrite k o (leBytes 4 r.1)).noteHbm site k
    .ok (r.2, if hurt then s.poisonLine k else s)

/-- The updates of one row, in order of n; what they wrote before a fault stays (R207). `hurt` says that the weight or the
index of the row is poisoned. -/
def State.scatRow (s : State) (sp : Space) (site : Nat) (md : Modes) (w : FVal) (hurt : Bool) (size : Nat) (dst : Word)
    (bs : List (Byte × Bool)) : Try (Flags × State) :=
  (List.range (bs.length / size)).foldlM (fun (acc : Flags × State) n => do
    let e := (bs.drop (size * n)).take size
    let p := leNat (e.map Prod.fst)
    let x := Fmt.fp32.unpack (if size = 2 then p * 65536 else p)
    match acc.2.scatElem sp site md w x (hurt || e.any Prod.snd) (dst + BitVec.ofNat 64 (4 * n)) with
    | .ok r => .ok (acc.1 ||| r.1, r.2)
    | .error st => .error (stopAfter acc.2 st)) (0, s)

/-- GE_SCATW (R214). -/
def execGeScatw (site idx : Nat) (s : State) : Out :=
  engineEvent 0x12 site idx (fun m s => do
    let sp := s.spaceOf site
    let (rows, s) ← s.indexTable site m
    let n := m.rowLen
    let size := if fld (m.word 6) 60 4 = 6 then 2 else 4
    need (n % size == 0) .illop
    let wtab := (fld (m.word 6) 0 57).setWidth 64
    let (ws, s) ← s.table32 sp site wtab m.count
    let src (k : Nat) : Word := m.word 1 + BitVec.ofNat 64 (k * n)
    let dst (i : Nat) : Word := pitched (m.word 2) (m.word 5) i
    let live := liveRowsOf rows
    live.forM (fun r => need (aligned (dst r.index) 4) .align 0 (dst r.index))
    let roles := (live.map (fun r => [(⟨src r.k, n, false, 0⟩ : Role), ⟨dst r.index, n / size * 4, true, 1⟩])).flatten
    let hs ← s.hulls site (indexRole m :: ⟨wtab, 4 * m.count, false, 3⟩ :: roles)
    let s ← s.takeRanges site m.seq hs
    let (data, s) ← live.foldlM (fun (acc : List (List (Byte × Bool)) × State) r => do
      let x ← acc.2.engRead sp site (src r.k) n
      .ok (acc.1 ++ [x.1], x.2)) ([], s)
    let s := if data.any (fun d => d.any Prod.snd) then s.taint m.msg.launch else s
    let (fl, s) ← (live.zip data).foldlM (fun (acc : Flags × State) r => do
      let w := (ws[r.1.k]?).getD (0, false)
      let x ← acc.2.scatRow sp site m.modes (Fmt.fp32.unpack w.1) (w.2 || r.1.hurt) size (dst r.1.index) r.2
      .ok (acc.1 ||| x.1, x.2)) (0, s)
    .ok (s.doneCmd site m fl)) s

/-! ## Completion (R206, R207, R313) -/

/-- The port with the completions of a port: its place in `inp`. -/
def donePort (port : Nat) : Nat := port / 2

/-- Fences whose commands have completed have done their work. -/
def Tile.pruneFences (t : Tile) : Tile := { t with fences := t.fences.filter (fun f => !t.fenceOpen f) }

/-- A command whose work is done completes: ranges retire, its Hurdle counts down, FOLLOW and fences see it. A count that
was 0 is a fault of the command, which aborts the task that wrote it to e0 or e2 (R207). -/
def State.finishCmd (s : State) (site : Nat) (m : Cmd) : Cmd × State :=
  let s := s.freeRanges site m.seq
  let r := if m.status = 0 then s.hurdCount site m else (true, s)
  let m := { m with finished := true, status := if r.1 then m.status else Code.barovr.num }
  let s := r.2.modTile site (fun t => Tile.pruneFences { t with cmds := t.cmds.map (fun x => if x.seq = m.seq then m else x) })
  let s := s.settle m
  match s.writerOf site m with
  | some slot => (m, if r.1 then s else s.abortFault site slot { code := .barovr } m.pc)
  | none => (m, s)

/-- Send the completion of a finished command, if it has one and its port has room (R90, R206). -/
def State.sendCompletion (s : State) (site : Nat) (m : Cmd) : State :=
  let due := hdrReply m.hdr || m.status != 0
  let w := s.cmdWord site m
  if m.remote || m.port == 6 then
    (if due then s.replyTo m.msg.launch m.msg.vi (hdrRname m.hdr) (fld m.hdr 50 6) w site else s).tellCmd site m.seq
  else
    match s.writerOf site m with
    | none => s.tellCmd site m.seq
    | some slot =>
      match s.ctx? site slot with
      | none => s.tellCmd site m.seq
      | some c =>
        let old := vget [] c.inp (donePort m.port)
        if !due then s.tellCmd site m.seq
        else if old.length < 16 then
          (s.setCtx site slot { c with inp := vput c.inp (donePort m.port) (old ++ [w]) }).tellCmd site m.seq
        else s

/-- ENGINE_COMPLETION (R206). A command that may start and is to be cancelled or rejected ends here too, whatever its
opcode. -/
def execEngineCompletion (site idx : Nat) (s : State) : Out :=
  match s.cmdAt site idx with
  | none => .next s
  | some m =>
    let t := s.tile site
    if m.finished then .next (if m.told then s else s.sendCompletion site m)
    else if m.ended then
      let r := s.finishCmd site m
      .next (r.2.sendCompletion site r.1)
    else if t.mayStart m then
      match t.cancelled m with
      | some st => .next ((s.startCmd site idx m).endCmd site m.seq 0xF1 (st.setWidth 16))
      | none => .next (if m.bad then (s.startCmd site idx m).endCmd site m.seq 0x01 0 else s)
    else .next s

end Sys2Proof.Machine
end

