-- ==== Sys2Proof/Machine/MatEngine.lean ====
section
/-! DEFINITION. Matrix work that engines place on the array (R191, R192, R212, R215), and the items of the array. -/

namespace Sys2Proof.Machine

/-- The item of a matrix control word (R212). -/
def Cmd.item (m : Cmd) (a b cfg ctl : Word) : MatItem :=
  { a := a, b := b, cfg := cfg, ctl := ctl, rm := fld m.cap 0 2, fz := m.modes.fz, sat8 := m.modes.sat8, seq := m.seq }

/-- ME_MMA (R215): the item waits for the array. -/
def execMeMma (site idx : Nat) (s : State) : Out :=
  engineEvent 0x20 site idx (fun m s =>
    .ok (s.modTile site (fun t => { t with items := t.items ++ [m.item (m.word 1) (m.word 2) (m.word 3) (m.word 4)] }))) s

/-- COPYMMA_MATRIX_WORK (R212, R281): the copy's ranges retire and the item waits for the array. -/
def execCopymmaMatrixWork (site idx : Nat) (s : State) : Out :=
  match s.cmdAt site idx with
  | none => .next s
  | some m =>
    if m.copied && !m.ended then
      let s := (s.freeRanges site m.seq).modCmd site idx (fun m => { m with copied := false })
      .next (s.modTile site (fun t => { t with items := t.items ++ [m.item (m.word 4) (m.word 5) (m.word 6) (m.word 7)] }))
    else .next s

/-- OP, Z and BANK of a control word (R212). -/
def ctlOp (c : Word) : MatOp :=
  match (fld c 4 2).toNat with
  | 0 => .mma
  | 1 => .mmaT
  | 2 => .smma
  | _ => .smmaB
def ctlZero (c : Word) : Bool := c.getLsbD 3
def ctlBank (c : Word) : Nat := (fld c 0 3).toNat

/-- Can the class run the work (R12, R212)? -/
def opClass (k : TileClass) (op : MatOp) (bank : Nat) : Bool :=
  decide (bank < k.banks) && match op with
    | .mma => k == TileClass.dt
    | .mmaT => k == TileClass.dt
    | .smma => k == TileClass.st
    | .smmaB => k == TileClass.st

/-- The command an item belongs to. -/
def Tile.cmdOf (t : Tile) (seq : Nat) : Option Cmd := t.cmds.find? (fun m => m.seq == seq)

/-- The items that may start next: those that came through e4 of one task keep their order (R191). -/
def Tile.nextItems (t : Tile) : List Nat :=
  let e4 (i : MatItem) : Option (BitVec 32) := match t.cmdOf i.seq with
    | some m => if m.port == 4 && !m.remote then some m.task else none
    | none => none
  (List.range t.items.length).filter (fun k => match t.items[k]? with
    | some i => match e4 i with
      | some task => (t.items.take k).all (fun x => e4 x != some task)
      | none => true
    | none => false)

/-- Take an item off a tile's list. -/
def State.dropItem (s : State) (site seq : Nat) : State :=
  s.modTile site (fun t => { t with items := t.items.filter (fun i => i.seq != seq) })

/-- The engine asks its Drover once for what it lacks of D; the request stays open while the item waits (R192, R303). -/
def State.engineAsk (s : State) (site : Nat) : State :=
  let h := (s.tile site).eng
  let want := matDraw (siteClass site) - h.avail
  if want = 0 ∨ h.opened then s
  else
    let s := s.setHolding site 4 { h with want := want, opened := true, since := s.refTicks, ord := s.nextOrd (siteField site) }
    if h.notice ≠ 0 then s else (s.droverAnswer site 4).2.2

/-- The item starts: the engine asks for no more (R192). -/
def State.engineClose (s : State) (site : Nat) : State :=
  s.modTile site (fun t => { t with eng := { t.eng with want := 0, opened := false } })

/-- An engine holding goes back to the Drover (R192). -/
def State.engineReturn (s : State) (site : Nat) : State :=
  (s.modTile site (fun t => { t with eng := {} })).endHolding site (s.tile site).eng

/-- An item waits for tokens from now on (R42, R192). -/
def State.itemWaits (s : State) (site seq : Nat) : State :=
  s.modTile site (fun t => { t with items := t.items.map (fun i =>
    if i.seq = seq ∧ i.since = none then { i with since := some (s.tick site) } else i) })

/-- Whose banks the item uses: those of the writing task while it runs, else of the context that runs, else a set of
the tile's own (log 17). -/
def State.itemSlot (s : State) (site : Nat) (m : Cmd) : Option Nat :=
  match s.writerOf site m with
  | some slot => some slot
  | none => match (s.tile site).cur with
    | some slot => if (s.ctx? site slot).isSome then some slot else none
    | none => none

/-- Run an item's work on its banks: the state and the flags. -/
def State.runWork (s : State) (site : Nat) (slot : Option Nat) (w : MatWork) : State × Flags :=
  match slot with
  | some k =>
    match s.ctx? site k with
    | some c =>
      let r := w.run c.banks
      (s.setCtx site k { c with acc := r.1.acc, mstat := r.1.mstat }, r.2)
    | none => (s, 0)
  | none =>
    let r := w.run ⟨(s.tile site).scratchAcc, Vector.replicate 4 0⟩
    (s.modTile site (fun t => { t with scratchAcc := r.1.acc }), r.2)

/-- The item fails: it leaves the list, its engine holding goes back, the command stops (R207). -/
def State.failItem (s : State) (site : Nat) (m : Cmd) (t : Trap) : State :=
  let s := s.dropItem site m.seq
  let s := if (s.writerOf site m).isSome || (s.tile site).array.any (·.eng) then s else s.engineReturn site
  s.failCmd site m t

/-- f of an item in eighths, by the holding that pays for it (R192). -/
def State.itemFraction (s : State) (site : Nat) (m : Cmd) : Nat :=
  match (s.writerOf site m).bind (s.ctx? site) with
  | some c => c.matFraction (siteClass site)
  | none => fraction (s.tile site).eng.avail (matDraw (siteClass site))

/-- Start an item: checks, tokens (R192), then its work and its time (R191). The scoreboard orders no command against
another (R314). (DEDUCED, log 70.) -/
def State.startItem (s : State) (site : Nat) (m : Cmd) (i : MatItem) : Try State := do
  need (opClass (siteClass site) (ctlOp i.ctl) (ctlBank i.ctl)) .illclass
  let w ← s.matWork site (ctlOp i.ctl) (ctlZero i.ctl) (ctlBank i.ctl) i.a i.b i.cfg i.fz
  let writer := s.writerOf site m
  let s := if (writer.bind (s.ctx? site)).isSome then s else s.engineAsk site
  let f := s.itemFraction site m
  if f = 0 then .ok (s.itemWaits site i.seq)
  else
    let s := if writer.isNone then s.engineClose site else s
    let s := s.rangesEngine w.ranges m.msg.launch
    let s := w.opds.foldl (fun s o => s.noteRead site o) s
    let (s, fl) := s.runWork site (s.itemSlot site m) w
    let s := if f < 8 then s.modTile site (·.count 8 1) else s
    .ok (s.modTile site (fun t => { t with
      items := t.items.filter (fun x => x.seq != i.seq)
      array := some ⟨itemTicks w.ts f, writer, some i.seq, false, writer.isNone⟩
      cmds := t.cmds.map (fun x => if x.seq = i.seq then { x with detail := fl.setWidth 16 } else x) }))

/-- MATRIX_ITEM_START (R191, R192): which of the items that may start takes the array is a choice (log 2). -/
def execMatrixItemStart (site : Nat) (s : State) : Out :=
  let t := s.tile site
  if t.array.isSome || t.nextItems.isEmpty then .next s
  else
    let k := s.choose t.nextItems.length
    match t.items[(t.nextItems[k.1]?).getD 0]? with
    | none => .next s
    | some i =>
      match t.cmdOf i.seq with
      | none => .next (k.2.dropItem site i.seq)
      | some m =>
        match k.2.startItem site m i with
        | .ok s => .next s
        | .error (.trap t) => .next (k.2.failItem site m t)
        | .error (.trapAfter t s) => .next (s.failItem site m t)
        | .error (.fault f) => .fault f
        | .error (.refuse r) => .refused r
        | .error (.wait _) => .next s
        | .error (.goto s) => .next s

/-- MATRIX_ITEM_RETIRE (R191, R192): the array is free, the command's work is done. -/
def execMatrixItemRetire (site : Nat) (s : State) : Out :=
  match (s.tile site).array with
  | none => .next s
  | some a =>
    if a.ticks != 0 then .next s
    else
      let s := s.modTile site (fun t => { (t.count 3 1) with array := none })
      let s := if a.eng then s.engineReturn site else s
      .next (match a.seq with
        | some q => s.modTile site (fun t => { t with cmds := t.cmds.map (fun m =>
            if m.seq = q then { m with ended := true } else m) })
        | none => s)

end Sys2Proof.Machine
end

