-- ==== Sys2Proof/Machine/Turn.lean ====
section
/-! DEFINITION. What a turn of an agent issues (R9, R15, R421), repeat frames (R86 to R88), and what moves that are no
instruction do: time, evictions and bit errors (log 1). -/

namespace Sys2Proof.Machine

/-- What a turn comes to: nothing, a state change (a C-stream word enters the front end, a fetch fault is taken), a stop
of the model, or a word to decode. -/
inductive TurnWord where
  | idle
  | moved (s : State)
  | halted (o : Out)
  | issue (k : CoreKind) (m : Stream) (w : IWord) (s : State)

/-- Rename one 6-bit scalar field at `lo` (R87): s1 to s47 move by `d`, all else stays. -/
def renameS (d lo : Nat) (w : IWord) : IWord :=
  let f := (w.extractLsb' lo 6).toNat
  if 1 ≤ f ∧ f < 48 then (w &&& ~~~(0x3F#32 <<< lo)) ||| (BitVec.ofNat 32 (1 + (f - 1 + d) % 47) <<< lo) else w

/-- Set one 5-bit field. -/
def put5 (lo f : Nat) (w : IWord) : IWord := (w &&& ~~~(0x1F#32 <<< lo)) ||| (BitVec.ofNat 32 f <<< lo)

/-- Does the word use the register field at `lo`: may it name another register? A field that must be zero names none. -/
def usesV (lo : Nat) (w : IWord) : Bool :=
  let f := (w.extractLsb' lo 5).toNat
  match decode .tile (put5 lo (if f = 0 then 1 else 0) w) with
  | .ok _ => true
  | .error _ => false

/-- Rename one 5-bit vector field at `lo` (R87): v0 to v27 move by `d`; a zero field that the word does not use stays.
(DEDUCED, log 83.) -/
def renameV (d lo : Nat) (w : IWord) : IWord :=
  let f := (w.extractLsb' lo 5).toNat
  if f < 28 && usesV lo w then put5 lo ((f + d) % 28) w else w

/-- The word of a frame as iteration `i` issues it, with d = i x k (R87). Fields are renamed one by one; each asks of the
word as it then stands whether it is used. -/
def renameWord (d : Nat) (w : IWord) : IWord :=
  let j := (w.extractLsb' 25 6).toNat
  if j = 0x00 ∨ j = 0x0C then renameS d 19 (renameS d 13 (renameS d 7 w))
  else if (0x01 ≤ j ∧ j ≤ 0x06) ∨ j = 0x09 ∨ j = 0x0A then renameS d 19 (renameS d 13 w)
  else if j = 0x07 ∨ j = 0x08 then renameS d 19 w
  else if j = 0x2C then renameV d 20 (renameV d 15 (renameS d 9 w))
  else if j = 0x2F then renameV d 20 w
  else if 0x28 ≤ j ∧ j ≤ 0x2E then renameV d 20 (renameV d 15 (renameV d 10 w))
  else if 0x30 ≤ j ∧ j ≤ 0x33 then renameS d 16 (renameS d 10 (renameS d 4 w))
  else w

/-- The word a C-stream issues next, renamed inside a frame. -/
def Ctx.issueC (c : Ctx) : Option IWord :=
  match c.frame with
  | none => c.front.head?.map Prod.snd
  | some f => (f.words[f.idx]?).map (fun p => renameWord (f.iter * f.k) p.2)

/-- Is the tile able to issue (R387)? -/
def Tile.awake (t : Tile) : Bool := t.retain == .active && t.clearing.isNone

/-- The first instruction of a launch notes the time (R364). -/
def State.firstRun (s : State) (launch : Nat) : State :=
  match s.launch? launch with
  | some l => if l.ran then s else s.modLaunch launch (fun l => { l with ran := true, started := s.gtime })
  | none => s

/-- A C-stream word fetched at `pc` enters the front end. -/
def Ctx.enterC (c : Ctx) (pc : Word) (w : IWord) : Ctx :=
  { c with front := c.front ++ [(pc, w)], fetched := c.fetched + 1 }

/-- The A-stream's turn: the oldest word of its front end, else fetch the word at the pc; a C-stream word goes to its
own front end (R9, R15, R421). -/
def State.turnA (s : State) (site slot : Nat) (c : Ctx) : TurnWord :=
  if Config.frontWords ≤ c.front.length then .idle
  else
    match c.aFront with
    | a :: _ => .issue .tile .A a.word (s.firstRun c.task.msg.launch)
    | [] =>
    match s.fetch (s.spaceOf site) c.pc with
    | .ok (w, s') =>
      let s' := s'.firstRun c.task.msg.launch
      match streamOf w with
      | .A => .issue .tile .A w s'
      | .C => .moved (s'.modCtx site slot (fun c => { c.enterC c.pc w with pc := pcCut (c.pc + 4) }))
    | .error (.trap t) => .moved (s.raise .A t)
    | .error (.trapAfter t s') => .moved (s'.raise .A t)
    | .error (.wait _) => .idle
    | .error (.fault f) => .halted (.fault f)
    | .error (.refuse r) => .halted (.refused r)
    | .error (.goto s') => .moved s'

/-- Does the fetch unit stop at the word until it has issued: control flow, what ends or leaves a task, `fence`? -/
def fetchStops (w : IWord) : Bool :=
  let j := (w.extractLsb' 25 6).toNat
  (decide (0x10 ≤ j) && decide (j ≤ 0x12)) || (j == 0x14 && w != 0xA8000000) || (match decode .tile w with
    | .ok .fence => true
    | .ok _ => false
    | .error _ => true)

/-- A word fetched ahead of the A-stream: to the front end of its stream (R15, R421). -/
def Ctx.enterAhead (c : Ctx) (at_ : Word) (w : IWord) : Option Ctx :=
  let next := pcCut (at_ + 4)
  match streamOf w with
  | .C => some (if c.aFront.isEmpty then { c.enterC at_ w with pc := next } else { c.enterC at_ w with ahead := next })
  | .A => (shapeAhead c.front (some c.vshape)).map (fun v =>
      { c with aFront := c.aFront ++ [⟨at_, w, c.fetched, v⟩], ahead := next })

/-- The fetch unit goes on while the A-stream waits (R9, R15): past words that do not stop it, while both front ends
have room; a word that cannot be fetched is met when the A-stream reaches it. How many A-stream words wait is not
stated. (DESIGN CHOICE, log 85.) -/
def State.fetchAhead (s : State) (site slot : Nat) : State :=
  let t := s.tile site
  match s.ctx? site slot with
  | none => s
  | some c =>
    if !t.awake || t.cur != some slot || decide (Config.frontWords ≤ c.front.length) ||
        decide (Config.aFrontWords ≤ c.aFront.length) || (c.aFront.getLast?.any (fun a => fetchStops a.word)) then s
    else
      let at_ := if c.aFront.isEmpty then c.pc else c.ahead
      match s.fetch (s.spaceOf site) at_ with
      | .error _ => s
      | .ok (w, s') =>
        match (s'.ctx? site slot).bind (·.enterAhead at_ w) with
        | some c => s'.setCtx site slot c
        | none => s

/-- Is the word one that holds the vector unit (R162)? -/
def isVector (w : IWord) : Bool :=
  let j := (w.extractLsb' 25 6).toNat
  decide (0x28 ≤ j) && decide (j ≤ 0x2F)

/-- The turn of the agent whose turn it is. Only the context that runs on its tile issues (R259). (DESIGN CHOICE, log 104.) -/
def State.turnWord (s : State) : TurnWord :=
  match s.turn with
  | .tile site slot m =>
    let t := s.tile site
    match s.ctx? site slot with
    | none => .idle
    | some c =>
      if t.awake && t.cur == some slot then
        match m with
        | .A => s.turnA site slot c
        | .C =>
          if c.vecBusy != 0 then .idle
          else match c.issueC with
            | some w => if isVector w && t.vecHold != 0 then .idle else .issue .tile .C w s
            | none => .idle
      else .idle
  | .croft n =>
    if (s.croft n).held then .idle
    else
      match s.croftFetch n with
      | .ok (w, s') => .issue .croft (streamOf w) w s'
      | .error (.trap t) => .moved (s.croftFault n t)
      | .error (.trapAfter t s') => .moved (s'.croftFault n t)
      | .error (.wait _) => .idle
      | .error (.fault f) => .halted (.fault f)
      | .error (.refuse r) => .halted (.refused r)
      | .error (.goto s') => .moved s'

/-! ## Time -/

/-- A cluster after `n` ref ticks, with the tile ticks they came to (R5, R306). -/
def Cluster.advance (c : Cluster) (n : Nat) : Nat × Cluster :=
  let room := c.phase + 7 * 256 * n
  let e := room / c.period
  (e, { c with phase := room % c.period, lost := c.lost + 7 * n - e })

/-- A context after `e` ticks of its tile. -/
def Ctx.advance (c : Ctx) (e : Nat) : Ctx :=
  { c with tok := { c.tok with left := c.tok.left - e }, vecBusy := c.vecBusy - e }

/-- Retention counts down (R387). -/
def Retain.advance (r : Retain) (e : Nat) : Retain :=
  match r with
  | .active => .active
  | .entering n => .entering (n - e)
  | .retained => .retained
  | .leaving n => .leaving (n - e)

/-- A tile after `e` ticks of its cluster, `stretched` of a stretched clock. For a tick of each replay it stands still, and
counts nothing (R42, R388). -/
def Tile.advance (t : Tile) (e : Nat) (stretched : Bool) : Tile :=
  let k := Nat.min e t.owed
  let t := { t with owed := t.owed - k, stopped := t.stopped + k }
  let e := e - k
  let quiet := t.launch.isSome && t.resident.isEmpty && t.inbox.isEmpty
  let t := (t.count 0 e).count 19 (if stretched then e else 0)
  { t with
    ctxs := t.ctxs.map (fun c => c.map (·.advance e))
    vecHold := t.vecHold - e
    eng := { t.eng with left := t.eng.left - e }
    array := t.array.map (fun a => { a with ticks := a.ticks - e })
    clearing := t.clearing.map (· - e)
    retain := t.retain.advance e
    idle := if quiet then t.idle + e else 0 }

/-- A field's copy of GTIME is corrected by at most 100 ppm of `n` ref ticks, which is `n` ps, within `bound` (R308). -/
def Field.slew (g : Field) (n bound : Nat) (d : Int) : Field :=
  let d := max (-(n : Int)) (min (n : Int) d)
  { g with lag := Nat.min bound ((g.lag : Int) + d).toNat }

/-- `n` ref ticks pass. GTIME counts once time is synchronised, and the fields' copies slew (R308). -/
def State.elapse (s : State) (n : Nat) (slews : List (Nat × Int)) : State :=
  let adv (c : Nat) : Nat := ((s.cluster c).advance n).1
  { s with
    refTicks := s.refTicks + n
    gtime := if s.tskew = 0xFFFF then s.gtime else s.gtime + BitVec.ofNat 64 (10 * n)
    clusters := s.clusters.map (fun p => (p.1, (p.2.advance n).2))
    fields := s.fields.map (fun p => match slews.find? (·.1 == p.1) with
      | some d => if s.tskew = 0xFFFF then p else (p.1, p.2.slew n s.tskew.toNat d.2)
      | none => p)
    tiles := s.tiles.map (fun p => (p.1, p.2.advance (adv (siteCluster p.1))
      (decide (256 < (s.cluster (siteCluster p.1)).period)))) }

/-! ## Evictions (log 1) -/

/-- A tile's L1 evicts a line (R120); a speculative one stays (R270). -/
def State.evictL1 (s : State) (site idx : Nat) : State :=
  match (s.tile site).l1[idx]? with
  | some l => if (s.tile site).specHeld l.line then s else s.evictLine site l
  | none => s

/-- A home slice evicts a backed line; it never evicts an unbacked one (R290). -/
def State.evictL2 (s : State) (idx : Nat) : State :=
  match s.l2[idx]? with
  | some l => s.toHbm l.key
  | none => s

/-- A Croft core's data cache evicts a line (R392). -/
def State.evictCroft (s : State) (n idx : Nat) : State :=
  match (s.croft n).cache[idx]? with
  | some l => s.croftEvict n l
  | none => s

/-- A cluster drops a TLB entry, or past their end a walk-cache entry (R373). -/
def State.dropTlb (s : State) (c idx : Nat) : State :=
  s.modCluster c (fun k =>
    if idx < k.tlb.length then { k with tlb := k.tlb.eraseIdx idx }
    else { k with walks := k.walks.eraseIdx (idx - k.tlb.length) })

/-! ## Bit errors (R385, R387) -/

/-- A bit error strikes. Up to two errors of a doubleword of a retained tile will be corrected (R387); an error of HBM that
the stack cannot correct poisons the line there (R385). -/
def State.strike (s : State) (u : Upset) : State :=
  match u with
  | .spad site d double =>
    s.modTile site (fun t => if double && t.retain != .retained then { t with bad := sinsert d t.bad } else { t with weak := sinsert d t.weak })
  | .line k double => if double then { s with bad := k :: s.bad } else { s with weak := k :: s.weak }
  | .hbm n =>
    let s := if (s.l2find (.pa n)).isNone then s.poisonLine (.pa n)
      else if s.hbmPoison.contains n then s else { s with hbmPoison := n :: s.hbmPoison }
    s.countRim (64 * n / (48 * 2 ^ 30)) 3
  | .retained site d bits =>
    if (s.tile site).retain != .retained then s
    else if bits ≤ 2 then s.modTile site (fun t => { t with weak := sinsert d t.weak })
    else
      let s := s.modTile site (fun t => { t with poison := sinsert d t.poison })
      match (s.tile site).launch with
      | some l => s.taint l
      | none => s
  | .l1 site idx d double =>
    s.modTile site (fun t => { t with l1 := lmod t.l1 idx (fun l =>
      if double then { l with bad := l.bad ||| BitVec.twoPow 8 d } else { l with weak := l.weak ||| BitVec.twoPow 8 d }) })
  | .ctx site slot unit double => s.modCtx site slot (fun c => { c with marks := ⟨unit, double⟩ :: c.marks })
  | .rim stack refresh => s.countRim stack (if refresh then 2 else 0)

end Sys2Proof.Machine
end

