-- ==== Sys2Proof/Machine/Msg.lean ====
section
/-! DEFINITION. Messages, QFENCE commands and pairs (R219 to R221), their acceptance (R250, R258, R261), and the
collective engines (R216 to R218, R406). -/

namespace Sys2Proof.Machine

/-- The name of the Launch Unit (R365). -/
def luName : BitVec 16 := 0xFFFF

/-- A command leaves its port for the mesh: with FOLLOW a mark stays for its successor (R90). -/
def State.depart (s : State) (site : Nat) (m : Cmd) : State :=
  if hdrFollow m.hdr then s else s.modTile site (fun t => { t with cmds := t.cmds.filter (fun x => x.seq != m.seq) })

/-- The command as it travels: its completion is sent from where it arrives. -/
def Cmd.away (m : Cmd) : Cmd := { m with remote := true, running := true, slot := none, oseq := m.seq }

/-- The message a command carries (R219, R298). -/
def Cmd.message (m : Cmd) (site : Nat) : Message :=
  { words := m.words, vi := m.msg.vi, launch := m.msg.launch, dom := m.msg.dom, ts := m.msg.ts, ec := m.msg.ec,
    sender := site }

/-- Send a message (R219, R365). -/
def State.sendMessage (s : State) (site : Nat) (m : Cmd) : Try State :=
  if hdrDest m.hdr = luName ∧ hdrOpc m.hdr = 0x40 then
    .ok { s.depart site m with mesh := s.mesh ++ [.request (m.message site) m.away (s.tick site)] }
  else
    match s.siteOfName (siteField site) m.msg.launch (hdrDest m.hdr) with
    | none => trapWith .localrange 2
    | some t =>
      let back := if hdrReply m.hdr || hdrFollow m.hdr then some m.away else none
      .ok { s.depart site m with mesh := s.mesh ++ [.message t (m.message site) back none] }

/-- MSG_CALL (R219). -/
def execMsgCall (site idx : Nat) (s : State) : Out := engineEvent 0x40 site idx (fun m s => s.sendMessage site m) s
/-- MSG_REPLY (R219). -/
def execMsgReply (site idx : Nat) (s : State) : Out := engineEvent 0x41 site idx (fun m s => s.sendMessage site m) s

/-- QFENCE_COMMAND (R220): it completes when every earlier command of the named queues has; until then it fences. -/
def execQfenceCommand (site idx : Nat) (s : State) : Out :=
  engineEvent 0x50 site idx (fun m s => do
    await ((s.tile site).fenceOpen ⟨m.fenceMask, m.seq, m.task, m.run⟩) .queue
    .ok (s.doneCmd site m 0)) s

/-- NET_PAIR (R221, R252). -/
def execNetPair (site idx : Nat) (s : State) : Out :=
  engineEvent 0x60 site idx (fun m s =>
    match s.siteOfName (siteField site) m.msg.launch (hdrDest m.hdr) with
    | none => trapWith .localrange 2
    | some t => do
      let a : BitVec 51 := fld (m.word 1) 0 51
      let b : BitVec 51 := fld (m.word 2) 0 51
      let dom : BitVec 8 := fld (m.word 3) 32 8
      need (((s.launch? m.msg.launch).map (·.dom)).getD 0 == dom) .linkerr 7
      need (a != b) .linkerr 6
      let p : Pair := { a := if a.ult b then a else b, b := if a.ult b then b else a, ts := fld (m.word 3) 0 32,
                        dom := dom, launch := m.msg.launch }
      need (s.roomFor [(siteField t, p)]) .foldspill 1
      .ok ((s.sendPairs [(siteField t, p)]).doneCmd site m 0)) s

/-! ## Acceptance (R250, R258, R261) -/

/-- A TASKID from the counter of the interface and domain (R261). -/
def State.newTaskId (s : State) (vi : Nat) (dom : BitVec 8) : BitVec 32 × State :=
  let id := sget 0 dom.toNat (s.vi vi).taskids
  (id, s.modVI vi (fun v => { v with taskids := sset dom.toNat (id + 1) v.taskids }))

/-- An error reply for a message, to its RNAME (R219, R250, R278). -/
def State.bounce (s : State) (m : Message) (code : Code) (detail : BitVec 16) : State :=
  let h := wordAt m.words 0
  s.replyTo m.launch m.vi (hdrRname h) (fld h 50 6)
    (completionWord code.num (fld h 50 6) (hdrDest h) detail (hdrTag h)) m.sender

/-- The completion of a message that asked for one (R219), and what waits for it by FOLLOW. -/
def State.messageDone (s : State) (back : Option Cmd) (code : BitVec 8) (detail : BitVec 16) (from_ : Nat) : State :=
  match back with
  | none => s
  | some m =>
    let m := { m with status := code, detail := detail }
    let s := if hdrReply m.hdr || code != 0 then
        s.replyTo m.msg.launch m.msg.vi (hdrRname m.hdr) (fld m.hdr 50 6) (s.cmdWord from_ m) from_
      else s
    s.settle m

/-- A message is returned as an error reply to its RNAME; a FOLLOW successor learns of it. -/
def State.turnBack (s : State) (m : Message) (back : Option Cmd) (code : Code) (detail : BitVec 16) : State :=
  let s := s.bounce m code detail
  match back with
  | some c => s.settle { c with status := code.num }
  | none => s

/-- Is an earlier message of the same sender to the same channel of the same tile still on its way? (DEDUCED, log 73.) -/
def State.overtakes (s : State) (idx site : Nat) (m : Message) : Bool :=
  (s.mesh.take idx).any (fun f => match f with
    | .message t x _ _ => t == site && x.sender == m.sender && x.chan == m.chan && x.launch == m.launch
    | _ => false)

/-- A router learns where a name lies from a message that passes; a full table drops its oldest entry (R400). -/
def State.learn (s : State) (f : Nat) (name : BitVec 16) (site : Nat) : State :=
  let now := s.routerTick f
  s.modField f (fun g =>
    let l := g.names.filter (·.name != name)
    let old := (l.map (·.age)).foldl Nat.max 0
    let l := if 256 ≤ l.length then l.eraseIdx ((lfind (fun n => n.age == old) l).getD 0) else l
    { g with names := l ++ [⟨name, site, 0, now⟩] })

/-- The routers of a message's fields learn the names of its sender and of its receiver. -/
def State.learnBoth (s : State) (sender site : Nat) : State :=
  if sender < 64 * Config.fields then
    let s := s.learn (siteField sender) (s.nameOf site) site
    if (s.tile sender).named then s.learn (siteField site) (s.nameOf sender) sender else s
  else s.learn (siteField site) (s.nameOf site) site

/-- MESSAGE_ACCEPT (R258, R261). A message of a launch that is no more, or was cancelled (R362), is dropped. A full inbox,
or a tile that cannot take messages now, holds the message. One that goes back may raise F (R253). -/
def execMessageAccept (idx : Nat) (s : State) : Out :=
  match s.mesh[idx]? with
  | some (.message site m back task) =>
    let t := s.tile site
    let gone := { s with mesh := s.mesh.eraseIdx idx }
    if ((s.launch? m.launch).map (·.cancelled)).getD true then
      .next (match back with
        | some c => gone.settle c
        | none => gone)
    else if t.launch != some m.launch then
      .next ((gone.turnBack m back .localrange 2).reband m.launch)
    else if s.overtakes idx site m || !t.awake || decide (Config.inboxMessages ≤ t.inbox.length) then .next s
    else if vget 0 (t.handler m.chan) 0 = 0 then
      .next ((gone.turnBack m back .illop 4).reband m.launch)
    else
      let r := match task with
        | some k => (k, gone)
        | none =>
          let i := gone.newTaskId m.vi m.dom
          (({ msg := m, id := i.1 } : Task), i.2)
      let s := r.2.modTile site (fun t => { t with inbox := t.inbox ++ [r.1], idle := 0 })
      let s := s.learnBoth m.sender site
      .next ((s.messageDone back 0 0 site).reband m.launch)
  | _ => .next s

/-! ## Collectives (R216 to R218) -/

/-- The group word of a collective command (R216). -/
def Cmd.groupWord (m : Cmd) : Word := m.word (if hdrOpc m.hdr = 0x30 then 4 else 3)
def groupMod (g : Word) : BitVec 21 := fld g 43 21
def groupParts (g : Word) : Nat := (fld g 35 8).toNat + 1
def groupNum (g : Word) : BitVec 16 := fld g 19 16
def groupLen (g : Word) : Nat := 64 * (fld g 0 19).toNat

/-- This module's number, as firmware wrote it into the link units (R406). -/
def State.moduleNumber (s : State) : BitVec 21 := (sget ({} : Link) 0 s.links).number

/-- Is a module reachable over the links that are up (R406)? -/
def State.reachable (s : State) (md : BitVec 21) : Bool :=
  md == s.moduleNumber || s.links.any (fun p => p.2.up && p.2.routes.contains md)

/-- The field whose collective engine a command names. -/
def State.clField (s : State) (site : Nat) (m : Cmd) : Option Nat :=
  (s.siteOfName (siteField site) m.msg.launch (hdrDest m.hdr)).map siteField

/-- Are two commands parts of one group: same launch and group number? Where they disagree on the coordinator the group
is rejected (R216). (DEDUCED, log 69.) -/
def sameGroup (a b : Cmd) : Bool := a.msg.launch == b.msg.launch && groupNum a.groupWord == groupNum b.groupWord

/-- Do two parts agree (R216)? -/
def agreeParts (a b : Cmd) : Bool :=
  hdrOpc a.hdr == hdrOpc b.hdr && hdrDest a.hdr == hdrDest b.hdr && a.groupWord == b.groupWord &&
  hdrFpcf a.hdr == hdrFpcf b.hdr && a.modes == b.modes &&
  (hdrOpc a.hdr != 0x30 || fld (a.word 3) 0 38 == fld (b.word 3) 0 38)

/-- TYPE and OP of CL.REDUCE (R217). -/
def clType (m : Cmd) : VType :=
  match (fld (m.word 3) 32 4).toNat with
  | 4 => .i32
  | 5 => .u32
  | 6 => .bf16
  | _ => .fp32
def clOp (m : Cmd) : Nat := (fld (m.word 3) 36 2).toNat

/-- Bytes of a part's vector. -/
def Cmd.clBytes (m : Cmd) : Nat :=
  if hdrOpc m.hdr = 0x30 then (fld (m.word 3) 0 32).toNat * (clType m).size else groupLen m.groupWord

/-- The SRC that marks a part that is no root (R218). -/
def noRoot : Word := 0xFFFFFFFFFFFFFFFF

/-- Does the part read its SRC? -/
def Cmd.clReads (m : Cmd) : Bool := hdrOpc m.hdr == 0x30 || m.word 1 != noRoot

/-- A part ends: with a status and detail. That of another module ends there. -/
def State.endPart (s : State) (p : ClPart) (status : BitVec 8) (detail : BitVec 16) : State :=
  if p.far.isSome then s else s.endCmd p.site p.cmd.seq status detail

/-- A part ends with a fault: the entry that raised UNBFULL leaves its cluster's TLB (R373). -/
def State.faultPart (s : State) (p : ClPart) (t : Trap) : State :=
  (s.unlearn p.site p.cmd.msg.launch t).endPart p t.code.num (t.detail.setWidth 16)

/-- End every part of a list. -/
def State.endParts (s : State) (ps : List ClPart) (status : BitVec 8) (detail : BitVec 16) : State :=
  ps.foldl (fun s p => s.endPart p status detail) s

/-- Write a result to a part's DST; its completion follows its own write (R216). That of another module is written there. -/
def State.partResult (s : State) (p : ClPart) (bs : List (Byte × Bool)) (fl : Flags) : Try State :=
  if p.far.isSome then .ok s
  else match s.writeLoad (s.spaceOf p.site) p.site (p.cmd.word 2, bs) with
  | (s, none) => .ok (s.endPart p 0 (fl.setWidth 16))
  | (s, some (.trap t)) => .ok (s.faultPart p t)
  | (s, some (.trapAfter t _)) => .ok (s.faultPart p t)
  | (_, some e) => .error e

/-- The bytes of a part's SRC: its field's CL reads them, that of another module has read them there (R216). -/
def State.partSource (s : State) (p : ClPart) : Try (List (Byte × Bool) × State) :=
  match p.far with
  | some bs => .ok (bs, s)
  | none => s.engRead (s.spaceOf p.site) p.site (p.cmd.word 1) p.cmd.clBytes

/-- The sources of the parts, or the first part whose source is stopped. -/
def State.partSources (s : State) : List ClPart → Except (ClPart × Stop) (List (List (Byte × Bool)) × State)
  | [] => .ok ([], s)
  | p :: r =>
    match s.partSource p with
    | .ok (bs, s) =>
      match s.partSources r with
      | .ok (l, s) => .ok (bs :: l, s)
      | .error e => .error e
    | .error e => .error (p, e)

/-- Element `k` of a part's bytes: pattern and poison. -/
def clElem (size : Nat) (bs : List (Byte × Bool)) (k : Nat) : Nat × Bool :=
  let e := (bs.drop (size * k)).take size
  (leNat (e.map Prod.fst), e.any Prod.snd)

/-- The reduction of all sources (R217): bytes with poison, and flags. -/
def clReduced (m : Cmd) (srcs : List (List (Byte × Bool))) : List (Byte × Bool) × Flags :=
  let t := clType m
  let n := (fld (m.word 3) 0 32).toNat
  let es := (List.range n).map (fun k =>
    let l := srcs.map (fun b => clElem t.size b k)
    (reduceEls t (clOp m) m.modes (l.map Prod.fst), l.any Prod.snd))
  ((es.map (fun e => (leBytes t.size e.1.p).map (fun b => (b, e.2)))).flatten, es.foldl (fun f e => f ||| e.1.flags) 0)

/-- A complete group acts (R216 to R218). A part whose source faults now fails alone and leaves the group short. (DEDUCED, log 69.) -/
def State.runGroup (s : State) (m : Cmd) (ps : List ClPart) : Try State :=
  let roots := ps.filter (fun p => p.cmd.clReads)
  let gone (s : State) : State := { s with parts := s.parts.filter (fun p => !ps.contains p) }
  if hdrOpc m.hdr = 0x31 ∧ roots.length ≠ 1 then .ok (gone (s.endParts ps 0x01 3))
  else
    match s.partSources roots with
    | .error (p, .trap t) =>
      .ok { s.faultPart p t with parts := s.parts.filter (· != p) }
    | .error (_, e) => .error e
    | .ok (srcs, s) => do
      let r := if hdrOpc m.hdr = 0x30 then clReduced m srcs else (srcs.headD [], 0)
      let s := if r.1.any Prod.snd then s.taint m.msg.launch else s
      let s ← ps.foldlM (fun s p => s.partResult p r.1 r.2) s
      .ok (gone s)

/-- A part joins its group (R216): parts that disagree end it, and the last one completes it. A group that another module
coordinates is completed there. -/
def State.joinPart (s : State) (me : ClPart) : Try State :=
  let m := me.cmd
  let old := s.parts.filter (fun p => sameGroup p.cmd m)
  if old.any (fun p => !agreeParts p.cmd m) then
    let s := { s with parts := s.parts.filter (fun p => !old.contains p) }
    .ok (s.endParts (old ++ [me]) 0x01 2)
  else
    let s := { s with parts := s.parts ++ [me] }
    if groupMod m.groupWord == s.moduleNumber && decide (groupParts m.groupWord ≤ old.length + 1) then
      s.runGroup m (old ++ [me])
    else .ok s

/-- A part arrives at its group (R216). -/
def State.joinGroup (s : State) (site : Nat) (m : Cmd) : Try State := do
  need (s.clField site m).isSome .localrange 2
  need (!m.clReads || !isLocal (m.word 1)) .localrange 1 (m.word 1)
  need (!isLocal (m.word 2)) .localrange 1 (m.word 2)
  need (s.reachable (groupMod m.groupWord)) .prot 3
  let (_, s) ← (if m.clReads then s.engRead (s.spaceOf site) site (m.word 1) m.clBytes else .ok ([], s) :
    Try (List (Byte × Bool) × State))
  s.joinPart { cmd := m, site := site, since := s.tick site }

/-! ### Groups of several modules (R216, R406) -/

/-- Is the part of another module one that this module's links bring to the tile that DEST names? -/
def State.farOk (s : State) (site : Nat) (m : Cmd) (bs : List (Byte × Bool)) : Bool :=
  (hdrOpc m.hdr == 0x30 || hdrOpc m.hdr == 0x31) && !m.bad && groupMod m.groupWord == s.moduleNumber &&
  s.links.any (fun p => p.2.up) && s.siteOfName (siteField site) m.msg.launch (hdrDest m.hdr) == some site &&
  bs.length == (if m.clReads then m.clBytes else 0)

/-- What a move of the links comes to. -/
def linkOut (s : State) : Try State → Out
  | .ok t => .next t
  | .error (.goto t) => .next t
  | .error (.fault f) => .fault f
  | .error (.refuse r) => .refused r
  | .error _ => .next s

/-- A part of another module arrives at a group that this module coordinates (R216). Which launch here it belongs to, and
by whose ticks it waits, are the model's. (DESIGN CHOICE, log 123.) -/
def State.farPart (s : State) (site : Nat) (m : Cmd) (bs : List (Byte × Bool)) : Out :=
  if s.farOk site m bs then linkOut s (s.joinPart { cmd := m, site := site, since := s.tick site, far := some bs })
  else .next s

/-- Can a group come to this: a result, ILLOP with detail 2 or 3, WAITTMO (R216, R218)? -/
def clVerdict (m : Cmd) (status : BitVec 8) (detail : BitVec 16) (bs : List (Byte × Bool)) : Bool :=
  (status == 0 && bs.length == m.clBytes && decide (detail.toNat < if hdrOpc m.hdr = 0x30 then 32 else 1)) ||
  (status == 0x01 && (detail == 2 || detail == 3)) ||
  (status == Code.waittmo.num && detail == 0)

/-- What a group that another module coordinates came to reaches a part here (R216): the result goes to its DST, a root's is
its own SRC. (DESIGN CHOICE, log 123.) -/
def State.farResult (s : State) (idx : Nat) (status : BitVec 8) (detail : BitVec 16) (bs : List (Byte × Bool)) : Out :=
  match s.parts[idx]? with
  | none => .next s
  | some p =>
    if groupMod p.cmd.groupWord == s.moduleNumber || p.far.isSome || !clVerdict p.cmd status detail bs then .next s
    else
      let s := { s with parts := s.parts.filter (· != p) }
      if status ≠ 0 then .next (s.endPart p status detail)
      else
        match (if hdrOpc p.cmd.hdr = 0x31 ∧ p.cmd.clReads then s.partSource p else .ok (bs, s) :
          Try (List (Byte × Bool) × State)) with
        | .ok (bs, s) =>
          linkOut s ((if bs.any Prod.snd then s.taint p.cmd.msg.launch else s).partResult p bs (detail.setWidth 5))
        | .error (.trap t) => .next (s.faultPart p t)
        | .error e => linkOut s (.error e)

/-- CL_REDUCE (R217). -/
def execClReduce (site idx : Nat) (s : State) : Out := engineEvent 0x30 site idx (fun m s => s.joinGroup site m) s
/-- CL_BCAST (R218). -/
def execClBcast (site idx : Nat) (s : State) : Out := engineEvent 0x31 site idx (fun m s => s.joinGroup site m) s

/-- CL_GROUP_TIMEOUT (R216): WDOG ticks after its first part a group that lacks parts is rejected by its coordinator. -/
def execClGroupTimeout (idx : Nat) (s : State) : Out :=
  match s.parts[idx]? with
  | none => .next s
  | some p =>
    let group := s.parts.filter (fun q => sameGroup q.cmd p.cmd)
    match group.head? with
    | none => .next s
    | some first =>
      if groupMod p.cmd.groupWord = s.moduleNumber ∧ first.since + (s.tile first.site).wdog.toNat ≤ s.tick first.site then
        .next ({ s with parts := s.parts.filter (fun q => !group.contains q) }.endParts group Code.waittmo.num 0)
      else .next s

/-- MODULE_LINK_LOSS (R406): parts for modules that can no longer be reached are rejected. -/
def execModuleLinkLoss (link : Nat) (s : State) : Out :=
  let s := { s with links := sset link { sget ({} : Link) link s.links with up := false } s.links }
  let lost := s.parts.filter (fun p => !s.reachable (groupMod p.cmd.groupWord))
  .next ({ s with parts := s.parts.filter (fun p => !lost.contains p) }.endParts lost Code.prot.num 3)

end Sys2Proof.Machine
end

