-- ==== Sys2Proof/Machine/Select.lean ====
section
/-! DEFINITION. Selection (R258 to R260), the start of a task's run (R23, R274, R275, R301), the snapshot log, the step
boundary's idle arrivals (R109) and the wait watchdog (R42). -/

namespace Sys2Proof.Machine

/-! ## Blocked contexts (R42, R259, R262) -/

/-- Is a wait over? None where the model leaves open when the stream is found to be able to go on. -/
def State.waitOver (s : State) (site slot : Nat) (c : Ctx) (w : Wait) : Option Bool :=
  match w.kind with
  | .queue => if readyFor (s.tile site) slot c w.inst.uses then none else some false
  | .fullEmpty tg wd f _ served =>
    if served.isSome then some true else if (s.tile tg).feReady wd f then none else some false
  | .hurdle _ _ released => some released
  | .bell tag ph => some (match s.launch? c.task.msg.launch with
    | some l => decide (ph < (l.bell tag).phase)
    | none => true)
  | .step ph => some (decide (ph < ((s.launch? c.task.msg.launch).map (·.stepPh)).getD 0))
  | .token => match w.inst.stream with
    | .A => some (c.tok.want == 0)
    | .C => none
  | .retire => match w.inst with
    | .done => some (s.cRetired site slot c && (s.ownCommands site slot c).isEmpty)
    | _ => none
  | .fence => some (s.cRetired site slot c && !(s.tile site).unread c (s.tile site).seq)
  | .scoreboard => none
  | .array => none
  | .page => none

/-- Can the A-stream go on? -/
def State.canA (s : State) (site slot : Nat) (c : Ctx) : Option Bool :=
  match c.aWait with
  | some w => s.waitOver site slot c w
  | none => some (decide (c.front.length < Config.frontWords))

/-- Can the C-stream go on? -/
def State.canC (s : State) (site slot : Nat) (c : Ctx) : Option Bool :=
  if c.vecBusy != 0 then some true
  else if c.issueC.isNone then some false
  else match c.cWait with
    | some w => s.waitOver site slot c w
    | none => some true

/-- Is the context blocked? It is not while its A-stream can go on, and it is when neither stream can; when only its
C-stream goes on, the tile may switch (R126), and when the model leaves a wait's end open: a choice (log 2). (DEDUCED, log 43.) -/
def State.blocked (s : State) (site slot : Nat) (c : Ctx) : Bool × State :=
  match s.canA site slot c, s.canC site slot c with
  | some true, _ => (false, s)
  | some false, some false => (true, s)
  | _, _ =>
    let k := s.choose 2
    (k.1 == 1, k.2)

/-! ## Candidates (R259) -/

/-- What can be selected. -/
inductive CandOf where
  | ctx (slot : Nat)
  | msg (idx : Nat)
  | lu (idx : Nat)
deriving DecidableEq, Repr

/-- A candidate: its priority, channel, place within the channel (0 for a context, 1 for a message), and TASKID. -/
structure Cand where
  what : CandOf
  prio : Nat
  chan : Nat
  kind : Nat
  id   : BitVec 32
deriving DecidableEq, Repr

/-- A candidate from a task. -/
def Tile.cand (t : Tile) (what : CandOf) (kind : Nat) (k : Task) : Cand :=
  ⟨what, t.prioOf k, k.msg.chan, kind, k.id⟩

/-- Is the channel's handler not masked, and present (R38, R258)? -/
def Tile.open_ (t : Tile) (chan : Nat) : Bool :=
  let h := t.handler chan
  vget 0 h 0 != 0 && !(vget 0 h 1).getLsbD 4

/-- The snapshot ranges of a handler (R38, R274): start and length. -/
def Tile.snapRanges (t : Tile) (chan : Nat) : List (Nat × Nat) :=
  let h := t.handler chan
  ([2, 3].map (fun i => ((fld (vget 0 h i) 0 22).toNat, (fld (vget 0 h i) 22 22).toNat))).filter (fun r => r.2 != 0)

/-- Bytes of a snapshot slot (R384). -/
def snapBytes (ranges : List (Nat × Nat)) : Nat :=
  128 + (ranges.map (fun r => (r.2 + 63) / 64 * 64 + (r.2 + 2047) / 2048 * 64)).foldl (· + ·) 0

/-- The snapshots of a launch's tasks that exist. -/
def State.snapshots (s : State) (launch : Nat) : List Snapshot :=
  (s.allTasks.filter (fun k => k.msg.launch == launch)).filterMap (·.snap)

/-- The lowest place in a launch's snapshot area where a slot of `n` bytes fits (R356, R384). (DESIGN CHOICE, log 45.) -/
def State.snapPlace (s : State) (launch : Nat) (l : Launch) (n : Nat) : Option Nat :=
  let used := (s.snapshots launch).map (fun x => (x.slot, x.slot + snapBytes x.ranges))
  (lsort (fun a b => decide (a ≤ b)) (0 :: used.map Prod.snd)).find? (fun o =>
    decide (o + n ≤ (fld (l.word 13) 0 32).toNat) && used.all (fun u => decide (o + n ≤ u.1) || decide (u.2 ≤ o)))

/-- Has a run of a task room for its snapshot: a slot, which a task that ran before has (R356, R384), and unless it starts
from the snapshot the entries of its ranges in the scoreboard (R274)? -/
def State.snapRoom (s : State) (site : Nat) (k : Task) : Bool :=
  match s.launch? k.msg.launch with
  | some l =>
    if l.restartable then
      let r := (s.tile site).snapRanges k.msg.chan
      (k.snap.isSome || (s.snapPlace k.msg.launch l (snapBytes r)).isSome) &&
      (k.again || decide ((s.tile site).ranges.length + r.length ≤ Config.scoreboard))
    else true
  | none => true

/-- Keep the first task of each channel. -/
def oldestPerChan : List (Nat × Task) → List Nat → List (Nat × Task)
  | [], _ => []
  | (i, k) :: r, seen =>
    if seen.contains k.msg.chan then oldestPerChan r seen else (i, k) :: oldestPerChan r (k.msg.chan :: seen)

/-- The message candidates of a tile: the oldest message of each runnable channel, and the tasks that the Launch Unit
keeps for this tile: those of a capacity abort once they are the lowest of their domain (R270), and re-runs from a
snapshot (R275). When the tile leaves the launch they wait for another (State.resite; DESIGN CHOICE, log 45). -/
def State.msgCands (s : State) (site : Nat) : List Cand :=
  let t := s.tile site
  let box := (oldestPerChan (t.inbox.zipIdx.map (fun p => (p.2, p.1))) []).filter
    (fun p => t.open_ p.2.msg.chan && s.snapRoom site p.2)
  let lus := (s.luTasks.zipIdx).filter (fun p => p.1.state == .queued && p.1.site == site &&
    some p.1.task.msg.launch == t.launch && t.open_ p.1.task.msg.chan &&
    (!p.1.task.atHorizon || s.lowest p.1.task.msg.vi p.1.task.msg.dom == some p.1.task.key) &&
    s.snapRoom site p.1.task)
  box.map (fun p => t.cand (.msg p.1) 1 p.2) ++ lus.map (fun p => t.cand (.lu p.2) 1 p.1.task)

/-- The context candidates, and the choices they took. -/
def State.ctxCands (s : State) (site : Nat) : List Cand × State :=
  [0, 1, 2, 3].foldl (fun acc slot =>
    match acc.2.ctx? site slot with
    | none => acc
    | some c =>
      let b := acc.2.blocked site slot c
      if b.1 then (acc.1, b.2) else (acc.1 ++ [(acc.2.tile site).cand (.ctx slot) 0 c.task], b.2)) ([], s)

/-- A free context slot. -/
def Tile.freeCtx (t : Tile) : Option Nat := lfind (fun c => c.isNone) t.ctxs.toList

/-- Does candidate `a` come before `b` within a level whose last selected channel is `last`? -/
def Cand.before (last : Nat) (a b : Cand) : Bool :=
  let d (c : Cand) : Nat := (c.chan + 127 - last) % 64
  decide (d a < d b) || (d a == d b && (decide (a.kind < b.kind) || (a.kind == b.kind && ts32lt a.id b.id)))

/-- The candidates of the highest priority. -/
def topCands (l : List Cand) : List Cand :=
  let top := (l.map (·.prio)).foldl Nat.max 0
  l.filter (fun c => c.prio == top)

/-- The name under which a tile counts how often a candidate was passed over. -/
def Cand.key (c : Cand) : Nat :=
  match c.what with
  | .ctx slot => slot
  | .msg _ => 4 + c.chan
  | .lu _ => 4 + c.chan

/-- The switches after which a candidate that its level passed over each time comes first, so that R260 holds where the
order of R259 within a channel would pass it over for ever. (DESIGN CHOICE, log 93.) -/
def patience : Nat := 60

/-- The candidate that R259 and R260 pick. -/
def Tile.best (t : Tile) (l : List Cand) : Option Cand :=
  let l := topCands l
  let most := (l.map (fun c => sget 0 c.key t.passed)).foldl Nat.max 0
  let l := if patience ≤ most then l.filter (fun c => sget 0 c.key t.passed == most) else l
  l.foldl (fun m c => match m with
    | none => some c
    | some x => if c.before (vget 63 t.lastSel c.prio) x then some c else some x) none

/-- A switch counts the candidates of its level that it passes over; the counts of others stand. -/
def Tile.passOver (t : Tile) (l : List Cand) (pick : Cand) : Tile :=
  let keys := ((topCands l).map Cand.key).filter (· != pick.key)
  { t with passed := keys.foldl (fun m k => sset k (sget 0 k t.passed + 1) m) (sdel pick.key t.passed) }

/-! ## The start of a run -/

/-- The place of a site in the launch grid (R24). -/
def Launch.gridAt (l : Launch) (site : Nat) : Grid :=
  match l.cells.find? (fun p => p.2 == site) with
  | some (k, _) => ⟨BitVec.ofNat 16 (k % l.gw), BitVec.ofNat 16 (k / l.gw), BitVec.ofNat 16 l.gw, BitVec.ofNat 16 l.gh⟩
  | none => {}

/-- The name under which a snapshot's scoreboard entries are kept: no command has it. -/
def snapSeq (slot : Nat) : Nat := 2 ^ 64 + slot

/-- The tags and bytes of ranges (R274), with the marks of doublewords that cannot be read right (R386). -/
def Tile.snapshot (t : Tile) (ranges : List (Nat × Nat)) : Snapshot :=
  let inR (a : Nat) : Bool := ranges.any (fun r => decide (r.1 ≤ a) && decide (a < r.1 + r.2))
  { ranges := ranges, bytes := t.spad.filter (fun c => inR c.1), tags := t.tags.filter (fun w => inR (4 * w)),
    poison := (t.poison ++ t.bad).filter (fun d => ranges.any (fun r => (dwords r.1 r.2).contains d)) }

/-- Restore a snapshot at the same offsets (R275), poison with its data (R386). -/
def Tile.restore (t : Tile) (x : Snapshot) : Tile :=
  let t := x.ranges.foldl (fun t r =>
    let t := t.spadWrite r.1 (x.bytes.readN r.1 r.2)
    (List.range ((r.2 + 3) / 4)).foldl (fun t k => t.setTag (r.1 / 4 + k) (x.tags.contains (r.1 / 4 + k))) t) t
  { t with poison := x.poison.foldl (fun l d => sinsert d l) t.poison }

/-- Pad bytes with zeros. -/
def padTo (n : Nat) (bs : List Byte) : List Byte := bs ++ List.replicate (n - bs.length) 0

/-- A snapshot as it stands in its slot: the message words, then of each range its bytes and one bit for each tag. The
order within the slot is not stated. (DESIGN CHOICE, log 45.) -/
def Snapshot.image (x : Snapshot) (words : List Word) : List Byte :=
  padTo 128 (wordsBytes words) ++ (x.ranges.map (fun r =>
    let n := (r.2 + 3) / 4
    let bits := (List.range n).foldl (fun m k => if x.tags.contains (r.1 / 4 + k) then m + 2 ^ k else m) 0
    padTo ((r.2 + 63) / 64 * 64) (x.bytes.readN r.1 r.2) ++
      padTo ((r.2 + 2047) / 2048 * 64) (leBytes ((n + 7) / 8) bits))).flatten

/-- Where poisoned doublewords stand in that image. -/
def Snapshot.hurtAt (x : Snapshot) : List Nat :=
  (x.ranges.foldl (fun (acc : Nat × List Nat) r =>
    (acc.1 + (r.2 + 63) / 64 * 64 + (r.2 + 2047) / 2048 * 64,
      acc.2 ++ (x.poison.filter (dwords r.1 r.2).contains).map (fun d => acc.1 + (8 * d - r.1)))) (128, [])).2

/-- The task whose run starts with its snapshot: restored when it re-runs from one, else taken in a restartable launch,
its ranges held until SNAPSHOT_LOG. The copy engine's reads and writes meet errors as any engine's (R386). -/
def State.startSnap (s : State) (site slot : Nat) (k : Task) : Task × State :=
  match (if k.again then k.snap else none), s.launch? k.msg.launch with
  | some x, _ =>
    let s := s.modTile site (·.restore x)
    ({ k with again := false }, if x.poison.isEmpty then s else s.taint k.msg.launch)
  | none, some l =>
    if l.restartable then
      let r := (s.tile site).snapRanges k.msg.chan
      let s := s.rangesEngine (r.map (fun x => (site, x.1, x.2))) k.msg.launch
      let t := s.tile site
      let place := ((k.snap.map (·.slot)).or (s.snapPlace k.msg.launch l (snapBytes r))).getD 0
      ({ k with snap := some { t.snapshot r with slot := place }, again := false }, s.modTile site (fun t =>
        { t with ranges := t.ranges ++ r.map (fun x => ⟨false, x.1, x.1 + x.2, site, snapSeq slot⟩) }))
    else ({ k with again := false }, s)
  | none, none => (k, s)

/-- Open the Launch Unit's request for a run that starts or resumes (R301). -/
def State.openRequest (s : State) (site slot n : Nat) : State :=
  match s.ctx? site slot with
  | some c => (s.tokRequest site slot c (Nat.min n Config.tileTokens)).2
  | none => s

/-- A task starts a run in a free context (R23, R301). It sees what was done before its message came (R312). -/
def State.startRun (s : State) (site slot : Nat) (k : Task) : State :=
  match s.launch? k.msg.launch with
  | none => s
  | some l =>
    let h := (s.tile site).handler k.msg.chan
    let x := (s.acquired site).startSnap site slot k
    let k := { x.1 with atHorizon := false }
    let c := Ctx.fresh k (pcCut (vget 0 h 0)) (fld (l.word 2) 0 16 |>.setWidth 64)
      (fld (l.word 2) 16 16 |>.setWidth 64) (k.msg.grid.getD (l.gridAt site))
      ((fld (vget 0 h 1) 5 52).setWidth 64 <<< 5)
    let s := x.2.setCtx site slot { c with run := (x.2.tile site).runs }
    let s := s.modTile site (fun t => { t with runs := t.runs + 1, passed := sdel slot t.passed })
    if k.msg.ec = 0 then s else s.openRequest site slot (needOf k.msg.ec)

/-- Select a candidate: the tile runs its context, a message taking the free one. -/
def State.select (s : State) (site : Nat) (c : Cand) : State :=
  let s := s.modTile site (fun t => { t with lastSel := vput t.lastSel c.prio c.chan, idle := 0 })
  match c.what with
  | .ctx slot => s.modTile site (fun t => { t with cur := some slot })
  | .msg i =>
    match (s.tile site).freeCtx, (s.tile site).inbox[i]? with
    | some slot, some k =>
      let s := s.modTile site (fun t => { t with cur := some slot, inbox := t.inbox.eraseIdx i })
      s.startRun site slot k
    | _, _ => s
  | .lu i =>
    match (s.tile site).freeCtx, s.luTasks[i]? with
    | some slot, some k =>
      let s := { s with luTasks := s.luTasks.eraseIdx i }
      (s.modTile site (fun t => { t with cur := some slot })).startRun site slot k.task
    | _, _ => s

/-- A switch (R259): no candidate leaves the tile idle. While a pre-emption is pending no message starts a task. -/
def State.switch (s : State) (site : Nat) : State :=
  let x := s.ctxCands site
  let t := x.2.tile site
  let l := x.1 ++ (if t.freeCtx.isSome && t.preempt.isNone then x.2.msgCands site else [])
  match t.best l with
  | some c => (x.2.modTile site (·.passOver l c)).select site c
  | none => x.2.modTile site (fun t => { t with cur := none })

/-- TASK_SELECT (R259): nothing while the running context can go on. -/
def execTaskSelect (site : Nat) (s : State) : Out :=
  let t := s.tile site
  if t.launch.isNone || !t.awake then .next s
  else
    match t.cur.bind (fun slot => (s.ctx? site slot).map (fun c => (slot, c))) with
    | none => .next (s.switch site)
    | some (slot, c) =>
      let b := s.blocked site slot c
      .next (if b.1 then b.2.switch site else b.2)

/-- Write a task's snapshot to its slot of the snapshot area (R274, R355 word 12), poison with its data (R386). -/
def State.logSnap (s : State) (k : Task) : State :=
  match k.snap, s.launch? k.msg.launch with
  | some x, some l =>
    let sp : Space := { cluster := none, vi := l.vi, asid := l.asid, launch := some k.msg.launch }
    let at_ : Word := (fld (l.word 12) 0 57).setWidth 64 + BitVec.ofNat 64 x.slot
    x.hurtAt.foldl (fun s o => s.areaPoison sp (at_ + BitVec.ofNat 64 o)) (s.areaWrite sp at_ (x.image k.msg.words))
  | _, _ => s

/-- SNAPSHOT_LOG (R274): the snapshot of the run in a context reaches memory, and its ranges are free. -/
def execSnapshotLog (site slot : Nat) (s : State) : Out :=
  let s := match s.ctx? site slot with
    | some c =>
      let held := (s.tile site).ranges.any (fun r => r.seq == snapSeq slot)
      if held || c.task.snap.any (fun (x : Snapshot) => x.ranges.isEmpty) then s.logSnap c.task else s
    | none => s
  .next (s.modTile site (fun t => { t with ranges := t.ranges.filter (fun r => r.seq != snapSeq slot) }))

/-! ## Idle arrival (R109) -/

/-- Has the tile a runnable handler (R258)? -/
def Tile.runnable (t : Tile) : Bool := t.inbox.any (fun k => t.open_ k.msg.chan)

/-- STEP_IDLE_ARRIVAL. -/
def execStepIdleArrival (site : Nat) (s : State) : Out :=
  let t := s.tile site
  match t.launch with
  | some l => .next (if t.resident.isEmpty && !t.runnable then s.stepArrive l site else s)
  | none => .next s

/-! ## The wait watchdog (R42) -/

/-- Does the watchdog count the wait? A wait for the array (R191), of `done` (R107), or for a page move is none of
R42's kinds. (DESIGN CHOICE, log 42.) -/
def WaitKind.counted : WaitKind → Bool
  | .queue => true
  | .fullEmpty _ _ _ _ _ => true
  | .scoreboard => true
  | .hurdle _ _ _ => true
  | .bell _ _ => true
  | .step _ => true
  | .token => true
  | .array => false
  | .retire => false
  | .fence => true
  | .page => false

/-- A wait of a stream has lasted WDOG ticks: WAITTMO in the instruction that waits. -/
def State.waitExpired (s : State) (site slot : Nat) (st : Stream) : State :=
  match s.ctx? site slot with
  | none => s
  | some c =>
    match c.waitOf st with
    | none => s
    | some w =>
      if w.kind.counted && s.waitOver site slot c w != some true && decide (w.since + (s.tile site).wdog.toNat ≤ s.tick site) then
        s.abortFault site slot { code := .waittmo } (c.pcOf st)
      else s

/-- An engine-placed matrix item has waited WDOG ticks for a positive f: its command fails if f is still 0; else the wait
is over, and it waits for the array alone (R191, R192). -/
def State.arrayExpired (s : State) (site : Nat) : State :=
  let t := s.tile site
  let late (i : MatItem) : Bool := match i.since with
    | some t0 => decide (t0 + t.wdog.toNat ≤ s.tick site)
    | none => false
  match t.items.find? late with
  | none => s
  | some i =>
    match t.cmdOf i.seq with
    | some m =>
      if s.itemFraction site m = 0 then s.failItem site m { code := .waittmo }
      else s.modTile site (fun t => { t with items := t.items.map (fun x =>
        if x.seq = i.seq then { x with since := none } else x) })
    | none => s.dropItem site i.seq

end Sys2Proof.Machine
end

