-- ==== Sys2Proof/Machine/Commit.lean ====
section
/-! DEFINITION. The commit of a finished task of an ordered domain (R266, R267, R271). -/

namespace Sys2Proof.Machine

/-- The PC of the word that buffered an effect. -/
def Effect.pc : Effect → Word
  | .store _ _ pc => pc
  | .atomic _ _ _ pc => pc
  | .alink _ _ pc => pc
  | .rewr _ _ _ _ _ pc => pc
  | .free _ pc => pc
  | .push _ pc => pc
  | .send _ pc => pc
  | .dispatch _ _ _ _ _ _ pc => pc
  | .qfence _ pc => pc

/-- The speculative L1 line of a committed store becomes an ordinary dirty line (R266). -/
def State.settleLine (s : State) (x : Actor) (va : Word) (k : LineKey) (bs : List Byte) : State :=
  match (s.tile x.site).l1find x.sp.asid (va.toNat / 64) with
  | none => s
  | some l =>
    if l.key = k then s.modTile x.site (·.l1put (l.put (va.toNat % 64) bs)) else s.dropOwn x.site l.key

/-- One effect in step 1, with its checks: the pairs it will push. The bytes are performed at the home slices; the tile's
own copies of the line of an atomic or `alink` go (R138, R266). (DEDUCED, log 38.) -/
def State.commitOne (s : State) (x : Actor) (c : Ctx) (e : Effect) : Try (List (Nat × Pair) × State) :=
  match e with
  | .store va bs _ => do
    let (_, k, s) ← s.reach x.sp .store va
    .ok ([], ((s.lineWrite k (va.toNat % 64) bs).settleLine x va k bs).wroteLine x k)
  | .atomic op va b _ => do
    let (k, s) ← (s.dropVA x va).netLine x .atomic va
    .ok ([], (s.atomAt k (va.toNat % 64) op b).2.wroteLine x k)
  | .alink t l _ => do
    let (_, ps, s) ← (s.dropVA x t).alinkAt x t l (c.task.msg.ts + c.task.msg.delta.signExtend 32)
    .ok (ps, s)
  | .rewr w0 a b ts fresh _ => do
    let w ← s.template x w0 a b ts fresh
    .ok w
  | .free ls _ => do
    let s ← ls.foldlM (fun s va => s.freeLine x va) s
    .ok ([], s)
  | .push p _ => do
    let (f, s) ← s.nodeField x p.a
    .ok ([(f, p)], s)
  | .dispatch w0 w1 w2 a b ts _ => do
    let _ ← s.dispatch x w0 w1 w2 a b ts
    .ok ([], s)
  | .send _ _ => .ok ([], s)
  | .qfence _ _ => .ok ([], s)

/-- Step 1 over the effects in program order: what step 2 sends, or the check that failed and its PC. -/
def State.commitAll (s : State) (x : Actor) (c : Ctx) :
    List Effect → Except (Stop × Word) (List (Effect × List (Nat × Pair)) × State)
  | [] => .ok ([], s)
  | e :: r =>
    match s.commitOne x c e with
    | .error k => .error (k, e.pc)
    | .ok (ps, s) =>
      match s.commitAll x c r with
      | .error k => .error k
      | .ok (l, s) => .ok ((e, ps) :: l, s)

/-- One effect in step 2: its pairs, command or messages leave. -/
def State.commitSend (s : State) (x : Actor) (c : Ctx) (e : Effect × List (Nat × Pair)) : State :=
  let s := s.sendPairs e.2
  match e.1 with
  | .send m _ => s.modTile x.site (fun t =>
      { t with cmds := t.cmds ++ [{ m with seq := t.seq, slot := none }], seq := t.seq + 1 })
  | .dispatch w0 w1 w2 a b ts _ =>
    match s.dispatch x w0 w1 w2 a b ts with
    | .ok s => s
    | .error _ => s
  | .qfence mask _ => s.modTile x.site (·.addFence mask c.task.id c.run)
  | _ => s

/-- The finished tasks of a tile but one. -/
def State.dropDone (s : State) (site : Nat) (c : Ctx) : State :=
  s.modTile site (fun t => { t with done := t.done.erase c })

/-- A check of a commit failed: nothing is performed, the task is aborted and parked or held (R148, R252, R291). -/
def State.commitFails (s : State) (x : Actor) (c : Ctx) (t : Trap) (pc : Word) : State :=
  let site := x.site
  ((s.takeBack site c).dropDone site c).afterFault site c.task t pc true

/-- The pairs that operations of the task consumed leave the Folds that keep them (R222). -/
def State.consumeSpent (s : State) (c : Ctx) : State :=
  c.pairs.foldl (fun s h => s.modField h.field (fun f =>
    { f with fold := { f.fold with entries := dropReserved h.pair f.fold.entries } })) s

/-- Frames in the pools of all launches: as many conversions can still take place. -/
def State.framesLeft (s : State) : Nat := (s.launches.map (fun p => p.2.frames.length)).foldl (· + ·) 0

/-- The commit of a finished task that stands at the horizon. A conversion that its checks need is no effect of the task:
it takes place before any effect, and the checks begin anew (R291). (DEDUCED, log 38.) -/
def State.commitFrom (s : State) (site : Nat) (c : Ctx) (fuel : Nat) : Out :=
  let vi := c.task.msg.vi
  let dom := c.task.msg.dom
  let l := c.task.msg.launch
  let sp : Space := { s.spaceOf site with
    vi := vi, asid := ((s.launch? l).map (·.asid)).getD 0, launch := some l, base := some s }
  let x : Actor := { s.actor site c with sp := sp, commit := some c.task.key }
  match s.commitAll x c c.buf with
  | .error (.trap t, pc) => .next (s.commitFails x c t pc)
  | .error (.trapAfter t _, pc) => .next (s.commitFails x c t pc)
  | .error (.fault f, _) => .fault f
  | .error (.refuse r, _) => .refused r
  | .error (.wait _, _) => .next s
  | .error (.goto s', _) =>
    match fuel with
    | 0 => .next s'
    | n + 1 => s'.commitFrom site c n
  | .ok (l, t) =>
    if s.roomFor (l.map Prod.snd).flatten then
      let t := l.foldl (fun t e => t.commitSend x c e) t
      let t := ((t.releaseReaders vi dom c.task.id).dropDone site c).consumeSpent c
      let t := t.modVI vi (fun v => { v with lastCommit := sset dom.toNat c.task.msg.ts v.lastCommit })
      .next ((t.taskEnded c).reband c.task.msg.launch)
    else .next (s.commitFails x c { code := .foldspill, detail := 1 }
      (((l.filter (fun e => !e.2.isEmpty)).getLast?.map (fun e => e.1.pc)).getD c.pc))

/-- The commit, with as many conversions as there are frames. -/
def State.commitTask (s : State) (site : Nat) (c : Ctx) : Out := s.commitFrom site c s.framesLeft

/-- COMMIT: the finished task of the domain that equals the horizon commits (R266). -/
def execCommit (vi dom : Nat) (s : State) : Out :=
  let d := BitVec.ofNat 8 dom
  let all := (s.tiles.map (fun p => (p.2.done.filter (fun c => c.task.inDom vi d)).map (fun c => (p.1, c)))).flatten
  match s.horizon vi d with
  | none => .next s
  | some h =>
    match all.find? (fun p => (p.2.task.msg.ts, some p.2.task.id) == h) with
    | some (site, c) => if dom % 256 = 0 then .next s else s.commitTask site c
    | none => .next s

end Sys2Proof.Machine
end

