-- ==== Sys2Proof/Machine/Drover.lean ====
section
/-! DEFINITION. The Drovers (R302 to R305, R408): grants, loans, recalls, notices, and tokens that `toklend` sent
(R118). -/

namespace Sys2Proof.Machine

/-! ## Grants -/

/-- DROVER_GRANT (R303). -/
def execDroverGrant (field : Nat) (s : State) : Out := .next (s.grant field)

/-! ## Loans (R302, R304) -/

/-- Tokens that open requests of a field still lack, those of tasks under notice too (R115). -/
def State.lacking (s : State) (f : Nat) : Nat :=
  ((s.openRequests f).map (fun p => ((s.holding? p.1 p.2).map (·.want)).getD 0)).foldl (· + ·) 0

/-- Sum of a list of counts by number. -/
def sumCounts (m : Sparse Nat) : Nat := (m.map Prod.snd).foldl (· + ·) 0

/-- Loans on their way to a borrower. -/
def State.loansTo (s : State) (f : Nat) : Nat :=
  (s.mesh.map (fun m => match m with | .loan _ b n => if b = f then n else 0 | _ => 0)).foldl (· + ·) 0

/-- The pool of a field (R302). -/
def Drover.pool (d : Drover) : Nat := d.share - sumCounts d.lent + sumCounts d.borrowed

/-- LOAN_REQUEST (R304): whole multiples of 16, from free tokens that the lender neither needs nor has borrowed, within
the borrower's largest pool once it has back what it lent. (DEDUCED, log 54.) -/
def execLoanRequest (field lender : Nat) (s : State) : Out :=
  if !adjacentFields field lender || decide (Config.fields ≤ field) || decide (Config.fields ≤ lender) then .next s
  else
    let b := (s.field field).drover
    let l := (s.field lender).drover
    let short := s.lacking field - (b.free + s.loansTo field)
    let can := Nat.min (l.free - s.lacking lender) (l.share - sumCounts l.lent)
    let room := Config.poolMax - (b.share + sumCounts b.borrowed + s.loansTo field)
    let n := Nat.min ((short + 15) / 16) (Nat.min (can / 16) (room / 16)) * 16
    if n = 0 then .next s
    else
      let s := s.modField lender (fun x => ({ x with drover := { x.drover with
        free := x.drover.free - n, lent := sset field (sget 0 field x.drover.lent + n) x.drover.lent } } : Field).count 3 1)
      .next { s with mesh := s.mesh ++ [.loan lender field n] }

/-- The tokens of recalls to a lender that a Drover still owes. -/
def Drover.asked (d : Drover) (lender : Nat) : Nat :=
  ((d.recalls.filter (fun r => r.lender == lender)).map (·.n)).foldl (· + ·) 0

/-- A field gives back what it borrowed and nobody recalled, from free tokens that no open request lacks (R338). The spec
does not say when: at the end of a launch, and when a loan finds no open request. (DESIGN CHOICE, log 87.) -/
def State.repay (s : State) (f : Nat) : State :=
  (s.field f).drover.borrowed.foldl (fun s p =>
    let d := (s.field f).drover
    let k := Nat.min (p.2 - d.asked p.1) (d.free - s.lacking f)
    if k = 0 then s
    else
      let s := s.modField f (fun x => { x with drover := { x.drover with
        free := x.drover.free - k, borrowed := sset p.1 (sget 0 p.1 x.drover.borrowed - k) x.drover.borrowed } })
      s.modField p.1 (fun x => { x with drover := { x.drover with
        free := x.drover.free + k, lent := sset f (sget 0 f x.drover.lent - k) x.drover.lent } })) s

/-- LOAN_COMPLETE (R304): the loan joins the borrower's free tokens and serves its open requests. -/
def execLoanComplete (idx : Nat) (s : State) : Out :=
  match s.mesh[idx]? with
  | some (.loan l b n) =>
    let s := { s with mesh := s.mesh.eraseIdx idx }
    let s := s.modField b (fun x => ({ x with drover := { x.drover with
      free := x.drover.free + n, borrowed := sset l (sget 0 l x.drover.borrowed + n) x.drover.borrowed } } : Field).count 2 1)
    .next (if s.lacking b = 0 then s.repay b else s.grant b)
  | _ => .next s

/-- LOAN_RECALL (R304): what the lender's open requests lack, as far as this borrower owes it; the borrower pays from
its free tokens at once and owes the rest until notices end. How much a recall takes is not stated. (DESIGN CHOICE, log 120.) -/
def execLoanRecall (lender borrower : Nat) (s : State) : Out :=
  let l := (s.field lender).drover
  let b := (s.field borrower).drover
  let n := Nat.min (s.lacking lender - l.free) (sget 0 lender b.borrowed - b.asked lender)
  if n = 0 then .next s
  else
    let s := s.modField borrower (fun x => { x with drover := { x.drover with
      free := x.drover.free - Nat.min n b.free, recalls := x.drover.recalls ++ [⟨lender, n⟩] } })
    .next (s.gainTokens borrower (Nat.min n b.free))

/-! ## Revocation (R305) -/

/-- The tokens of a holding that a field's pool counts (R305). -/
def Holding.countedIn (h : Holding) (site f : Nat) : Nat :=
  (if siteField site = f then h.own else 0) +
    ((h.loans.filter (fun l => l.field == f)).map (·.n)).foldl (· + ·) 0

/-- Tokens under notice to a field for a debt of its own. -/
def State.underNotice (s : State) (f : Nat) (debt : Bool) : Nat :=
  (s.holdings.map (fun p => match s.holding? p.1 p.2 with
    | some h => if h.by_ = f ∧ (h.why != .request) = debt then h.notice else 0
    | none => 0)).foldl (· + ·) 0

/-- What a Drover owes to recalls and cuts, beyond what is under notice for them. -/
def State.debt (s : State) (f : Nat) : Nat :=
  let d := (s.field f).drover
  d.owes - s.underNotice f true

/-- How far an interface is above its cap, beyond what is under notice. (DEDUCED, log 77.) -/
def State.aboveCap (s : State) (vi : Nat) : Nat :=
  let noticed := (s.holdings.map (fun p => if s.holdVI p.1 = some vi then
    ((s.holding? p.1 p.2).map (·.notice)).getD 0 else 0)).foldl (· + ·) 0
  s.viTokens vi - (s.vi vi).tokcap - noticed

/-- The holdings a revocation takes from: of those with tokens it may still take, the lowest priority, and of those the
largest, measured by the tokens that this Drover's pool counts. (DESIGN CHOICE, log 121.) -/
def State.targets (s : State) (f : Nat) (l : List (Nat × Nat)) : List (Nat × Nat) :=
  let size (p : Nat × Nat) : Nat := ((s.holding? p.1 p.2).map (·.countedIn p.1 f)).getD 0
  let more (p : Nat × Nat) : Bool := match s.holding? p.1 p.2 with
    | some h => h.countedIn p.1 f != (if h.by_ = f then h.notice else 0)
    | none => false
  let l := l.filter more
  let low := l.foldl (fun m p => Nat.min m (s.holdPrio p.1 p.2)) (2 ^ 8)
  let l := l.filter (fun p => s.holdPrio p.1 p.2 == low)
  let big := l.foldl (fun m p => Nat.max m (size p)) 0
  l.filter (fun p => size p == big)

/-- Put `n` tokens of a holding under notice for field `f`. -/
def State.giveNotice (s : State) (f site slot n : Nat) (why : RevokeFor) : State :=
  match s.holding? site slot with
  | none => s
  | some h =>
    let s := s.setHolding site slot { h with notice := n, left := 2048, why := why, by_ := f }
    let mine (a : ArrayItem) : Bool := if slot = 4 then a.eng else a.slot == some slot && !a.eng
    let s := s.modTile site (fun t => { t with array := t.array.map (fun a => if mine a then { a with pre := true } else a) })
    s.modField f (·.count 4 1)

/-- Revoke up to `n` tokens from a holding that is among the targets; one under notice makes the revocation wait. -/
def State.revoke (s : State) (f : Nat) (l : List (Nat × Nat)) (site slot n : Nat) (why : RevokeFor) : State :=
  match s.holding? site slot with
  | none => s
  | some h =>
    let k := Nat.min n (h.countedIn site f)
    if (s.targets f l).contains (site, slot) && h.notice == 0 && k != 0 then s.giveNotice f site slot k why else s

/-- REVOCATION (R305): for recalls and cuts of the share, else for an interface above its cap. It takes at most `n`. -/
def execRevocation (field site slot n : Nat) (s : State) : Out :=
  let d := (s.field field).drover
  if s.debt field != 0 then
    let why := match d.recalls.head? with
      | some r => if d.cutDebt = 0 then RevokeFor.recall r.lender else .cut
      | none => .cut
    .next (s.revoke field s.holdings site slot (Nat.min n (s.debt field)) why)
  else match s.holdVI site with
    | some v => .next (s.revoke field (s.holdings.filter (fun p => s.holdVI p.1 == some v)) site slot
        (Nat.min n (s.aboveCap v)) .request)
    | none => .next s

/-- What the open requests of a field lack up to and including this one, in the order in which R303 fills them. (DEDUCED, log 106.) -/
def State.lackingTo (s : State) (f : Nat) (p : Nat × Nat) : Nat :=
  let l := s.openRequests f
  ((l.takeWhile (· != p) ++ [p]).map (fun q => s.wantOf q.1 q.2)).foldl (· + ·) 0

/-- OPEN_REQUEST_TIMEOUT (R305): 1 µs is 100 ref ticks. It revokes from tasks of lower priority only, what neither free
tokens nor running notices will give to this request after those that R303 fills before it; which of equal targets is a
choice (log 2). -/
def execOpenRequestTimeout (site slot : Nat) (s : State) : Out :=
  match s.holding? site slot with
  | none => .next s
  | some h =>
    if !h.isOpen || decide (s.refTicks < h.since + 100) then .next s
    else
      let f := siteField site
      let p := s.holdPrio site slot
      let need_ := Nat.min h.want (s.lackingTo f (site, slot) - (s.underNotice f false + (s.field f).drover.free))
      let l := s.holdings.filter (fun q => decide (s.holdPrio q.1 q.2 < p))
      let ts := s.targets f l
      if ts.isEmpty || need_ == 0 then .next s
      else
        let k := s.choose ts.length
        let q := (ts[k.1]?).getD (site, slot)
        .next (k.2.revoke f l q.1 q.2 need_ .request)

/-- NOTICE_END (R305): LEFT is 0 and the items issued before the notice have retired. -/
def execNoticeEnd (site slot : Nat) (s : State) : Out :=
  match s.holding? site slot with
  | none => .next s
  | some h =>
    let mine (a : ArrayItem) : Bool := a.pre && (if slot = 4 then a.eng else a.slot == some slot && !a.eng)
    let waits := match (s.tile site).array with
      | some a => mine a
      | none => false
    if h.notice == 0 || h.left != 0 || waits then .next s
    else
      let (h', own, ls) := h.takeNotice (siteField site) h.notice
      .next ((s.setHolding site slot h').noticeBack site own ls)

/-- LENT_TOKENS_ARRIVE (R118): they raise the borrower's HELD within 128, the others go to the lender's Drover; so do
all when the borrower has ended, unless the lender still runs. -/
def execLentTokensArrive (idx : Nat) (s : State) : Out :=
  match s.mesh[idx]? with
  | some (.tokens site task loan) =>
    let s := { s with mesh := s.mesh.eraseIdx idx }
    match (s.tile site).slotOf task with
    | none => .next (s.returnLoan loan)
    | some slot =>
      let n := Nat.min loan.n (s.tileRoom site)
      let s := if n = 0 then s
        else s.modCtx site slot (fun c => { c with tok := { c.tok with loans := c.tok.loans ++ [{ loan with n := n }] } })
      .next (if n = loan.n then s else s.gainTokens loan.field (loan.n - n))
  | _ => .next s

/-! ## Base shares (R302, R305, R408) -/

/-- The largest base share that a field may have: with what it has borrowed at most 3,072, with the other shares at most
196,608 (R302). -/
def State.shareMax (s : State) (f : Nat) : Nat :=
  let others := (((List.range Config.fields).filter (· != f)).map (fun g => (s.field g).drover.share)).foldl (· + ·) 0
  Nat.min (Config.poolMax - (sumCounts (s.field f).drover.borrowed + s.loansTo f)) (Config.tokenBudget - others)

/-- A field's base share takes a new value, at most `shareMax` (DESIGN CHOICE, log 86): a shortfall comes from free
tokens, then by revocation; a rise first settles what a cut still takes. -/
def State.setShare (s : State) (f new : Nat) : State :=
  let new := Nat.min new (s.shareMax f)
  s.modField f (fun x =>
    let d := x.drover
    if new < d.share then
      let short := d.share - new
      { x with drover := { d with share := new, free := d.free - Nat.min short d.free,
                                  cutDebt := d.cutDebt + (short - Nat.min short d.free) } }
    else
      let more := new - d.share
      { x with drover := { d with share := new, cutDebt := d.cutDebt - Nat.min more d.cutDebt,
                                  free := d.free + (more - Nat.min more d.cutDebt) } })

/-- POWER_LIMIT_CUT (R408). -/
def execPowerLimitCut (s : State) : Out :=
  .next ((List.range Config.fields).foldl (fun s f =>
    s.setShare f ((s.field f).drover.share - (s.field f).drover.share / 8)) s)

end Sys2Proof.Machine
end

