-- ==== Sys2Proof/Machine/Place.lean ====
section
/-! DEFINITION. Fields and tiles of a launch: loading and release of tiles (R26, R249, R357), which fields and tiles are
free, the placement of cells (R357), and reservations (R288). -/

namespace Sys2Proof.Machine

/-! ## Tiles -/

/-- A tile that no launch holds: what firmware set, its counters and finished tasks stay. -/
def Tile.vacant (t : Tile) : Tile where
  named := t.named
  name := t.name
  status := t.status
  leaving := t.leaving
  was := t.was
  tlate := t.tlate
  cntOvf := t.cntOvf
  cntEn := t.cntEn
  cntSel := t.cntSel
  cnt := t.cnt
  stopped := t.stopped
  owed := t.owed
  seq := t.seq
  runs := t.runs
  done := t.done

/-- A launch releases a tile: the L1 is written back, and the tile is cleared in 4,096 ticks (R357). -/
def State.release (s : State) (site : Nat) : State :=
  let s := ((s.emptyL1 site).endHolding site (s.tile site).eng)
  s.modTile site (fun t => { t.vacant with clearing := some 4096 })

/-- TILE_CLEAR (R357). -/
def execTileClear (site : Nat) (s : State) : Out :=
  .next (if (s.tile site).clearing = some 0 then s.modTile site (fun t => { t with clearing := none }) else s)

/-- A launch takes a tile: its registers are loaded (R249), and it starts with nothing selected (R259). -/
def Tile.load (t : Tile) (site id : Nat) (l : Launch) : Tile :=
  let pw : BitVec 32 := fld (l.word 3) 0 32
  let wdg : BitVec 32 := fld (l.word 3) 32 32
  { t.vacant with
    launch := some id
    l1sz := fld (l.word 0) 34 2
    wd := l.wd
    ruleb := l.word 4
    bandsh := fld (l.word 0) 29 5
    prewin := if pw = 0 then 0x100000 else pw
    wdog := if wdg = 0 then 0x4000000 else wdg
    handlers := vget [] l.tables (siteClass site).code }

/-- The sites of a field, in the order (cluster, tile index). -/
def fieldSites (f : Nat) : List Nat := (List.range 64).map (fun i => 64 * f + i)

/-- May the Launch Unit grant the tile: named, good, and not being retired (R388, R413)? (DEDUCED, log 51.) -/
def Tile.grantable (t : Tile) : Bool := t.named && t.status == 0 && t.leaving.isNone

/-- Is the tile idle and cleared (R357)? -/
def Tile.free (t : Tile) : Bool := t.launch.isNone && t.clearing.isNone

/-- Is the field in an interface's partition (R351)? -/
def VI.ownsField (v : VI) (f : Nat) : Bool := v.fmask.getLsbD f

/-- Good, named tiles of a class in a field. -/
def State.goodTiles (s : State) (f : Nat) (c : TileClass) : Nat :=
  ((fieldSites f).filter (fun x => siteClass x == c && (s.tile x).named && (s.tile x).status == 0)).length

/-- Is a field in grade by its tiles and slices (R8, R416)? (DEDUCED, log 66.) -/
def State.meetsGrade (s : State) (f : Nat) : Bool :=
  decide (22 ≤ s.goodTiles f .dt) && decide (11 ≤ s.goodTiles f .st) && decide (11 ≤ s.goodTiles f .at) &&
  decide (15 ≤ s.goodTiles f .vt) && (s.field f).live != 0

/-- Is a field free for a launch: in grade, not suspect, its tiles idle and cleared (R357, R416, R418)? Until the module
is up no field has a grade. -/
def State.fieldFree (s : State) (f : Nat) : Bool :=
  decide (f < Config.fields) && (s.field f).inGrade && (s.bootStage != 2 || s.meetsGrade f) && !(s.field f).suspect &&
  (fieldSites f).all (fun x => !(s.tile x).grantable || (s.tile x).free)

/-! ## Reservations (R288) -/

/-- May an ASID have `u` units in a field: at most 1,536 over all ASIDs? -/
def State.canReserve (s : State) (f asid u : Nat) : Bool :=
  let others := ((s.field f).reserve.filter (·.asid != asid)).map (fun r => s.units f r.asid)
  decide (others.foldl (· + ·) 0 + Nat.max u (s.units f asid) ≤ 1536)

/-- UNB of a launch (R355). -/
def Launch.unb (l : Launch) : Nat := (fld (l.word 10) 48 11).toNat

/-- A launch raises its ASID's reservation in a field. -/
def State.reserveFor (s : State) (id : Nat) (l : Launch) (f : Nat) : State :=
  s.modField f (fun g =>
    let r := g.reserveOf l.asid
    g.setReserve { r with launch := sset id l.unb r.launch })

/-- A launch no longer raises a reservation. -/
def State.unreserveFor (s : State) (id : Nat) (l : Launch) (f : Nat) : State :=
  s.modField f (fun g =>
    let r := g.reserveOf l.asid
    g.setReserve { r with launch := sdel id r.launch })

/-! ## Placement (R357, R414) -/

/-- SCHAN of a launch. -/
def Launch.schan (l : Launch) : Nat := (fld (l.word 0) 23 6).toNat

/-- Has the class of a site a handler at the start channel? -/
def Launch.starts (l : Launch) (site : Nat) : Bool :=
  let h := sget (Vector.replicate 4 (0 : Word)) l.schan (vget [] l.tables (siteClass site).code)
  vget 0 h 0 != 0

/-- The cells that field `j` of a grant of `nf` fields receives. -/
def cellsOf (n nf j : Nat) : List Nat := (List.range n).filter (fun k => k * nf / n == j)

/-- Spread the cells of a launch over a grant in increasing field number; `ok` says which tiles may take one. -/
def placeCells (l : Launch) (grant : List Nat) (ok : Nat → Bool) : Option (Sparse Nat) :=
  let n := l.gw * l.gh
  if 64 * grant.length < n then none
  else
    grant.zipIdx.foldl (fun acc p =>
      match acc with
      | none => none
      | some m =>
        let cs := cellsOf n grant.length p.2
        let ts := (fieldSites p.1).filter (fun x => ok x && l.starts x)
        if cs.length ≤ ts.length then some (m ++ cs.zip ts) else none) (some [])

/-- Is the tile the launch's, on it or saved while the launch is pre-empted (R276)? -/
def State.ofLaunch (s : State) (id site : Nat) : Bool :=
  (s.tile site).launch == some id || s.images.any (fun i => i.site == site && i.launch == id && i.away)

/-- Give the cell of a tile that leaves a free tile of its class: in the same field first, lowest (cluster, tile index)
first (R414). -/
def State.patchCell (s : State) (id : Nat) (l : Launch) (site : Nat) : Option (Sparse Nat) :=
  match l.cells.find? (fun p => p.2 == site) with
  | none => some l.cells
  | some (k, _) =>
    let ok (x : Nat) : Bool := s.ofLaunch id x && (s.tile x).grantable && siteClass x == siteClass site && !l.holdsCell x
    let near := (fieldSites (siteField site)).filter ok
    let far := (l.fields.map (fun f => (fieldSites f).filter ok)).flatten
    match (near ++ far).head? with
    | some x => some (sset k x l.cells)
    | none => none

end Sys2Proof.Machine
end

