-- ==== Sys2Proof/Machine/Grade.lean ====
section
/-! DEFINITION. Entries of the wear log (R411) and the grade (R416). -/

namespace Sys2Proof.Machine

/-- The tile instance of a site (R395). -/
def instOf (site : Nat) : Nat := 80 * (siteXY site).2 + (siteXY site).1

/-- Entries of one chain of the wear log (R411). -/
def wearChainMax : Nat := 65536

/-- Where entry `n` of the wear log lies in flash (R396, R411); those of the second chain follow in the second half of
the region. -/
def wearAt (n : Nat) : Nat := 0x2010000 + 128 * n

/-- Power-on hours since manufacture (R411): an hour is 3.6e11 ref ticks. -/
def State.powerHours (s : State) : Nat := s.sec.hours + s.refTicks / 360000000000

/-- Residual life of a field after some hours (R412). -/
def Field.life (g : Field) (hours : Nat) : Nat := hours * (g.ceil - g.add) / g.add

/-- The value of a residual-life estimate (R412): the least life of the fields with ADD > 0, and the field that has it.
(DESIGN CHOICE, log 34.) -/
def State.lifeValue (s : State) : List Byte :=
  let worn := (List.range Config.fields).filter (fun f => (s.field f).add != 0)
  let worst := worn.foldl (fun m f =>
    let x := (s.field f).life s.powerHours
    match m with
    | none => some (x, f)
    | some b => if x < b.1 then some (x, f) else some b) none
  let v := worst.getD (0xFFFFFFFF, 0xFFFF)
  leBytes 8 v.1 ++ leBytes 2 v.2

/-- Write the next entry of the wear log (R411): kind, field, site or slice, value. Each chain counts from 0, and the second
has the last signature of the first as its base; what follows when that is full too is not stated: nothing is written
(DESIGN CHOICE, log 95). -/
def State.wearEntry (s : State) (kind field site : Nat) (value : List Byte) : State :=
  let n := s.sec.wear
  if 2 * wearChainMax ≤ n then s
  else
    let body := leBytes 8 (n % wearChainMax) ++ wordBytes (BitVec.ofNat 24 s.powerHours ++ fld s.gtime 0 40) ++
      leBytes 2 kind ++ leBytes 2 field ++ leBytes 4 site ++ (value ++ List.replicate 40 0).take 40
    let prev := if n = 0 then List.replicate 64 0 else s.flash.readN (wearAt (n - 1) + 64) 64
    let sig := leBytes 64 (Config.identitySign (body ++ prev)).toNat
    { s with flash := s.flash.writeN (wearAt n) (body ++ sig), sec := { s.sec with wear := n + 1 } }

/-- Append an entry; the second chain begins with a kind-9 summary (R411). -/
def State.wearLog (s : State) (kind field site : Nat) (value : List Byte) : State :=
  let s := if s.sec.wear = wearChainMax then s.wearEntry 9 0xFFFF 0 s.lifeValue else s
  s.wearEntry kind field site value

/-- Append a residual-life estimate (R412). -/
def State.lifeEstimate (s : State) : State := s.wearLog 9 0xFFFF 0 s.lifeValue

/-- The grade: the fields in grade since boot (R416). -/
def State.gradeNow (s : State) : Nat := ((List.range Config.fields).filter (fun f => (s.field f).inGrade)).length

/-- A field falls out of grade for good, and the wear log says so (R416). -/
def State.fallOut (s : State) (f : Nat) : State :=
  if (s.field f).inGrade then
    let s := s.modField f (fun g => { g with inGrade := false })
    s.wearLog 4 f 0 (leBytes 8 s.gradeNow)
  else s

/-- Settle whether a field is still in grade; once out of it, it does not come back while the module is powered. Until the
module is up no field has a grade. (DEDUCED, log 32.) -/
def State.settleField (s : State) (f : Nat) : State :=
  if s.bootStage != 2 || s.meetsGrade f then s else s.fallOut f

/-- At boot: the fields out of grade leave every FMASK (R416). -/
def State.bootGrade (s : State) : State :=
  let out := (List.range Config.fields).filter (fun f => !s.meetsGrade f)
  let mask : BitVec 84 := out.foldl (fun m f => m ||| BitVec.twoPow 84 f) 0
  let s := out.foldl (fun s f => s.modField f (fun g => { g with inGrade := false })) s
  { s with vis := s.vis.map (fun p => (p.1, { p.2 with fmask := p.2.fmask &&& ~~~mask })) }

/-- Settle the grade of every field. -/
def State.settleGrades (s : State) : State := (List.range Config.fields).foldl State.settleField s

/-- A retiring tile, once no launch holds it and none is to come back to it: its name goes, from every router too, and the
wear log has its STATE before (R400, R411, R413). (DESIGN CHOICE, log 22.) -/
def State.retired (s : State) (site : Nat) : State :=
  let t := s.tile site
  if t.leaving.isNone || t.launch.isSome || s.images.any (fun i => i.site == site && i.away) then s
  else
    let s := s.modTile site (fun t => { t with named := false, leaving := none, status := 2 })
    let s := { s with fields := s.fields.map (fun (p : Nat × Field) =>
      (p.1, { p.2 with names := if t.named then p.2.names.filter (fun n => n.name != t.name) else p.2.names })) }
    s.wearLog 2 (siteField site) (instOf site) (leBytes 8 t.was.toNat)

end Sys2Proof.Machine
end

