-- ==== Sys2Proof/Machine/Launch.lean ====
section
/-! DEFINITION. Launch queues and their life (R352 to R365): windows, validation, handles (R328), start (R249, R356,
R357), release and cancel (R362), completion (R363, R364). -/

namespace Sys2Proof.Machine

/-! ## Queues -/

/-- A launch queue of an interface. -/
def VI.queue (v : VI) (q : Nat) : Queue := sget {} q v.queues
/-- Change a queue. -/
def State.modQueue (s : State) (vi q : Nat) (g : Queue → Queue) : State :=
  s.modVI vi (fun v => { v with queues := sset q (g (v.queue q)) v.queues })

/-- QFREE (R352). -/
def Queue.free (q : Queue) : Nat := 64 - (q.recs.filter (!·.gone)).length

/-- A record enters a queue and takes its QSEQ (R353). -/
def Queue.enqueue (q : Queue) (ws : List Word) : Queue :=
  { q with recs := q.recs ++ [{ seq := q.qseq, words := ws }], qseq := q.qseq + 1 }

/-- WINDOW_SLOT_STORE (R353, R354): a doubleword of a slot. While a slot's final store waits, stores to it wait too. -/
def execWindowSlotStore (vi queue slot : Nat) (off : BitVec 8) (val : BitVec 64) (s : State) : Out :=
  let q := (s.vi vi).queue queue
  if !q.en then .next (s.modVI vi (·.violate (windowAddr vi queue slot off.toNat) 1 queue))
  else if off.toNat % 8 ≠ 0 then .next (s.modVI vi (·.violate (windowAddr vi queue slot off.toNat) 1 queue))
  else if (sget? (32 * slot + 31) q.slots).isSome then .next s
  else .next (s.modQueue vi queue (fun q => { q with slots := sset (32 * slot + off.toNat / 8) val q.slots }))

/-- RECORD_ENQUEUE (R353, R354): the slot's final store is accepted once an entry is free. -/
def execRecordEnqueue (vi queue slot : Nat) (s : State) : Out :=
  let q := (s.vi vi).queue queue
  if (sget? (32 * slot + 31) q.slots).isSome && decide (0 < q.free) then
    let ws := (List.range 32).map (fun k => sget 0 (32 * slot + k) q.slots)
    .next (s.modQueue vi queue (fun q => { (q.enqueue ws) with slots := q.slots.filter (fun p => p.1 / 32 != slot) }))
  else .next s

/-! ## Completion records (R363, R364) -/

/-- The words of a completion record but PH. -/
structure Result where
  status : BitVec 8
  verd   : BitVec 2
  detail : BitVec 32
  start  : Word := 0
  tasks  : BitVec 32 := 0
  aborts : BitVec 32 := 0
  left   : Nat := 0
  fields : Nat := 0

/-- The completion record of a launch record. -/
def Result.words (r : Result) (queue : Nat) (seq : BitVec 32) (rec_ : List Word) (now : Word) : List Word :=
  [ r.status ++ r.verd ++ 0#6 ++ BitVec.ofNat 5 queue ++ 0#11 ++ seq, wordAt rec_ 18, r.start, now,
    r.detail ++ r.tasks, BitVec.ofNat 32 r.left ++ r.aborts, BitVec.ofNat 64 (r.fields % 256), 0 ]

/-- QSEQ of a completion that waits. -/
def pendSeq (p : List Word × Bool) : BitVec 32 := (wordAt p.1 0).setWidth 32

/-- Put a completion behind those of earlier launches that wait (R363). -/
def Queue.pend (q : Queue) (ws : List Word) (irq : Bool) : Queue :=
  { q with pending := linsert (fun a b => !ts32lt (pendSeq b) (pendSeq a)) (ws, irq) q.pending }

/-- Bytes of a device's write at a VA, performed in HBM; a page without a translation takes nothing (R352). (DEDUCED, log 49.) -/
def State.ringWrite (s : State) (vi asid : Nat) (va : Word) (ws : List Word) : State :=
  match s.reach { cluster := none, vi := vi, asid := asid } .store va with
  | .ok (_, .pa n, s) => s.hbmWrite (64 * n + va.toNat % 64) (wordsBytes ws)
  | .ok (_, .unb _ _, s) => s
  | .error _ => s

/-- Set PH, bit 63 of the last word, by the pass of a ring entry (R364, R379). -/
def withPhase (ws : List Word) (tail log : Nat) : List Word :=
  ws.take 7 ++ [if tail / 2 ^ log % 2 = 0 then wordAt ws 7 ||| 0x8000000000000000 else wordAt ws 7]

/-- Write waiting completions while the ring has room (R363). -/
def State.flushQueue (s : State) (vi queue : Nat) : Nat → State
  | 0 => s
  | n + 1 =>
    let q := (s.vi vi).queue queue
    match q.pending with
    | [] => s
    | (ws, irq) :: r =>
      if (q.cqtail - q.cqhead).toNat < 2 ^ q.cqlog.toNat then
        let t := q.cqtail.toNat
        let va := q.cqbase.setWidth 64 + BitVec.ofNat 64 (64 * (t % 2 ^ q.cqlog.toNat))
        let s := s.ringWrite vi q.asid.toNat va (withPhase ws t q.cqlog.toNat)
        let s := s.modQueue vi queue (fun q => { q with cqtail := q.cqtail + 1, pending := r })
        let s := if irq then s.modVI vi (fun v => { v with irqs := v.irqs ++ [q.ivec] }) else s
        s.flushQueue vi queue n
      else s

/-- A completion enters its queue's ring, or waits for room. -/
def State.complete (s : State) (vi queue : Nat) (seq : BitVec 32) (rec_ : List Word) (r : Result) : State :=
  let ws := r.words queue seq rec_ s.gtime
  let s := s.modQueue vi queue (·.pend ws ((wordAt rec_ 0).getLsbD 37))
  s.flushQueue vi queue ((s.vi vi).queue queue).pending.length

/-- The handles a record names: number, reads, writes, and the mark H (R328). -/
def recordHandles (ws : List Word) : List (Nat × Bool × Bool × Bool) :=
  (List.range 16).filterMap (fun n =>
    let e := fld (wordAt ws (19 + n / 4)) (16 * (n % 4)) 16
    let m := (fld e 14 2).toNat
    if m = 0 then none else some ((fld e 0 12).toNat, m != 2, decide (2 ≤ m), e.getLsbD 13))

/-- A handle of an interface. -/
def VI.handle (v : VI) (h : Nat) : Handle := sget {} h v.handles

/-- A launch that never started is the last writer of the handles it writes, tainted (R359, R362): at once, or when the
earlier writer that still runs completes. -/
def VI.taintHandles (v : VI) (ws : List Word) : VI :=
  (recordHandles ws).foldl (fun v h =>
    if h.2.2.1 then
      let old := v.handle h.1
      { v with handles := sset h.1 (if old.writer.isSome then { old with next := true } else { old with tainted := true }) v.handles }
    else v) v

/-- Records that never started leave the head of their queue, each now a tainted predecessor of all behind it (R359,
R362). -/
def State.dropGone (s : State) (vi queue : Nat) : List QRec → State
  | [] => s.modQueue vi queue (fun q => { q with recs := [] })
  | r :: rs =>
    if r.gone then
      ((s.modQueue vi queue (fun q => { q with tainted := true })).modVI vi (·.taintHandles r.words)).dropGone vi queue rs
    else s.modQueue vi queue (fun q => { q with recs := r :: rs })

/-- Settle the head of a queue. -/
def State.settleHead (s : State) (vi queue : Nat) : State := s.dropGone vi queue ((s.vi vi).queue queue).recs

/-- A record that never starts completes with a STATUS and DETAIL, tainted. -/
def State.completeRecord (s : State) (vi queue : Nat) (r : QRec) (status : BitVec 8) (detail : BitVec 32) : State :=
  let s := s.modQueue vi queue (fun q => { q with
    recs := q.recs.map (fun x => if x.seq = r.seq then { x with gone := true } else x) })
  (s.settleHead vi queue).complete vi queue r.seq r.words { status := status, verd := 2, detail := detail }

/-- CQHEAD_WRITE (R363). -/
def execCqheadWrite (vi queue : Nat) (val : BitVec 32) (s : State) : Out :=
  let s := s.modQueue vi queue (fun q => { q with cqhead := val })
  .next (s.flushQueue vi queue ((s.vi vi).queue queue).pending.length)

/-! ## Validation (R355) -/

/-- Is word `k` of a record faulty? (DEDUCED, log 47.) -/
def recordWordBad (ws : List Word) (k : Nat) : Bool :=
  let w := wordAt ws k
  let high (n : Nat) : Bool := w.toNat / 2 ^ n != 0
  match k with
  | 0 => fld w 56 8 != 1 || decide (11 < (fld w 44 4).toNat) || w.getLsbD 43 || w.getLsbD 36 || fld w 0 23 != 0
  | 1 => fld w 48 16 != 0 || fld w 32 16 == 0 || fld w 16 16 == 0 || fld w 0 8 == 0 ||
      decide (84 < (fld w 0 8).toNat) || decide ((fld w 8 8).toNat < (fld w 0 8).toNat) || decide (84 < (fld w 8 8).toNat)
  | 2 => high 32 || fld w 11 5 != 0 || fld w 4 2 != 0 || fld w 22 2 != 0
  | 4 => high 57 || decide (14 < (fld w 0 5).toNat)
  | 5 => high 57
  | 6 => high 32
  | 7 => high 57 || fld w 0 6 != 0
  | 8 => high 57
  | 9 => high 57
  | 10 => high 59 || decide (1536 < (fld w 48 11).toNat)
  | 11 => high 57
  | 12 => high 57
  | 13 => high 32
  | 14 => high 57
  | 15 => high 32
  | 16 => high 57
  | 17 => high 32
  | 19 => w.getLsbD 12 || w.getLsbD 28 || w.getLsbD 44 || w.getLsbD 60
  | 20 => w.getLsbD 12 || w.getLsbD 28 || w.getLsbD 44 || w.getLsbD 60
  | 21 => w.getLsbD 12 || w.getLsbD 28 || w.getLsbD 44 || w.getLsbD 60
  | 22 => w.getLsbD 12 || w.getLsbD 28 || w.getLsbD 44 || w.getLsbD 60
  | 3 => false
  | 18 => false
  | _ => w != 0

/-- The first faulty doubleword of a record. -/
def firstBad (ws : List Word) : Option Nat := (List.range 32).find? (recordWordBad ws)

/-- The address space of an interface's queue, as the Launch Unit uses it. -/
def luSpace (vi asid : Nat) : Space := { cluster := none, vi := vi, asid := asid }

/-- `n` doublewords at a VA, read by the Launch Unit. -/
def State.luWords (s : State) (sp : Space) (va : Word) : Nat → Try (List Word × State)
  | 0 => .ok ([], s)
  | n + 1 => do
    let (w, s) ← s.homeWord sp va
    let (r, s) ← s.luWords sp (va + 8) n
    .ok (w :: r, s)

/-- The four handler tables of a record (R38, R355): a table lists its channels with a handler. -/
def State.luTables (s : State) (sp : Space) (va : Word) : Try (Vector (Sparse (Vector Word 4)) 4 × State) := do
  let (ws, s) ← s.luWords sp va 1024
  let entry (c k : Nat) : Vector Word 4 := Vector.ofFn (fun i : Fin 4 => wordAt ws (256 * c + 4 * k + i.val))
  .ok (Vector.ofFn (fun c : Fin 4 => ((List.range 64).map (fun k => (k, entry c.val k))).filter
    (fun p => p.2 != Vector.replicate 4 0)), s)

/-- Does a handler list set a priority of 12 to 15 (R38)? -/
def tablesBad (t : Vector (Sparse (Vector Word 4)) 4) : Bool :=
  t.toList.any (fun c => c.any (fun p => decide (11 < (fld (vget 0 p.2 1) 0 4).toNat)))

/-- What the Launch Unit's reads of a record's lists come to: a translation fault is the launch's own (R364). -/
def stopTrap : Stop → Option Trap
  | .trap t => some t
  | .trapAfter t _ => some t
  | _ => none

/-- RECORD_VALIDATION (R355): the record at the head of its queue. A handler list with a bad priority faults in word
7. -/
def execRecordValidation (vi queue : Nat) (s : State) : Out :=
  let q := (s.vi vi).queue queue
  match q.recs with
  | [] => .next s
  | r :: _ =>
    if r.valid then .next s
    else match firstBad r.words with
      | some k => .next (s.completeRecord vi queue r 0x01 (BitVec.ofNat 32 k))
      | none =>
        match s.luTables (luSpace vi q.asid.toNat) (wordAt r.words 7) with
        | .ok (t, s) =>
          if tablesBad t then .next (s.completeRecord vi queue r 0x01 7)
          else .next (s.modQueue vi queue (fun q => { q with
            recs := q.recs.map (fun x => if x.seq = r.seq then { x with valid := true } else x) }))
        | .error e =>
          match stopTrap e with
          | some t => .next (s.completeRecord vi queue r t.code.num (t.detail.setWidth 32))
          | none => .next s

/-! ## Handles (R328) -/

/-- Are the dependencies of a record met: its handles (R328), and with BAR all earlier launches of its queue completed and
written (R358, R366)? -/
def State.depsMet (s : State) (vi queue : Nat) (r : QRec) : Bool :=
  let v := s.vi vi
  (recordHandles r.words).all (fun h => (v.handle h.1).writer.isNone && (!h.2.2.1 || (v.handle h.1).readers.isEmpty)) &&
  (!(wordAt r.words 0).getLsbD 39 ||
    (s.launches.all (fun p => p.2.vi != vi || p.2.queue != queue) &&
      (v.queue queue).pending.all (fun p => !ts32lt (pendSeq p) r.seq)))

/-- Has a predecessor of a record completed tainted (R359)? -/
def State.predTainted (s : State) (vi queue : Nat) (r : QRec) : Bool :=
  let v := s.vi vi
  (recordHandles r.words).any (fun h => (v.handle h.1).tainted) ||
  ((wordAt r.words 0).getLsbD 39 && (v.queue queue).tainted)

/-- Is the record at the head of its queue held (R359, and the outcomes of R366)? -/
def State.headHeld (s : State) (vi queue : Nat) : Bool :=
  match ((s.vi vi).queue queue).recs with
  | r :: _ => r.valid && !r.released && s.depsMet vi queue r && s.predTainted vi queue r
  | [] => false

/-- A launch that starts takes its handles. -/
def VI.takeHandles (v : VI) (id : Nat) (ws : List Word) : VI :=
  (recordHandles ws).foldl (fun v h =>
    let old := v.handle h.1
    let new : Handle := if h.2.2.1 then { writer := some id }
      else { old with readers := old.readers ++ [id] }
    { v with handles := sset h.1 new v.handles }) v

/-- A launch that completes leaves its handles, tainting those it wrote if it is tainted. -/
def VI.leaveHandles (v : VI) (id : Nat) (tainted : Bool) : VI :=
  { v with handles := v.handles.map (fun p =>
      let h := if p.2.writer = some id then { p.2 with writer := none, tainted := tainted || p.2.next, next := false } else p.2
      (p.1, { h with readers := h.readers.filter (· != id) })) }

/-! ## Start (R249, R356, R357) -/

/-- The fields that a record of an interface could be granted now. -/
def State.freeFields (s : State) (vi asid unb : Nat) : List Nat :=
  (List.range Config.fields).filter (fun f => (s.vi vi).ownsField f && s.fieldFree f && s.canReserve f asid unb)

/-- Does the Launch Unit grant these fields: as many of the free ones as there are, up to MAXF (R357)? -/
def grantOk (free grant : List Nat) (minf maxf : Nat) : Bool :=
  sorted grant && grant.all free.contains && decide (minf ≤ grant.length) &&
  decide (grant.length = Nat.min maxf free.length)

/-- A start message (R249). -/
def startMessage (l : Launch) (id : Nat) (name : BitVec 16) : Message :=
  { words := [msgHeader 0x40 (BitVec.ofNat 6 l.schan) 0 name], vi := l.vi, launch := id,
    ec := fld (l.word 0) 40 3, sender := 0xFFFF }

/-- Start messages to the tiles of the launch grid (R249). -/
def State.startMessages (s : State) (id : Nat) (l : Launch) : State :=
  { s with mesh := s.mesh ++ l.cells.filterMap (fun c =>
      if l.starts c.2 then some (.message c.2 (startMessage l id (s.nameOf c.2)) none none) else none) }

/-- The pairs of the initial list (R33, R249): TS 0, the launch's domain. -/
def pairsOf (id : Nat) (dom : BitVec 8) : List Word → List Pair
  | w0 :: w1 :: _ :: _ :: r => { a := fld w0 0 51, b := fld w1 0 51, ts := 0, dom := dom, launch := id } :: pairsOf id dom r
  | _ => []

/-- The Fold of each pair. -/
def State.pairFolds (s : State) (x : Actor) : List Pair → Try (List (Nat × Pair) × State)
  | [] => .ok ([], s)
  | p :: r => do
    let (f, s) ← s.nodeField x p.a
    let (l, s) ← s.pairFolds x r
    .ok ((f, p) :: l, s)

/-- The lowest share of the spill area that no field of the launch has: at a start the k-th field's is the k-th (R356); a
field that a step adds takes one that is free (DESIGN CHOICE, log 57). -/
def Launch.freeShare (l : Launch) : Nat :=
  ((List.range (l.shares.length + 1)).find? (fun k => !(l.shares.map Prod.snd).contains k)).getD 0

/-- A field takes part in a launch: its reservation, its share of the spill area, its tiles, its flock's first lines (R249,
R356). Its BASE stays (R253). (DEDUCED, log 46.) -/
def State.joinField (s : State) (id : Nat) (l : Launch) (f : Nat) (lines : List Word) : State :=
  let s := s.reserveFor id l f
  let s := s.modLaunch id (fun l => { l with shares := sset f l.freeShare l.shares })
  let s := (fieldSites f).foldl (fun s x =>
    if (s.tile x).grantable && (s.tile x).free then (s.emptyL1 x).modTile x (fun t => t.load x id l) else s) s
  s.modField f (fun g => { g with flock := sset id (sget [] id g.flock ++ lines) g.flock })

/-- The lists of a launch record, read at its start: handler tables, WD1 to WD15, frames, initial pairs. (DEDUCED, log 76.) -/
def State.luLists (s : State) (sp : Space) (ws : List Word) :
    Try (Vector (Sparse (Vector Word 4)) 4 × List Word × List Word × List Word × State) := do
  let va (k : Nat) : Word := (fld (wordAt ws k) 0 57).setWidth 64
  let (t, s) ← s.luTables sp (va 7)
  let (wd, s) ← s.luWords sp (va 8) 15
  let (fr, s) ← s.luWords sp (va 16) (wordAt ws 17).toNat
  let (ps, s) ← s.luWords sp (va 5) (4 * (wordAt ws 6).toNat)
  .ok (t, wd, fr, ps, s)

/-- The launch as it stands when its fields are granted. -/
def newLaunch (vi queue : Nat) (r : QRec) (asid : Nat) (grant : List Nat) (t : Vector (Sparse (Vector Word 4)) 4)
    (wd frames : List Word) : Launch where
  vi := vi
  queue := queue
  seq := r.seq
  asid := asid
  rec_ := r.words
  fields := grant
  tables := t
  wd := Vector.ofFn (fun i : Fin 16 => if i.val = 0 then 0xE else wordAt wd (i.val - 1))
  frames := frames
  bells := Vector.replicate 8 {}

/-- The launch takes its fields, tiles, lines and handles. -/
def State.takeFields (s : State) (id : Nat) (l : Launch) : State :=
  let nf := l.fields.length
  let per := (fld (l.word 15) 0 32).toNat / nf
  let base : Word := (fld (l.word 14) 0 57).setWidth 64
  let line (k : Nat) : Word := base + BitVec.ofNat 64 (64 * k)
  let l := { l with nodeNext := per * nf }
  let s := { s with launches := sset id l s.launches, nextLaunch := id + 1 }
  let s := l.fields.zipIdx.foldl (fun s p =>
    s.joinField id l p.1 ((List.range per).map (fun i => line (per * p.2 + i)))) s
  s.modVI l.vi (·.takeHandles id l.rec_)

/-- The initial pairs enter their Folds and the start messages leave; pairs that do not fit, or whose node has no
translation, end the launch. -/
def State.startNet (s : State) (id : Nat) (l : Launch) (ps : List Word) : State :=
  let x : Actor := { site := 0, sp := { luSpace l.vi l.asid with launch := some id }, launch := id, vi := l.vi, dom := l.dom }
  match s.pairFolds x (pairsOf id l.dom ps) with
  | .error e =>
    s.modLaunch id (fun l => { l with failed := (stopTrap e).map (fun t => (t.code.num, t.detail.setWidth 32)) })
  | .ok (fs, s) =>
    if s.roomFor fs then
      let s := fs.foldl (fun s p => (s.enterPair p.1 p.2).getD s) s
      (s.reband id).startMessages id l
    else s.modLaunch id (fun l => { l with failed := some (Code.foldspill.num, 1) })

/-- LAUNCH_START (R249, R357 to R359): the record at the head of its queue with a grant. -/
def execLaunchStart (vi queue : Nat) (grant : List Nat) (s : State) : Out :=
  let q := (s.vi vi).queue queue
  match q.recs with
  | [] => .next s
  | r :: _ =>
    let minf := (fld (wordAt r.words 1) 0 8).toNat
    let maxf := (fld (wordAt r.words 1) 8 8).toNat
    let unb := (fld (wordAt r.words 10) 48 11).toNat
    if !r.valid || !s.depsMet vi queue r || s.headHeld vi queue ||
        !grantOk (s.freeFields vi q.asid.toNat unb) grant minf maxf then .next s
    else
      match s.luLists (luSpace vi q.asid.toNat) r.words with
      | .error e =>
        match stopTrap e with
        | some t => .next (s.completeRecord vi queue r t.code.num (t.detail.setWidth 32))
        | none => .next s
      | .ok (t, wd, fr, ps, s) =>
        let l := newLaunch vi queue r q.asid.toNat grant t wd fr
        match placeCells l grant (fun x => (s.tile x).grantable) with
        | none => .next (if grant.length = maxf then s.completeRecord vi queue r 0x01 1 else s)
        | some cells =>
          let id := s.nextLaunch
          let l := { l with cells := cells }
          let s := s.modQueue vi queue (fun q => { q with recs := q.recs.tail })
          let s := (s.takeFields id l).settleHead vi queue
          .next (s.startNet id ((s.launch? id).getD l) ps)

/-! ## Completion (R363) -/

/-- Is anything of the launch still under way: tasks, messages and pairs in flight, commands (R363)? -/
def State.launchBusy (s : State) (id : Nat) : Bool :=
  s.allTasks.any (fun t => t.msg.launch == id) ||
  s.mesh.any (fun f => match f with
    | .message _ m _ _ => m.launch == id
    | .request m _ _ => m.launch == id
    | .pair _ p => p.launch == id
    | .tokens site _ _ => (s.tile site).launch == some id
    | .loan _ _ _ => false) ||
  s.tiles.any (fun p => p.2.cmds.any (fun m => m.msg.launch == id && !m.told)) ||
  s.parts.any (fun p => p.far.isNone && p.cmd.msg.launch == id)

/-- The images of a launch go: their units are free (R389), and a tile that waited for one alone to retire does (R413). -/
def State.dropImages (s : State) (id : Nat) : State :=
  let mine := s.images.filter (·.launch == id)
  let n := (mine.map (·.units)).foldl (· + ·) 0
  let s := { s with images := s.images.filter (·.launch != id) }
  let s := match s.launch? id with
    | some l => if n = 0 then s else s.modVI l.vi (fun v => { v with imgused := v.imgused - BitVec.ofNat 32 n })
    | none => s
  mine.foldl (fun s i => s.retired i.site) s

/-- Every dirty backed line reaches HBM: what `rel.h` for a marked handle comes to at the least (R328). (DEDUCED, log 50.) -/
def State.allToHbm (s : State) : State := (s.l2.map (·.key)).foldl (fun s k => s.toHbm k) s

/-- The launch gives back its fields, tiles, lines and handles; a retiring tile goes (R413). -/
def State.giveBack (s : State) (id : Nat) (l : Launch) (tainted : Bool) : State :=
  let tiles := (s.tiles.filter (fun p => p.2.launch == some id)).map Prod.fst
  let s := tiles.foldl (fun s x => (s.release x).retired x) s
  let s := if (recordHandles l.rec_).any (fun h => h.2.2.1 && h.2.2.2) then s.allToHbm else s
  let s := l.fields.foldl (fun s f => s.unreserveFor id l f) s
  let s := { s with fields := s.fields.map (fun (p : Nat × Field) => (p.1, { p.2 with
    flock := sdel id p.2.flock
    fold := { p.2.fold with entries := p.2.fold.entries.filter (fun e => e.pair.launch != id) } })) }
  let s := (s.dropImages id).modVI l.vi (·.leaveHandles id tainted)
  l.fields.foldl (fun s f => s.repay f) s

/-- The result of a launch (R364). -/
def Launch.result (l : Launch) (left : Nat) : Result :=
  let status : BitVec 8 := (l.failed.map Prod.fst).getD (if l.cancelled then 0xF0 else 0)
  { status := status
    verd := if status != 0 || l.tainted then 2 else if l.corrected then 1 else 0
    detail := (l.failed.map Prod.snd).getD 0
    start := if l.ran then l.started else 0
    tasks := l.tasks
    aborts := l.aborts
    left := left
    fields := l.fields.length }

/-- LAUNCH_COMPLETION (R363). -/
def execLaunchCompletion (launch : Nat) (s : State) : Out :=
  match s.launch? launch with
  | none => .next s
  | some l =>
    if s.launchBusy launch then .next s
    else
      let left := (s.fields.map (fun p => (p.2.fold.entries.filter (fun e => e.pair.launch == launch)).length)).foldl (· + ·) 0
      let r := l.result left
      let s := s.giveBack launch l (r.verd == 2)
      let s := ({ s with launches := sdel launch s.launches } : State).rebandDom l.vi l.dom
      let s := s.modQueue l.vi l.queue (fun q => { q with tainted := q.tainted || r.verd == 2 })
      .next (s.complete l.vi l.queue l.seq l.rec_ r)

/-! ## Launches from tasks (R365) -/

/-- The queue that a launch request names. -/
def Message.launchQueue (m : Message) : Nat := (fld (wordAt m.words 2) 0 5).toNat

/-- The record of a launch request, or why it is rejected (R365). A request in another form than R365 gives is answered
ILLOP. (DEDUCED, log 48.) -/
def State.requestRecord (s : State) (m : Message) : Try (List Word × State) := do
  let hdr := wordAt m.words 0
  let q := (s.vi m.vi).queue m.launchQueue
  need (hdrCnt hdr == 2 && hdrChan hdr == 0 && fld (wordAt m.words 2) 5 59 == 0) .illop
  need (q.dev && q.en) .prot
  s.luWords (luSpace m.vi (((s.launch? m.launch).map (·.asid)).getD 0)) (wordAt m.words 1) 32

/-- A launch request that is met: it is rejected, it enters its queue, or `full` says what a full queue does to it. -/
def State.meetRequest (s : State) (idx : Nat) (full : Message → Cmd → Nat → State) : State :=
  match s.mesh[idx]? with
  | some (.request m c since) =>
    let gone := { s with mesh := s.mesh.eraseIdx idx }
    match gone.requestRecord m with
    | .error e =>
      match stopTrap e with
      | some t => gone.turnBack m (some c) t.code (t.detail.setWidth 16)
      | none => s
    | .ok (ws, t) =>
      let q := (s.vi m.vi).queue m.launchQueue
      if q.free = 0 then full m c since
      else (t.modQueue m.vi m.launchQueue (·.enqueue ws)).messageDone (some c) 0 (q.qseq.setWidth 16) m.sender
  | _ => s

/-- TASK_LAUNCH_REQUEST (R365): a full queue makes it wait. (DEDUCED, log 48.) -/
def execTaskLaunchRequest (idx : Nat) (s : State) : Out := .next (s.meetRequest idx (fun _ _ _ => s))

/-- A launch request that has met a full queue for WDOG ticks of its sender's tile (R365). -/
def State.requestExpired (s : State) (idx : Nat) : State :=
  s.meetRequest idx (fun m c since =>
    if since + (s.tile m.sender).wdog.toNat ≤ s.tick m.sender then
      ({ s with mesh := s.mesh.eraseIdx idx } : State).turnBack m (some c) .waittmo 0
    else s)

/-- WAIT_WATCHDOG_EXPIRY. -/
def execWaitWatchdogExpiry (w : WaitRef) (s : State) : Out :=
  match w with
  | .ctx site slot st => .next (s.waitExpired site slot st)
  | .array site => .next (s.arrayExpired site)
  | .request idx => .next (s.requestExpired idx)

/-! ## Release and cancel (R362) -/

/-- Code 3 for an LCMD (R351, R362). -/
def State.lcmdMiss (s : State) (vi queue : Nat) : State := s.modVI vi (·.violate (pageAddr vi 0x28) 3 queue)

/-- LCMD_RELEASE (R362, R366). -/
def execLcmdRelease (vi queue : Nat) (seq : BitVec 32) (s : State) : Out :=
  match ((s.vi vi).queue queue).recs with
  | r :: _ =>
    if r.seq = seq ∧ s.headHeld vi queue then
      .next (s.modQueue vi queue (fun q => { q with
        recs := q.recs.map (fun x => if x.seq = seq then { x with released := true } else x) }))
    else .next (s.lcmdMiss vi queue)
  | [] => .next (s.lcmdMiss vi queue)

/-- The tasks of a launch that a cancel aborts: all but its messages that no context has taken (R362, R364). -/
def State.abortable (s : State) (id : Nat) : Nat :=
  let mine (t : Task) : Bool := t.msg.launch == id
  let ctxs (l : List Ctx) : Nat := (l.filter (fun c => mine c.task)).length
  (s.tiles.map (fun p => ctxs p.2.resident + ctxs p.2.done)).foldl (· + ·) 0 +
  (s.luTasks.filter (fun t => mine t.task)).length + (s.images.map (fun i => ctxs i.ctxs)).foldl (· + ·) 0

/-- What waits by FOLLOW for a message of a cancelled launch goes on as if it had arrived (R362; DEDUCED, log 94). -/
def State.settleDropped (s : State) (id : Nat) : State :=
  s.mesh.foldl (fun s f => match f with
    | .message _ m (some c) _ => if m.launch = id then s.settle c else s
    | .request m c _ => if m.launch = id then s.settle c else s
    | _ => s) s

/-- Abort and discard every task of a running launch, and drop its pairs, messages and buffered effects (R362): it completes
as cancelled, or with the STATUS and DETAIL given. -/
def State.dropLaunch (s : State) (id : Nat) (why : Option (BitVec 8 × BitVec 32)) : State :=
  let n := BitVec.ofNat 32 (s.abortable id)
  let s := (s.modLaunch id (fun l => { l with cancelled := true, failed := why, aborts := l.aborts + n })).settleDropped id
  let sites := (s.tiles.filter (fun p => p.2.launch == some id || p.2.done.any (fun c => c.task.msg.launch == id))).map Prod.fst
  let s := sites.foldl (fun s x =>
    let s := [0, 1, 2, 3].foldl (fun s slot => match s.ctx? x slot with
      | some c => if c.task.msg.launch = id then ((s.takeBack x c).freeSlot x slot).modTile x (·.count 10 1) else s
      | none => s) s
    let done := (s.tile x).done.filter (fun c => c.task.msg.launch == id)
    let s := done.foldl (fun s c => s.takeBack x c) s
    s.modTile x (fun t => { (t.count 10 done.length) with
      inbox := t.inbox.filter (fun k => k.msg.launch != id)
      done := t.done.filter (fun c => c.task.msg.launch != id)
      preempt := none })) s
  let s := { s with
    luTasks := s.luTasks.filter (fun t => t.task.msg.launch != id)
    mesh := s.mesh.filter (fun f => match f with
      | .message _ m _ _ => m.launch != id
      | .request m _ _ => m.launch != id
      | .pair _ p => p.launch != id
      | _ => true)
    fields := s.fields.map (fun (p : Nat × Field) => (p.1, { p.2 with
      fold := { p.2.fold with entries := p.2.fold.entries.filter (fun e => e.pair.launch != id) } })) }
  (s.dropImages id).reband id

/-- Cancel a running launch (R362). -/
def State.cancelLaunch (s : State) (id : Nat) : State := s.dropLaunch id none

/-- LCMD_CANCEL (R362, R366). -/
def execLcmdCancel (vi queue : Nat) (seq : BitVec 32) (s : State) : Out :=
  match ((s.vi vi).queue queue).recs.find? (fun r => r.seq == seq && !r.gone) with
  | some r => .next (s.completeRecord vi queue r 0xF0 0)
  | none =>
    match s.launches.find? (fun p => p.2.vi == vi && p.2.queue == queue && p.2.seq == seq) with
    | some (id, _) => .next (s.cancelLaunch id)
    | none => .next (s.lcmdMiss vi queue)

/-! ## Standing reservations (R361) -/

/-- UNBSET_WRITE (R361). -/
def execUnbsetWrite (vi : Nat) (val : BitVec 64) (s : State) : Out :=
  let asid := (fld val 20 12).toNat
  let units := (fld val 8 11).toNat
  let f := (fld val 0 7).toNat
  let v := s.vi vi
  let val' := val &&& 0xFFF7FF7F
  let others := ((s.field f).reserve.filter (·.asid != asid)).map (fun r => s.units f r.asid)
  if asid < v.asid0.toNat ∨ v.asid0.toNat + v.asidN.toNat ≤ asid then
    .next (s.modVI vi (·.violate (pageAddr vi 0x20) 2 0))
  else if Config.fields ≤ f ∨ 1536 < others.foldl (· + ·) 0 + units then
    .next (s.modVI vi (·.violate (pageAddr vi 0x20) 4 0))
  else
    .next ((s.modField f (fun g => g.setReserve { g.reserveOf asid with standing := units })).modVI vi
      (fun v => { v with unbset := val' }))

end Sys2Proof.Machine
end

