-- ==== Sys2Proof/Machine/Preempt.lean ====
section
/-! DEFINITION. Pre-emption of a tile and its resume (R40, R276, R277, R389). -/

namespace Sys2Proof.Machine

/-- Image units of 64 KiB (R389): what saved contexts and dirty blocks take at most. -/
def imageUnits (ctxs blocks : Nat) : Nat := (384 * 1024 * ctxs + 1056 * blocks + 4096 + 65535) / 65536

/-- Do the tile's engines hold nothing of their own: no command that has not completed, no matrix work? -/
def Tile.quiet (t : Tile) : Bool := t.cmds.all (·.told) && t.items.isEmpty && t.array.isNone

/-- The contexts of a tile that the image of its launch holds already. -/
def State.savedCtxs (s : State) (site : Nat) : List Ctx :=
  (((s.tile site).launch.bind (s.imageOf site)).map (·.ctxs)).getD []

/-- The units that a tile's image takes. -/
def State.imageNeed (s : State) (site : Nat) : Nat :=
  imageUnits ((s.savedCtxs site).length + (s.tile site).resident.length) (s.tile site).dirty.length

/-- The units that the tiles of an interface other than `site` are to take once their contexts are gone. -/
def State.unitsAsked (s : State) (vi site : Nat) : Nat :=
  ((s.tiles.filter (fun p => p.1 != site && p.2.preempt.isSome && (p.2.launch.bind s.launch?).map (·.vi) == some vi)).map
    (fun p => s.imageNeed p.1)).foldl (· + ·) 0

/-- Ask a tile's contexts to save, unless its image would not fit in the free units that no other tile is to take
(R389). -/
def State.askPreempt (s : State) (site : Nat) : State :=
  let t := s.tile site
  match t.launch.bind s.launch? with
  | none => s
  | some l =>
    let v := s.vi l.vi
    if t.preempt.isSome ||
        decide (v.imglen.toNat < v.imgused.toNat + s.unitsAsked l.vi site + s.imageNeed site) then s
    else s.modTile site (fun t => { t with preempt := some (s.tick site) })

/-- Bytes and tags of 1 KiB blocks. -/
def Tile.blockBytes (t : Tile) (bs : List Nat) : Memory := t.spad.filter (fun c => bs.contains (c.1 / 1024))
/-- Their doublewords that cannot be read right (R386). -/
def Tile.blockPoison (t : Tile) (bs : List Nat) : List Nat := (t.poison ++ t.bad).filter (fun d => bs.contains (8 * d / 1024))
def Tile.blockTags (t : Tile) (bs : List Nat) : List Nat := t.tags.filter (fun w => bs.contains (4 * w / 1024))

/-- No context of the launch remains (R276): messages and dirty blocks go into the image, the tile is released. (DEDUCED, log 44.) -/
def State.finishPreempt (s : State) (site id : Nat) (l : Launch) : State :=
  let s := s.rangesEngine ((s.tile site).dirty.map (fun b => (site, 1024 * b, 1024))) id
  let t := s.tile site
  let old := (s.imageOf site id).getD { site := site, vi := l.vi, launch := id }
  let n := imageUnits old.ctxs.length t.dirty.length
  let im : Image := { old with
    bytes := t.blockBytes t.dirty
    blocks := t.dirty
    tags := t.blockTags t.dirty
    poison := t.blockPoison t.dirty
    msgs := t.inbox
    units := n
    away := true }
  let s := { s with images := s.images.filter (fun (i : Image) => !i.isOf site id) ++ [im] }
  let s := s.modVI l.vi (fun v => { v with imgused := v.imgused + BitVec.ofNat 32 n })
  s.release site

/-- PREWIN_EXPIRY (R40): a context that honoured no safe point in PREWIN ticks is aborted and re-queued. -/
def execPrewinExpiry (site slot : Nat) (s : State) : Out :=
  let t := s.tile site
  match t.preempt with
  | some t0 => .next (if t0 + t.prewin.toNat ≤ s.tick site then s.abortPlain site slot else s)
  | none => .next s

/-! ## Resume (R277) -/

/-- The leaves of a table: entry, its address, its VA (R368). -/
def leavesFrom (read : Nat → Word) : Nat → Nat → Nat → List (Word × Nat × Nat)
  | 0, table, va => (List.range 512).filterMap (fun i =>
      let e := read (table + 8 * i)
      if pteV e && pteLeaf e then some (e, table + 8 * i, va + 4096 * i) else none)
  | n + 1, table, va => ((List.range 512).map (fun i =>
      let e := read (table + 8 * i)
      let at_ := va + 2 ^ (12 + 9 * (n + 1)) * i
      if !pteV e then []
      else if pteLeaf e then [(e, table + 8 * i, at_)]
      else leavesFrom read n (4096 * ptePfn e) at_)).flatten

/-- The pages an ASID maps, a group of 16 entries once (R370). -/
def State.pages (s : State) (vi asid : Nat) : List Leaf :=
  match s.rootOf { cluster := none, vi := vi, asid := asid } 0 with
  | .ok table =>
    ((leavesFrom s.paWord 4 table 0).filter (fun p =>
      decide (pteSize p.1 < 5) && (!(pteSize p.1 == 1 || pteSize p.1 == 3) || p.2.1 / 8 % 16 == 0))).map
      (fun p => { vi := vi, asid := asid, vpage := p.2.2 / 4096, span := sizePages (pteSize p.1), pte := p.1, pteAt := p.2.1 })
  | .error _ => []

/-- Has the launch a live mapping homed in the field (R285)? Spread pages are homed in every live field. (DEDUCED, log 52.) -/
def State.affected (s : State) (l : Launch) (f : Nat) : Bool :=
  (s.pages l.vi l.asid).any (fun p => pteHome p.pte == f || pteHome p.pte == 127)

/-- The pages of every address space. -/
def State.allPages (s : State) : List Leaf :=
  (s.vis.map (fun v => ((List.range v.2.asidN.toNat).map (fun i => s.pages v.1 (v.2.asid0.toNat + i))).flatten)).flatten

/-- Is the line one of the page's? -/
def Leaf.hasLine (p : Leaf) : LineKey → Bool
  | .pa n => p.frameHas (.pa n)
  | .unb a n => pteUnb p.pte && a == p.asid && decide (64 * p.vpage ≤ n) && decide (n < 64 * (p.vpage + p.span))

/-- The homes of a line (R283): HOME of each page that maps it; one that no page maps is spread, as table lines are
(R371). (DEDUCED, log 50.) -/
def homesOf (ps : List Leaf) (k : LineKey) : List Nat :=
  match ps.filter (·.hasLine k) with
  | [] => [127]
  | l => l.map (fun p => pteHome p.pte)

/-- Is the line homed in the field? -/
def State.homedIn (s : State) (ps : List Leaf) (f : Nat) (k : LineKey) : Bool :=
  (homesOf ps k).any (fun h => s.homeField h k == f)

/-- The fields that a rehome event of a field takes in (R286): the field, and when it loses its last live slice every
live field, since spread lines hash over all of them. -/
def State.rehomeFields (s : State) (f : Nat) : List Nat :=
  if (s.field f).enabled != 0 then [f] else f :: s.liveFields.filter (· != f)

/-- Is the launch affected by a rehome event of a field (R285, R286)? -/
def State.rehomeAffects (s : State) (l : Launch) (f : Nat) : Bool := (s.rehomeFields f).any (s.affected l)

/-- Does a rehome event that is to come hold the launch at its step boundary (R285)? -/
def State.rehomeHolds (s : State) (l : Launch) : Bool := s.rehome.any (fun p => s.rehomeAffects l p.1)

/-- 10 ms in ref ticks. -/
def tenMs : Nat := 1000000

/-- Have the tiles of all cells arrived? -/
def Launch.stepDone (l : Launch) : Bool := l.cells.all (fun c => l.stepArr.contains c.2)

/-- Has the launch reached its step boundary (R109): a rehome event holds it there, or the step phase is to complete? -/
def Launch.atStep (l : Launch) : Bool := l.boundary || (!l.cells.isEmpty && l.stepDone)

/-- Has a rehome event waited for the launch for 10 ms (R285)? -/
def State.rehomeLate (s : State) (l : Launch) : Bool :=
  !l.atStep && s.rehome.any (fun p => decide (p.2 + tenMs ≤ s.refTicks) && s.rehomeAffects l p.1)

/-- A saved context becomes READY again (R41, R277, R301). -/
def State.restoreCtx (s : State) (site slot : Nat) (l : Launch) (c : Ctx) : State :=
  let t := c.tok.want
  let g := c.task.msg.grid.getD (l.gridAt site)
  let s := s.setCtx site slot { c with tok := {}, grid := g }
  let n := Nat.max t (needOf c.task.msg.ec)
  if n = 0 then s else s.openRequest site slot n

/-! ## The request (R276, R389) -/

/-- Why the Launch Unit pre-empts a launch's tiles (R389): a launch of higher PRIO of the interface lacks nothing but
fields, or a rehome event has waited its time for a step boundary. -/
def State.preemptReason (s : State) (l : Launch) : Bool :=
  s.rehomeLate l || (s.vi l.vi).queues.any (fun q => match q.2.recs with
    | r :: _ => r.valid && decide ((fld (l.word 0) 44 4).toNat < (fld (wordAt r.words 0) 44 4).toNat) &&
        s.depsMet l.vi q.1 r && !s.headHeld l.vi q.1 &&
        decide ((s.freeFields l.vi q.2.asid.toNat (fld (wordAt r.words 10) 48 11).toNat).length <
          (fld (wordAt r.words 1) 0 8).toNat)
    | [] => false)

/-- The image would not fit after all: the contexts go on where they were (DESIGN CHOICE, log 96). -/
def State.keepOn (s : State) (site id : Nat) (l : Launch) : State :=
  let cs := s.savedCtxs site
  let s := { s with images := s.images.filter (fun i => !i.isOf site id) }
  let s := s.modTile site (fun t => { t with preempt := none })
  cs.zipIdx.foldl (fun s p => s.restoreCtx site p.2 l p.1) s

/-- PREEMPT_REQUEST (R276, R389): the request, and once the tile's contexts are gone, what follows them. -/
def execPreemptRequest (site : Nat) (s : State) : Out :=
  let t := s.tile site
  match t.launch with
  | none => .next s
  | some id =>
    match s.launch? id with
    | none => .next s
    | some l =>
      if t.preempt.isSome then
        if !(t.resident.isEmpty && t.quiet) then .next s
        else if (s.vi l.vi).imgused.toNat + s.imageNeed site ≤ (s.vi l.vi).imglen.toNat then
          .next (s.finishPreempt site id l)
        else .next (s.keepOn site id l)
      else .next (if s.preemptReason l then s.askPreempt site else s)

/-- May a launch that held the tile come back to it: a suspect tile finishes it (R388), a retiring one does not (R413)? -/
def Tile.resumable (t : Tile) : Bool := t.named && t.status != 2 && t.leaving.isNone && t.free

/-- May the launch of an image come back to its tile: no rehome event holds it at its step boundary (R285)? -/
def State.mayResume (s : State) (i : Image) : Bool := (s.launch? i.launch).any (fun l => !s.rehomeHolds l)

/-- TILE_RESUME (R277): on the same site, once it is free again. Of the launches that were pre-empted there the one that
left first comes back first, but for those that a rehome event holds. (DESIGN CHOICE, log 115.) -/
def execTileResume (site : Nat) (s : State) : Out :=
  match s.images.find? (fun i => i.site == site && i.away && s.mayResume i) with
  | none => .next s
  | some im =>
    match s.launch? im.launch with
    | none => .next s
    | some l =>
      if !(s.tile site).resumable then .next s
      else
        let s := (s.emptyL1 site).modTile site (fun t =>
          { (t.load site im.launch l) with
              spad := im.bytes, tags := im.tags, poison := im.poison, dirty := im.blocks
              inbox := lsort (fun a b => !ts32lt b.id a.id) im.msgs })
        let s := im.ctxs.zipIdx.foldl (fun s p => s.restoreCtx site p.2 l p.1) s
        let s := { s with images := s.images.filter (fun i => !i.isOf site im.launch) }
        .next (s.modVI im.vi (fun v => { v with imgused := v.imgused - BitVec.ofNat 32 im.units }))

end Sys2Proof.Machine
end

