-- ==== Sys2Proof/Machine/Regrid.lean ====
section
/-! DEFINITION. Step boundaries that change a launch's fields (R109, R278, R413, R414), rehome events (R285 to R287),
and page migration (R294). -/

namespace Sys2Proof.Machine

/-! ## Tiles and fields that leave a launch (R278, R413) -/

/-- Is a context waiting at the step? -/
def Ctx.atStep (c : Ctx) : Bool :=
  match c.aWait.map (·.kind) with
  | some (WaitKind.step _) => true
  | _ => false

/-- Is a tile's task that waits at the step done with its C-stream words, as `done` waits for (R107)? Its commands have
completed once the tile is quiet. -/
def State.stepEnds (s : State) (site : Nat) : Bool :=
  [0, 1, 2, 3].all (fun k => match s.ctx? site k with
    | some c => !c.atStep || s.cRetired site k c
    | none => true)

/-- A task on a tile that leaves: one that waits at the step ends as if by `done` (R107, R109), ILLOP for a partly written
command included; any other is aborted, and its message goes back as those of the inbox do (log 21). -/
def State.leaveCtx (s : State) (site slot : Nat) : State :=
  match s.ctx? site slot with
  | none => s
  | some c =>
    if c.atStep then
      match c.partPort with
      | some p => s.abortFault site slot { code := .illop, detail := BitVec.ofNat 64 p } c.pc
      | none => s.endTask site slot c
    else
      let s := s.loseTask c.task
      let s := ((s.takeBack site c).freeSlot site slot).modTile site (·.count 10 1)
      (s.modLaunch c.task.msg.launch (fun l => { l with aborts := l.aborts + 1 })).bounce c.task.msg .localrange 2

/-- The other tiles of a launch that are of a tile's class, those whose image waits among them. -/
def State.classMates (s : State) (id site : Nat) : List Nat :=
  ((((s.launch? id).map (·.fields)).getD []).map fieldSites).flatten.filter (fun x =>
    x != site && s.ofLaunch id x && siteClass x == siteClass site)

/-- The tasks QUEUED in the Launch Unit for a tile that leaves the launch run on one of `goal` that the Launch Unit picks, from
their snapshot where they have one. With none their messages go back as those of the inbox do. (DESIGN CHOICE, log 45.) -/
def State.resite (s : State) (id site : Nat) (goal : List Nat) : State :=
  (s.luTasks.filter (fun t => t.state == .queued && t.site == site && t.task.msg.launch == id)).foldl (fun s t =>
    let s := { s with luTasks := s.luTasks.erase t }
    let k := s.choose goal.length
    match goal[k.1]? with
    | some x =>
      { k.2 with luTasks := k.2.luTasks ++ [{ t with site := x, task := { t.task with again := t.task.snap.isSome } }] }
    | none => (s.loseTask t.task).bounce t.task.msg .localrange 2) s

/-- A tile leaves its launch (R278, R413): tasks end, inbox messages go back, the Launch Unit sends the tasks it keeps for
the tile to another (R262), and the tile is released. -/
def State.leaveTile (s : State) (id site : Nat) : State :=
  let s := [0, 1, 2, 3].foldl (fun s k => s.leaveCtx site k) s
  let s := (s.tile site).inbox.foldl (fun s k => (s.loseTask k).bounce k.msg .localrange 2) s
  ((s.resite id site (s.classMates id site)).release site).retired site

/-- The Fold that a pair moves to when its field leaves (R146, R278). -/
def State.foldOf (s : State) (sp : Space) (p : Pair) (f : Nat) : Nat :=
  let x : Actor := { site := 0, sp := sp, launch := p.launch, vi := sp.vi, dom := p.dom }
  match s.nodeField x p.a with
  | .ok (g, _) => g
  | .error _ => f

/-- Held pairs of a field take another one. -/
def Ctx.rehold (c : Ctx) (f : Nat) (goal : Pair → Nat) : Ctx :=
  { c with pairs := c.pairs.map (fun h => if h.field = f then { h with field := goal h.pair } else h) }

/-- The pairs of a launch leave a field's Fold for those that R146 selects; held pairs move with their tasks (R278). One that
finds no room is kept past the share, and one whose node's page does not translate stays. (DESIGN CHOICE, log 57.) One that its
new Fold keeps as a spilled pair counts as a spill (R407). A pair on its way to the field's Fold still enters it.
(DESIGN CHOICE, log 119.) -/
def State.moveFold (s : State) (id : Nat) (l : Launch) (f : Nat) : State :=
  let goal (p : Pair) : Nat := s.foldOf { luSpace l.vi l.asid with launch := some id } p f
  let mine := (s.field f).fold.entries.filter (fun e => e.pair.launch == id)
  let s := s.modField f (fun g => { g with fold := { g.fold with
    entries := g.fold.entries.filter (fun e => e.pair.launch != id) } })
  let s := mine.foldl (fun s e =>
    let g := goal e.pair
    let out := !(s.field g).fold.staysOn
    let s := s.addEntry g { e with spilled := out }
    if out && !(g == f && e.spilled) then s.modField g (·.count 5 1) else s) s
  { s with
    tiles := s.tiles.map (fun (p : Nat × Tile) => (p.1, { p.2 with
      ctxs := p.2.ctxs.map (fun c => c.map (fun c => if c.task.msg.launch = id then c.rehold f goal else c))
      done := p.2.done.map (fun c => if c.task.msg.launch = id then c.rehold f goal else c) }))
    images := s.images.map (fun i => if i.launch = id then { i with ctxs := i.ctxs.map (·.rehold f goal) } else i) }

/-- A field is withdrawn from a launch (R278); `low` is the lowest field that remains. A tile of the field that is pre-empted
away keeps its image, with its messages, and the launch comes back to it there (R277). (DESIGN CHOICE, log 119.) -/
def State.withdraw (s : State) (id : Nat) (l : Launch) (low f : Nat) : State :=
  let tiles := (fieldSites f).filter (fun x => (s.tile x).launch == some id)
  let s := tiles.foldl (fun s x => s.leaveTile id x) s
  let s := s.moveFold id l f
  let lines := sget [] id (s.field f).flock
  let s := s.modField f (fun g => { g with flock := sdel id g.flock })
  let s := s.modLaunch id (fun l => { l with shares := sdel f l.shares })
  (s.toFlock low id lines).unreserveFor id l f

/-- Every context of the launch sees its place in the new grid (R24, R109), those of a GROUP dispatch theirs. -/
def State.regrid (s : State) (id : Nat) : State :=
  match s.launch? id with
  | none => s
  | some l =>
    { s with tiles := s.tiles.map (fun (p : Nat × Tile) => if p.2.launch = some id then
        (p.1, { p.2 with ctxs := p.2.ctxs.map (fun c => c.map (fun c => { c with grid := c.task.msg.grid.getD (l.gridAt p.1) })) })
      else p) }

/-! ## The step phase (R109, R278) -/

/-- The tiles of a launch that firmware retires (R413). -/
def State.retirees (s : State) (id : Nat) : List Nat :=
  (s.tiles.filter (fun p => p.2.launch == some id && p.2.leaving.isSome)).map Prod.fst

/-- May the scheduler change the fields so (R357)? -/
def State.changeOk (s : State) (l : Launch) (new add drop : List Nat) : Bool :=
  let minf := (fld (l.word 1) 0 8).toNat
  let maxf := (fld (l.word 1) 8 8).toNat
  drop.all l.fields.contains && add.all (fun f => !l.fields.contains f) && sorted new &&
  add.all (s.freeFields l.vi l.asid l.unb).contains && decide (minf ≤ new.length) && decide (new.length ≤ maxf)

/-- Can no grid hold the launch's cells: its fields are as many as it may have, or no further one is free (R357)? -/
def State.noGrid (s : State) (l : Launch) (new : List Nat) : Bool :=
  new.length == (fld (l.word 1) 8 8).toNat || (s.freeFields l.vi l.asid l.unb).all new.contains

/-- The cells after tiles have left: patched, or spread again (R414). -/
def State.patchAll (s : State) (id : Nat) (l : Launch) : List Nat → Option (Sparse Nat)
  | [] => some l.cells
  | x :: r =>
    match s.patchCell id l x with
    | some m => s.patchAll id { l with cells := m } r
    | none => placeCells l l.fields (fun x => (s.tile x).launch == some id && (s.tile x).grantable)

/-- STEP_PHASE_COMPLETE (R109): `add` and `drop` are what the scheduler changes. A launch that a rehome event waits for
stays at its boundary until the event has run (R285). With cells that the fields do not hold, more fields are to be added; when
that cannot be, the launch completes with STATUS 0x01 and DETAIL 1 (R357, R414). When no field of before remains, the free
lines go to the lowest of those that are added. (DESIGN CHOICE, log 119.) -/
def execStepPhaseComplete (launch : Nat) (add drop : List Nat) (s : State) : Out :=
  match s.launch? launch with
  | none => .next s
  | some l =>
    if !l.stepDone || l.cells.isEmpty then .next s
    else if s.rehomeHolds l then .next (s.modLaunch launch (fun l => { l with boundary := true }))
    else
      let new := (l.fields.filter (fun f => !drop.contains f)) |> (add.foldl (fun m f => sinsert f m) ·)
      let out := (s.retirees launch).filter (fun x => !drop.contains (siteField x))
      let leave := out ++ (drop.map fieldSites).flatten.filter (fun x => (s.tile x).launch == some launch)
      if !s.changeOk l new add drop || leave.any (fun x => !(s.tile x).quiet || !s.stepEnds x) then .next s
      else
        let low := (l.fields.filter (fun f => !drop.contains f)).headD (new.headD 0)
        let t := drop.foldl (fun t f => t.withdraw launch l low f) s
        let t := out.foldl (fun t x => t.leaveTile launch x) t
        let t := add.foldl (fun t f => t.joinField launch l f []) t
        let l' := { l with fields := new }
        let cells := if add.isEmpty && drop.isEmpty then t.patchAll launch l' out
          else placeCells l' new (fun x => (t.tile x).launch == some launch && (t.tile x).grantable)
        match cells with
        | none => .next (if s.noGrid l new then s.dropLaunch launch (some (0x01, 1)) else s)
        | some m =>
          let t := t.modLaunch launch (fun l =>
            { l with fields := new, cells := m, stepPh := l.stepPh + 1, stepArr := [], boundary := false })
          .next ((t.regrid launch).reband launch)

/-! ## Launches that reach no boundary (R285, R413) -/

/-- Ask every tile of a launch to save (R276). -/
def State.preemptLaunch (s : State) (id : Nat) : State :=
  ((s.tiles.filter (fun p => p.2.launch == some id)).map Prod.fst).foldl (fun s x => s.askPreempt x) s

/-- REHOME_STEP_TIMEOUT (R285). -/
def execRehomeStepTimeout (launch : Nat) (s : State) : Out :=
  match s.launch? launch with
  | none => .next s
  | some l =>
    .next (if s.rehomeLate l then s.preemptLaunch launch else s)

/-- The cells of a launch once a pre-empted tile has left it: patched, or spread again (R414). With neither possible its
cell is no longer part of the grid (DESIGN CHOICE, log 22). -/
def State.cellsAfter (s : State) (id : Nat) (l : Launch) (site : Nat) : Sparse Nat :=
  match s.patchCell id l site with
  | some m => m
  | none => (placeCells l l.fields (fun x => x != site && s.ofLaunch id x && (s.tile x).grantable)).getD
      (l.cells.filter (fun p => p.2 != site))

/-- A retiring tile that was pre-empted leaves: its contexts run again from their start, as after an abort (R272), on the
tile that takes its cell or on another of its class, its messages go back, and the launch's tasks see their place among
the cells (R413, R414). -/
def State.retireAway (s : State) (id : Nat) (l : Launch) (im : Image) : State :=
  let cells := s.cellsAfter id l im.site
  let k := (l.cells.find? (fun p => p.2 == im.site)).map Prod.fst
  let goal := match k.bind (fun k => sget? k cells) with
    | some x => [x]
    | none => s.classMates id im.site
  let s := s.modLaunch id (fun l => { l with cells := cells, aborts := l.aborts + BitVec.ofNat 32 im.ctxs.length })
  let s := im.msgs.foldl (fun s m => (s.loseTask m).bounce m.msg .localrange 2) s
  let s := (im.ctxs.foldl (fun s c => s.takeHeld im.site c) s).modTile im.site (·.count 10 im.ctxs.length)
  let s := { s with
    images := s.images.filter (fun (i : Image) => !i.isOf im.site id)
    luTasks := s.luTasks ++ im.ctxs.map (fun (c : Ctx) => ({ task := c.task, site := im.site, state := .queued } : LuTask)) }
  let s := s.resite id im.site goal
  let s := (s.modVI im.vi (fun v => { v with imgused := v.imgused - BitVec.ofNat 32 im.units })).retired im.site
  (s.regrid id).reband id

/-- RETIREMENT_STEP_TIMEOUT (R413): a launch that has not reached its step is pre-empted, and the retiring tiles leave it
then; one that has lets them go at the step. -/
def execRetirementStepTimeout (launch : Nat) (s : State) : Out :=
  match s.launch? launch with
  | none => .next s
  | some l =>
    let late (x : Nat) : Bool := match (s.tile x).leaving with
      | some t0 => decide (t0 + tenMs ≤ s.refTicks)
      | none => false
    match s.images.filter (fun i => i.launch == launch && i.away && late i.site) with
    | [] => if !l.atStep && (s.retirees launch).any late then .next (s.preemptLaunch launch) else .next s
    | ims => .next (ims.foldl (fun s i => s.retireAway launch ((s.launch? launch).getD l) i) s)

/-! ## Moving an unbacked page (R287, R294) -/

/-- Do lines fit a field's reservation (R289), charged there one by one while their old charge still stands (R294)? -/
def State.fits (s : State) (f asid : Nat) : List L2Line → Bool
  | [] => true
  | l :: r => s.canPlace f asid l.key &&
      ({ s with l2 := s.l2 ++ [{ l with field := f, slice := s.homeSlice f l.key }] } : State).fits f asid r

/-- Rewrite the entries of a page. -/
def State.rewritePte (s : State) (p : Leaf) (g : Word → Word) : State :=
  let n := if pteSize p.pte = 1 ∨ pteSize p.pte = 3 then 16 else 1
  (List.range n).foldl (fun s i =>
    let at_ := p.pteAt + 8 * i
    s.lineWrite (.pa (at_ / 64)) (at_ % 64) (wordBytes (g (s.paWord at_)))) s

/-- HOME of an entry. -/
def setHome (f : Nat) (e : Word) : Word := (e &&& ~~~(0x7F#64 <<< 52)) ||| (BitVec.ofNat 64 (f % 128) <<< 52)

/-- Move an unbacked line to a field: it takes a way of its set there (R7, R294). -/
def State.moveLine (s : State) (f : Nat) (l : L2Line) : State :=
  let s := { s with l2 := s.l2.filter (·.key != l.key) }
  (s.makeRoom f l.key).l2put { l with field := f, slice := s.homeSlice f l.key }

/-- Move a page's lines, registrations and charge to a field; none when they do not fit (R294). -/
def State.movePage (s : State) (p : Leaf) (f : Nat) : Option State :=
  let mine := s.l2.filter (fun l => p.hasLine l.key)
  if s.fits f p.asid mine then
    let t := mine.foldl (fun s l => s.moveLine f l) s
    some ((t.rewritePte p (setHome f)).dropPage p.asid p.vpage p.span)
  else none

/-- PAGE_MIGRATION (R294): the first migration the field's rehome engine has queued. One whose page is no longer an
unbacked page of its own is over. None comes within a rehome event, which is one act; while an event only waits for its step
boundaries (R285) a migration may run. (DESIGN CHOICE, log 122.) -/
def execPageMigration (field : Nat) (s : State) : Out :=
  match (s.field field).migrations with
  | [] => .next s
  | m :: r =>
    let s := s.modField field (fun g => { g with migrations := r })
    let va : Word := BitVec.ofNat 64 (4096 * m.vpage)
    let sp : Space := { cluster := none, vi := m.vi, asid := m.asid }
    let s := s.walkErrors sp va
    match s.walk sp va with
    | .ok (p, _) =>
      if pteUnb p.pte then
        match s.movePage p m.target with
        | some t => .next t
        | none => .next (s.modVI m.vi (·.violate va 5 0))
      else .next s
    | .error _ => .next s

/-! ## The rehome event (R286, R287) -/

/-- The live field nearest to one (R287). -/
def State.nearestLive (s : State) (f : Nat) : Option Nat :=
  let d (g : Nat) : Nat := natDist (fieldXY f).1 (fieldXY g).1 + natDist (fieldXY f).2 (fieldXY g).2
  (s.liveFields.filter (· != f)).foldl (fun m g => match m with
    | none => some g
    | some b => if d g < d b then some g else some b) none

/-- Drop a page's lines, with their marks, their registrations and every copy that an L1 or a Croft core's cache holds, so
that the next access finds no page (R287). -/
def State.losePage (s : State) (p : Leaf) : State :=
  let keep (k : LineKey) : Bool := !p.hasLine k
  { s with
    l2 := s.l2.filter (fun l => keep l.key)
    tiles := s.tiles.map (fun q => (q.1, { q.2 with l1 := q.2.l1.filter (fun l => keep l.key) }))
    crofts := s.crofts.map (fun q => (q.1, { q.2 with cache := q.2.cache.filter (fun l => keep l.key) }))
    readers := s.readers.filter (fun r => keep r.1)
    poison := s.poison.filter keep
    weak := s.weak.filter keep
    bad := s.bad.filter keep }

/-- One page of a field that has lost its last slice (R287). (DEDUCED, log 53.) -/
def State.homelessPage (s : State) (f : Nat) (p : Leaf) : State :=
  match (s.nearestLive f).bind (s.movePage p) with
  | some t => t
  | none =>
    match (if pteLate p.pte then s.findFrame p.asid (pteSize p.pte) none else none) with
    | some (launch, frame) => s.convert p none launch frame
    | none =>
      let s := (s.losePage p).rewritePte p (fun e => e &&& ~~~1#64)
      let s := (s.dropPage p.asid p.vpage p.span).modVI p.vi (·.violate (BitVec.ofNat 64 (4096 * p.vpage)) 8 0)
      { s with launches := s.launches.map (fun q => if q.2.asid = p.asid ∧ q.2.vi = p.vi
          then (q.1, { q.2 with tainted := true }) else q) }

/-- Every unbacked page homed in a field, in increasing VA within each ASID (R287). -/
def State.pagesHomedAt (s : State) (f : Nat) : List Leaf :=
  s.allPages.filter (fun p => pteUnb p.pte && pteHome p.pte == f)

/-- Step 3 of R286: unbacked lines take their slice under the new divisor, those of spread pages their new field. All are
kept, also those that a smaller divisor brings into one set past the 12 ways of R289 or the 16 of R7. (DESIGN CHOICE, log 116.) -/
def State.rehomeLines (s : State) : State :=
  let spread (l : L2Line) : Option Nat := match l.key with
    | .pa _ => none
    | .unb asid n =>
      match (s.vis.findSome? (fun v =>
        if v.2.asid0.toNat ≤ asid ∧ asid < v.2.asid0.toNat + v.2.asidN.toNat then some v.1 else none)) with
      | none => none
      | some v => match s.walk { cluster := none, vi := v, asid := asid } (BitVec.ofNat 64 (64 * n)) with
        | .ok (p, _) => if pteHome p.pte = 127 then some (s.spreadField l.key.hash) else none
        | .error _ => none
  { s with l2 := s.l2.map (fun l => match l.key with
      | .pa _ => l
      | .unb _ _ =>
        let f := (spread l).getD l.field
        { l with field := f, slice := s.homeSlice f l.key }) }

/-- Is every affected launch at a step boundary, or pre-empted (R285)? -/
def State.atBoundaries (s : State) (f : Nat) : Bool :=
  s.launches.all (fun p => p.2.boundary || s.tiles.all (fun t => t.2.launch != some p.1) || !s.affected p.2 f)

/-- The dirty backed lines homed in some fields reach HBM (R286 step 2). -/
def State.fieldsToHbm (s : State) (fs : List Nat) : State :=
  let ps := s.allPages
  ((s.l2.map (·.key)).filter (fun k => fs.any (fun f => s.homedIn ps f k))).foldl (fun s k => s.toHbm k) s

/-- REHOME_EVENT (R286, R287): dirty backed lines reach HBM, unbacked lines move, the slices take their new set;
the wear log names the slices retired (R415). A field that loses its last slice takes in those that home spread lines, with the
retirements of their own that wait. Within step 3 the pages without a slice are placed first and the other lines move after.
(DESIGN CHOICE, log 116.) -/
def execRehomeEvent (field : Nat) (s : State) : Out :=
  let fs := s.rehomeFields field
  if (sget? field s.rehome).isNone || !fs.all s.atBoundaries then .next s
  else
    let s := s.fieldsToHbm fs
    let gone := fs.map (fun f => (f, bitList ((s.field f).live &&& ~~~(s.field f).enabled)))
    let s := fs.foldl (fun s f => s.modField f (fun g => { (g.count 6 1) with live := g.enabled })) s
    let s := fs.foldl (fun s f => if (s.field f).live = 0 then
        (s.pagesHomedAt f).foldl (fun s p => s.homelessPage f p) s
      else s) s
    let s := s.rehomeLines
    let s := { s with rehome := s.rehome.filter (fun p => !fs.contains p.1) }
    let s := gone.foldl (fun s p =>
      (p.2.foldl (fun s k => s.wearLog 3 p.1 k (leBytes 8 (bitList (s.field p.1).live).length)) s).settleField p.1) s
    .next { s with launches := s.launches.map (fun p =>
      if s.rehomeHolds p.2 then p else (p.1, { p.2 with boundary := false })) }

end Sys2Proof.Machine
end

