-- ==== Sys2Proof/Machine/Health.lean ====
section
/-! DEFINITION. Retention (R387), shadow latches (R388), the supply's droops (R306), guard-bands (R410), the wear log's
entries (R411) and the ageing of router names (R400). -/

namespace Sys2Proof.Machine

/-! ## Retention (R387) -/

/-- RETENTION_ENTRY: a tile idle for 2^16 ticks writes its L1 back and re-encodes for 8,192 ticks; the event after them
completes the entry. -/
def execRetentionEntry (site : Nat) (s : State) : Out :=
  let t := s.tile site
  match t.retain with
  | .active =>
    if t.launch.isSome && t.resident.isEmpty && t.inbox.isEmpty && decide (2 ^ 16 ≤ t.idle) then
      .next ((s.emptyL1 site).modTile site (fun t => { t with retain := .entering 8192 }))
    else .next s
  | .entering 0 => .next (s.modTile site (fun t => { t with retain := .retained }))
  | .entering (_ + 1) => .next s
  | .retained => .next s
  | .leaving _ => .next s

/-- Is a message on its way to the tile? -/
def State.messageFor (s : State) (site : Nat) : Bool :=
  s.mesh.any (fun f => match f with | .message t _ _ _ => t == site | _ => false)

/-- Does the Launch Unit keep a task that the tile is to run now (R270, R275)? -/
def State.queuedFor (s : State) (site : Nat) : Bool :=
  s.luTasks.any (fun t => t.state == .queued && t.site == site && (s.tile site).launch == some t.task.msg.launch &&
    (!t.task.atHorizon || s.lowest t.task.msg.vi t.task.msg.dom == some t.task.key))

/-- RETENTION_EXIT: a message that has arrived, at the tile or by a re-queue in its inbox or in the Launch Unit, starts the
re-encoding of 8,192 ticks; the event after them completes the exit, with the bit errors it corrected counted (R385). -/
def execRetentionExit (site : Nat) (s : State) : Out :=
  let t := s.tile site
  match t.retain with
  | .retained =>
    .next (if s.messageFor site || !t.inbox.isEmpty || s.queuedFor site then s.modTile site (fun t => { t with retain := .leaving 8192 }) else s)
  | .leaving 0 =>
    let n := t.weak.length
    let s := s.modTile site (fun t => { (t.count 13 n) with retain := .active, idle := 0, weak := [] })
    .next (match t.launch with
      | some l => if n = 0 then s else s.modLaunch l (fun l => { l with corrected := true })
      | none => s)
  | .leaving (_ + 1) => .next s
  | .active => .next s
  | .entering _ => .next s

/-! ## Shadow latches (R388) -/

/-- SHADOW_LATCH_REPLAY: one tick's replay, counted in TLATE; a second flag during it raises TIMING in the word of the
running task (which of its two streams is a choice, log 2) and marks the tile suspect. -/
def execShadowLatchReplay (site : Nat) (second : Bool) (s : State) : Out :=
  let late (t : Tile) : Tile := { (t.count 12 1) with
    tlate := if t.tlate = 0xFFFFFFFF then t.tlate else t.tlate + 1
    owed := t.owed + 1 }
  let s := s.modTile site late
  if second then
    match (s.tile site).cur.bind (fun k => (s.ctx? site k).map (fun c => (k, c))) with
    | some (k, c) =>
      let w := s.choose 2
      .next (w.2.abortFault site k { code := .timing } (c.pcOf (if w.1 = 0 then .A else .C)))
    | none => .next (s.modTile site (fun t => { t with status := if t.status = 0 then 1 else t.status }))
  else
    .next (match (s.tile site).launch with
      | some l => s.modLaunch l (fun l => { l with corrected := true })
      | none => s)

/-! ## The supply (R306, R409, R410) -/

/-- SUPPLY_DROOP: a cluster's tick takes `period`/256 of its nominal length, at most twice it; MARGIN is measured. -/
def execSupplyDroop (cluster : Nat) (period : Nat) (margin : BitVec 8) (s : State) : Out :=
  .next (s.modCluster cluster (fun c => { c with
    period := Nat.max 256 (Nat.min 512 period)
    marginNow := margin
    marginMin := if margin.ult c.marginMin then margin else c.marginMin }))

/-- Least MARGIN.MIN of a field's clusters. -/
def State.mmin (s : State) (f : Nat) : BitVec 8 :=
  ([0, 1, 2, 3].map (fun c => (s.cluster (4 * f + c)).marginMin)).foldl (fun m x => if x.ult m then x else m) 0xFF

/-- The clusters of a field whose MARGIN.MIN is below 32. -/
def State.lowClusters (s : State) (f : Nat) : BitVec 4 :=
  [0, 1, 2, 3].foldl (fun m c => if (s.cluster (4 * f + c)).marginMin.ult 32 then m ||| BitVec.twoPow 4 c else m) 0

/-- The estimate of every 720 power-on hours, when it is due (R412). -/
def State.lifeDue (s : State) : State :=
  if s.powerHours / 720 ≤ s.sec.lives then s
  else { s.lifeEstimate with sec := { s.lifeEstimate.sec with lives := s.powerHours / 720 } }

/-- GUARD_BAND_CHECK (R410), once in every 2^32 ref ticks, WORN by the ADD that the check leaves; the residual-life estimate that is due comes first (R412).
(DESIGN CHOICE, log 75.) -/
def execGuardBandCheck (field : Nat) (s : State) : Out :=
  let s := s.lifeDue
  let g := s.field field
  if s.refTicks < 2 ^ 32 * (g.checks + 1) then .next s
  else
    let m := s.mmin field
    let s := s.modField field (fun g => { g with mmin := m, checks := g.checks + 1 })
    if !m.ult 32 then .next s
    else
      let add := if g.add < g.ceil then g.add + Nat.min 5 (g.ceil - g.add) else g.add
      let s := if add = g.ceil then s.modField field (fun g => { g with worn := g.worn ||| s.lowClusters field }) else s
      if g.add < g.ceil then
        let s := s.modField field (fun g => { g with add := add, steps := g.steps + 1 })
        .next (s.wearLog 1 field 0 (leBytes 8 add)).lifeEstimate
      else .next s

/-! ## Router names (R400) -/

/-- An entry ages by one when another 2^16 ticks have passed since its last use. -/
def RouterName.grow (now : Nat) (n : RouterName) : RouterName :=
  if n.since + 2 ^ 16 * (n.age + 1) ≤ now then { n with age := n.age + 1 } else n

/-- ROUTER_ENTRY_AGING: each entry ages by its own unused ticks; at 15 it drops. -/
def execRouterEntryAging (field : Nat) (s : State) : Out :=
  .next (s.modField field (fun g => { g with
    names := (g.names.map (·.grow (s.routerTick field))).filter (fun n => decide (n.age < 15)) }))

end Sys2Proof.Machine
end

