-- ==== Sys2Proof/Machine/Driver.lean ====
section
/-! DEFINITION. What the driver asks of an interface through its page: task commands (R380, R382), shoot-downs (R375,
R376), the fault ring (R379), quotes (R404); and the router maps' vote (R417, R418). -/

namespace Sys2Proof.Machine

/-! ## Task commands (R380) -/

/-- A task of the Launch Unit as TCMD names it: parked or held, of this domain, with this TASKID. -/
def LuTask.named (vi dom : Nat) (task : BitVec 32) (t : LuTask) : Bool :=
  t.state != .queued && t.task.msg.vi == vi && t.task.msg.dom.toNat == dom && t.task.id == task

/-- A TCMD that finds no task (R380). -/
def State.tcmdMiss (s : State) (vi : Nat) : State := s.modVI vi (·.violate (pageAddr vi 0x80) 3 0)

/-- Release (R380, R382, R384): the task is QUEUED with repeat count 0, on the tile it last ran on, or, when that has
left the launch, on one of its class that the Launch Unit picks (log 2). There it starts from its snapshot, since its
inputs are not on that tile. (DESIGN CHOICE, log 45.) -/
def State.releaseLu (s : State) (t : LuTask) : State :=
  let s := { s with luTasks := s.luTasks.erase t }
  let task := { t.task with rep := 0 }
  let launch := task.msg.launch
  let away := s.images.any (fun (i : Image) => i.isOf t.site launch && i.away)
  let others := s.otherTiles launch t.site
  if (s.tile t.site).launch = some launch || away || others.isEmpty then s.requeue t.site task
  else
    let k := s.choose others.length
    k.2.requeue ((others[k.1]?).getD t.site) { task with again := task.snap.isSome }

/-- TCMD_RELEASE_TASK (R380). -/
def execTcmdReleaseTask (vi dom : Nat) (task : BitVec 32) (s : State) : Out :=
  match s.luTasks.find? (·.named vi dom task) with
  | some t => .next (s.releaseLu t)
  | none => .next (s.tcmdMiss vi)

/-- TCMD_CANCEL_TASK (R380): the task ends and its message is discarded. An error whose re-run it was to be then taints
the launch (R364). -/
def execTcmdCancelTask (vi dom : Nat) (task : BitVec 32) (s : State) : Out :=
  match s.luTasks.find? (·.named vi dom task) with
  | some t =>
    let launch := t.task.msg.launch
    let s := { s with luTasks := s.luTasks.erase t }
    let s := s.loseTask t.task
    .next ((s.modLaunch launch (fun l => { l with tasks := l.tasks + 1 })).reband launch)
  | none => .next (s.tcmdMiss vi)

/-- TCMD_RELEASE_PARKED (R380): every parked task of the ASID. -/
def execTcmdReleaseParked (vi asid : Nat) (s : State) : Out :=
  match s.luTasks.filter (fun t => t.state == .parked && t.task.msg.vi == vi &&
      (s.launch? t.task.msg.launch).map (·.asid) == some asid) with
  | [] => .next (s.tcmdMiss vi)
  | ts => .next (ts.foldl State.releaseLu s)

/-! ## Shoot-downs (R375, R376) -/

/-- The most shoot-downs of an interface outstanding. (DEDUCED, log 28.) -/
def shootMax : Nat := 16

/-- Has an interface this ASID (R351)? -/
def VI.hasAsid (v : VI) (asid : Nat) : Bool := decide (v.asid0.toNat ≤ asid) && decide (asid < v.asid0.toNat + v.asidN.toNat)

/-- A write of SHCMD starts a shoot-down; one of an ASID outside the range is logged and completes at once; a 17th
waits, and changes nothing yet. -/
def State.shootStart (s : State) (vi scope asid : Nat) : State :=
  let v := s.vi vi
  if scope != 2 && !v.hasAsid asid then
    s.modVI vi (fun v => { (v.violate (pageAddr vi 0x50) 2 0) with shdone := v.shdone + 1 })
  else if shootMax ≤ v.shoots.length then s
  else s.modVI vi (fun v => { v with
    shoots := v.shoots ++ [⟨scope, asid, (fld v.shva 12 45).setWidth 64 <<< 12, (fld v.shva 0 3).toNat⟩] })

/-- SHCMD_PAGE (R375). -/
def execShcmdPage (vi asid : Nat) (s : State) : Out := .next (s.shootStart vi 0 asid)
/-- SHCMD_ASID (R375). -/
def execShcmdAsid (vi asid : Nat) (s : State) : Out := .next (s.shootStart vi 1 asid)
/-- SHCMD_INTERFACE (R375). -/
def execShcmdInterface (vi : Nat) (s : State) : Out := .next (s.shootStart vi 2 0)

/-- The first 4 KiB page of a shoot-down's page, and the number of them. -/
def Shoot.page (x : Shoot) : Nat × Nat :=
  let n := sizePages x.size
  (x.va.toNat / 4096 / n * n, n)

/-- Does a shoot-down name an address space of its interface? -/
def Shoot.space (x : Shoot) (v : VI) (asid : Nat) : Bool := if x.scope = 2 then v.hasAsid asid else asid == x.asid

/-- Does a shoot-down name a TLB entry? -/
def Shoot.hitsTlb (x : Shoot) (vi : Nat) (v : VI) (e : TlbEntry) : Bool :=
  let p := x.page
  e.vi == vi && x.space v e.asid &&
    (x.scope != 0 || (decide (e.vpage < p.1 + p.2) && decide (p.1 < e.vpage + e.span)))

/-- Does a shoot-down name a pointer entry: for a page those on its path (R376)? -/
def Shoot.hitsWalk (x : Shoot) (vi : Nat) (v : VI) (e : WalkEntry) : Bool :=
  e.vi == vi && x.space v e.asid && (x.scope != 0 || e.pre == vaAbove x.va e.level)

/-- Does a shoot-down name a line of an address space? -/
def Shoot.hitsLine (x : Shoot) (v : VI) (asid line : Nat) : Bool :=
  let p := x.page
  x.space v asid && (x.scope != 0 || (decide (64 * p.1 ≤ line) && decide (line < 64 * (p.1 + p.2))))

/-- Does a page by which a walk found lines no longer map the frame that it mapped then: it is not present, is unbacked or
backed instead, or names another frame? -/
def State.leafGone (s : State) (e : Leaf) : Bool :=
  let va : Word := BitVec.ofNat 64 (4096 * e.vpage)
  match s.walk { cluster := none, vi := e.vi, asid := e.asid } va with
  | .ok (p, _) => pteUnb p.pte != pteUnb e.pte || (!pteUnb p.pte && p.pa va != e.pa va)
  | .error (.trap t) => t.code == .pagenp
  | .error _ => false

/-- Lines of a page whose entry has changed UNB or HOME are dropped, as `disc` would (R372): its unbacked lines, and the
lines of a frame by which a walk found the page before. What a shoot-down finds about a page stands from then on: a record
of a frame that the page no longer maps goes, since a change that comes later is not one of that frame's. (DEDUCED, log 29.) -/
def State.shootLines (s : State) (vi : Nat) (v : VI) (x : Shoot) : State :=
  let fresh : State := { s with leaves := s.leaves.filter (fun e => !(x.hitsTlb vi v e && s.leafGone e)) }
  if x.scope ≠ 0 then fresh
  else
    match s.walk { cluster := none, vi := vi, asid := x.asid } x.va with
    | .error _ => fresh
    | .ok (p, _) =>
      let moved (e : TlbEntry) : Bool := pteUnb e.pte != pteUnb p.pte || pteHome e.pte != pteHome p.pte
      let known := s.leaves.filter (fun e => x.hitsTlb vi v e && moved e)
      let stale (l : L2Line) : Bool := match l.key with
        | .unb asid line => x.hitsLine v asid line && (!pteUnb p.pte || s.homeField (pteHome p.pte) l.key != l.field)
        | .pa _ => known.any (fun e => Leaf.hasLine e l.key)
      let s := { s with leaves := fresh.leaves.filter (fun e => !known.contains e) }
      (s.l2.filter stale).foldl (fun s l => s.discard l.key) s

/-- SHOOTDOWN_COMPLETE (R376): the oldest one of an interface. -/
def execShootdownComplete (vi : Nat) (s : State) : Out :=
  let v := s.vi vi
  match v.shoots with
  | [] => .next s
  | x :: r =>
    let s := { s with clusters := s.clusters.map (fun (p : Nat × Cluster) => (p.1, { p.2 with
      tlb := p.2.tlb.filter (fun e => !x.hitsTlb vi v e), walks := p.2.walks.filter (fun e => !x.hitsWalk vi v e) })) }
    let s := s.tiles.foldl (fun s p =>
      (p.2.l1.filter (fun l => x.hitsLine v l.asid l.line)).foldl (fun s l => s.evictLine p.1 l) s) s
    let s := s.shootLines vi v x
    .next (s.modVI vi (fun v => { v with shoots := r, shdone := v.shdone + 1 }))

/-! ## The fault ring (R379) -/

/-- FRLOG as it reads (R378). -/
def VI.frlog (v : VI) : Nat := (fld v.frctl 16 4).toNat

/-- FAULT_RECORD_WRITE (R379): the oldest waiting record, when the ring has room. With EN = 0 no record is written: those
that waited are gone. -/
def State.writeFault (s : State) (vi : Nat) : State :=
  let v := s.vi vi
  match v.frpend with
  | [] => s
  | ws :: r =>
    if !v.frctl.getLsbD 0 then s.modVI vi (fun v => { v with frpend := [] })
    else if (v.frtail - v.frhead).toNat < 2 ^ v.frlog then
      let t := v.frtail.toNat
      let s := s.hbmWrite (v.frbase.toNat + 64 * (t % 2 ^ v.frlog)) (wordsBytes (withPhase ws t v.frlog))
      s.modVI vi (fun v => { v with frpend := r, frtail := v.frtail + 1, irqs := v.irqs ++ [fld v.frctl 8 8] })
    else s

/-- FAULT_RECORD_WRITE. -/
def execFaultRecordWrite (vi : Nat) (s : State) : Out := .next (s.writeFault vi)

/-- FRHEAD_WRITE (R379): entries come free, and waiting records are written. -/
def execFrheadWrite (vi : Nat) (val : BitVec 32) (s : State) : Out :=
  let s := s.modVI vi (fun v => { v with frhead := val })
  .next ((List.range (s.vi vi).frpend.length).foldl (fun s _ => s.writeFault vi) s)

/-! ## Quotes (R404) -/

/-- QCMD_QUOTE (R404). -/
def execQcmdQuote (vi : Nat) (s : State) : Out :=
  if (s.vi vi).quoting then .next (s.modVI vi (·.violate (pageAddr vi 0xA8) 3 0))
  else .next (s.modVI vi (fun v => { v with quoting := true }))

/-- The bytes of a measurement register. -/
def State.measBytes (s : State) (i : Nat) : List Byte := leBytes 64 (vget 0 s.sec.meas i).toNat

/-- Bytes 0x000 to 0x4BF of a quote. -/
def State.quoteBody (s : State) (vi : Nat) (nonce : List Byte) : List Byte :=
  leBytes 4 0x515A5653 ++ leBytes 4 1 ++ leBytes 8 vi ++ wordBytes s.gtime ++ wordBytes s.sec.grant ++
  leBytes 32 Config.identityKey.toNat ++ nonce ++ ((List.range 16).map s.measBytes).flatten ++
  leBytes 8 s.gradeNow ++ List.replicate 56 0

/-- QUOTE_COMPLETE (R404): all but the nonce is written, and performed in HBM. -/
def execQuoteComplete (vi : Nat) (s : State) : Out :=
  let v := s.vi vi
  if !v.quoting then .next s
  else
    let s := s.settleGrades
    let buf := v.qbuf.toNat
    let body := s.quoteBody vi (s.paRead (buf + 0x40) 64)
    let sig := leBytes 64 (Config.identitySign body).toNat
    let s := s.hbmWrite buf (body.take 0x40)
    let s := s.hbmWrite (buf + 0x80) (body.drop 0x80 ++ sig)
    .next (s.modVI vi (fun v => { v with quoting := false, qdone := v.qdone + 1 }))

/-! ## Router maps (R417, R418) -/

/-- MAPCTL_DISCARD. -/
def execMapctlDiscard (field : Nat) (s : State) : Out :=
  .next (s.modField field (fun g => { g with staged := [], mapst := 0 }))

/-- MAPCTL_CHECK_VOTE: accept when the staged map's CRC is the one expected. -/
def execMapctlCheckVote (field : Nat) (s : State) : Out :=
  .next (s.modField field (fun g => { g with mapst := if Config.crc32c g.staged = g.mapcrc then 2 else 3 }))

/-- A router rejects at attempt `n` of an update: counted and logged; the field of one that rejected all four is suspect
(R418). (DEDUCED, log 33.) -/
def State.mapReject (n : Nat) (s : State) (f : Nat) : State :=
  let g := s.field f
  let s := s.modField f (fun g => { g with rej := g.rej + 1, attempts := g.attempts + 1 })
  let s := s.wearLog 5 f 0 (leBytes 8 n ++ leBytes 4 (Config.crc32c g.staged).toNat)
  if n = 4 ∧ g.attempts = 3 then (s.modField f (fun g => { g with suspect := true })).fallOut f else s

/-- The vote is over: every router's staged map is gone, and the attempts of the update stand at `n`, each router's own at
what `count` says. -/
def State.voteOver (s : State) (n : Nat) (count : Nat → Field → Nat) (install : Bool) : State :=
  { (List.range Config.fields).foldl (fun s f => s.modField f (fun g =>
      { g with installed := if install then g.staged else g.installed, staged := [], mapst := 0, attempts := count f g })) s with
    mapTries := n }

/-- MAP_VOTE_COMPLETE: once every router has voted, all install the new map or all discard it. An update is known by the
CRCs that its maps are to have; after its fourth attempt it is over. -/
def execMapVoteComplete (s : State) : Out :=
  let fs := List.range Config.fields
  if !fs.all (fun f => (s.field f).mapst == 2 || (s.field f).mapst == 3) then .next s
  else
    match fs.filter (fun f => (s.field f).mapst == 3) with
    | [] => .next (s.voteOver 0 (fun _ _ => 0) true)
    | rej =>
      let crcs := fs.map (fun f => (s.field f).mapcrc)
      let again := decide (0 < s.mapTries) && crcs == s.mapCrcs
      let n := if again then s.mapTries + 1 else 1
      let s := if again then s
        else fs.foldl (fun s f => s.modField f (fun g => { g with attempts := 0 })) { s with mapCrcs := crcs }
      let s := rej.foldl (State.mapReject n) s
      .next (if 4 ≤ n then s.voteOver 0 (fun _ _ => 0) false
        else s.voteOver n (fun f g => if rej.contains f then g.attempts else 0) false)

end Sys2Proof.Machine
end

