-- ==== Sys2Proof/Machine/Regs.lean ====
section
/-! DEFINITION. The registers that software reads and writes: the interfaces' pages (R351, R352, R360, R361, R375, R378,
R380, R404), configuration space (R395, R400 to R403, R407, R409, R416, R417), REGISTER_WRITE (R2), and root-port DMA
(R405). -/

namespace Sys2Proof.Machine

/-- The state after an event. -/
def stateOf (s : State) (o : Out) : State :=
  match o with
  | .next t => t
  | _ => s

/-! ## Register pages: reads -/

/-- VIINFO (R351). -/
def VI.info (v : VI) (n : Nat) : Word :=
  BitVec.ofNat 64 (n % 64 + 2 ^ 8 * 32 + 2 ^ 16 * v.asid0.toNat + 2 ^ 32 * v.asidN.toNat)

/-- QCTL (R352). -/
def Queue.ctl (q : Queue) : Word :=
  BitVec.ofNat 64 (2 ^ 28 * q.asid.toNat + 2 ^ 20 * q.ivec.toNat + 2 ^ 16 * q.cqlog.toNat) |||
    (BitVec.ofBool q.dev ++ BitVec.ofBool q.en).setWidth 64

/-- A register of queue `q` at offset `o` of its eight doublewords (R352). -/
def State.queueReg (s : State) (vi q o : Nat) : Word :=
  let x := (s.vi vi).queue q
  match o with
  | 0x00 => x.ctl
  | 0x08 => BitVec.ofNat 64 x.free
  | 0x10 => x.cqbase.setWidth 64
  | 0x18 => x.cqhead.setWidth 64
  | 0x20 => x.cqtail.setWidth 64
  | 0x28 => x.qseq.setWidth 64
  | 0x30 => if s.headHeld vi q then 1 else 0
  | _ => 0

/-- Does the page hold a register at this offset? (DESIGN CHOICE, log 20.) -/
def pageHas (off : Nat) : Bool :=
  off % 8 == 0 && (decide (off ≤ 0x30) || (decide (0x40 ≤ off) && decide (off ≤ 0x98)) ||
    (decide (0xA0 ≤ off) && decide (off ≤ 0xB0)) || (decide (0x100 ≤ off) && decide (off < 0x180)) ||
    (decide (0x800 ≤ off) && decide (off < 0x1000)))

/-- Is the register only written (R351, R375, R380, R404)? -/
def pageWriteOnly (off : Nat) : Bool := off == 0x28 || off == 0x50 || off == 0x80 || off == 0xA8

/-- The value of a register that can be read. -/
def State.pageVal (s : State) (vi off : Nat) : Word :=
  let v := s.vi vi
  match off with
  | 0x000 => v.info vi
  | 0x008 => BitVec.ofNat 64 v.tokcap
  | 0x010 => (fld v.fmask 0 64 : Word)
  | 0x018 => (fld v.fmask 64 20 : BitVec 20).setWidth 64
  | 0x020 => v.unbset
  | 0x030 => v.vlogidx.setWidth 64
  | 0x040 => v.roottab
  | 0x048 => v.shva
  | 0x058 => v.shdone.setWidth 64
  | 0x060 => v.frbase
  | 0x068 => v.frctl
  | 0x070 => v.frhead.setWidth 64
  | 0x078 => v.frtail.setWidth 64
  | 0x088 => v.imgbase
  | 0x090 => v.imglen.setWidth 64
  | 0x098 => v.imgused.setWidth 64
  | 0x0A0 => v.qbuf
  | 0x0B0 => v.qdone.setWidth 64
  | _ =>
    if off < 0x800 then
      let e := vget (0, 0) v.vlog ((off - 0x100) / 16)
      if off % 16 = 0 then e.1 else e.2
    else s.queueReg vi ((off - 0x800) / 64) (off % 64)

/-- A read of a page: a bad access is dropped and logged (R351). What it, and a read of a register that is only
written, answers is not stated: a free value (log 2). -/
def State.pageRead (s : State) (vi off : Nat) : Word × State :=
  if !pageHas off then (s.modVI vi (·.violate (pageAddr vi off) 1 0)).draw
  else if pageWriteOnly off then s.draw
  else (s.pageVal vi off, s)

/-! ## Register pages: writes -/

/-- A physical address that must lie in HBM (R378): a write that names anything else is ignored and logged. -/
def State.putPA (s : State) (vi off pa : Nat) (g : VI → VI) : State :=
  if pa < Config.hbmBytes then s.modVI vi g else s.modVI vi (·.violate (pageAddr vi off) 1 0)

/-- A write of LCMD (R360, R362). -/
def State.lcmdWrite (s : State) (vi : Nat) (val : Word) : State :=
  let q := (fld val 32 5).toNat
  let seq : BitVec 32 := fld val 0 32
  match (fld val 62 2).toNat with
  | 1 => stateOf s (execLcmdRelease vi q seq s)
  | 2 => stateOf s (execLcmdCancel vi q seq s)
  | _ => s

/-- A write of TCMD (R380). -/
def State.tcmdWrite (s : State) (vi : Nat) (val : Word) : State :=
  let dom := (fld val 40 8).toNat
  let task : BitVec 32 := fld val 0 32
  match (fld val 62 2).toNat with
  | 1 => stateOf s (execTcmdReleaseTask vi dom task s)
  | 2 => stateOf s (execTcmdCancelTask vi dom task s)
  | 3 => stateOf s (execTcmdReleaseParked vi (fld val 48 12).toNat s)
  | _ => s

/-- A write of SHCMD (R375); none while 16 shoot-downs are outstanding. -/
def State.shcmdWrite (s : State) (vi : Nat) (val : Word) : Option State :=
  let scope := (fld val 62 2).toNat
  let asid := (fld val 32 12).toNat
  let v := s.vi vi
  let full := decide (shootMax ≤ v.shoots.length)
  match scope with
  | 0 => if full && v.hasAsid asid then none else some (stateOf s (execShcmdPage vi asid s))
  | 1 => if full && v.hasAsid asid then none else some (stateOf s (execShcmdAsid vi asid s))
  | 2 => if full then none else some (stateOf s (execShcmdInterface vi s))
  | _ => some s

/-- FRLOG or CQLOG: 4 to 12, other values read as 4 (R352, R378). -/
def ringLog (v : Nat) : BitVec 4 := if 4 ≤ v ∧ v ≤ 12 then BitVec.ofNat 4 v else 4

/-- A write of QCTL (R352). (DEDUCED, log 27.) -/
def State.qctlWrite (s : State) (vi q off : Nat) (val : Word) : State :=
  let asid : BitVec 12 := fld val 28 12
  let ok := (s.vi vi).hasAsid asid.toNat
  let s := s.modQueue vi q (fun x => { x with
    asid := if ok then asid else x.asid
    ivec := fld val 20 8
    cqlog := ringLog (fld val 16 4).toNat
    dev := val.getLsbD 1
    en := val.getLsbD 0 })
  if ok then s else s.modVI vi (·.violate (pageAddr vi off) 2 q)

/-- A write of a queue's register (R352). -/
def State.queueWrite (s : State) (vi q off : Nat) (val : Word) : State :=
  match off % 64 with
  | 0x00 => s.qctlWrite vi q off val
  | 0x10 => s.modQueue vi q (fun x => { x with cqbase := val.setWidth 57 })
  | 0x18 => stateOf s (execCqheadWrite vi q (val.setWidth 32) s)
  | _ => s

/-- A write of a page; none when it waits as a store to a busy device does (R375). Writes of read-only registers are
ignored (R2). -/
def State.pageWrite (s : State) (vi off : Nat) (val : Word) : Option State :=
  let pa (m : Word) : Word := val &&& m
  if !pageHas off then some (s.modVI vi (·.violate (pageAddr vi off) 1 0))
  else match off with
  | 0x020 => some (stateOf s (execUnbsetWrite vi val s))
  | 0x028 => some (s.lcmdWrite vi val)
  | 0x040 => let a := pa 0x000FFFFFFFFFF000; some (s.putPA vi off a.toNat (fun v => { v with roottab := a }))
  | 0x048 => some (s.modVI vi (fun v => { v with shva := val &&& 0x01FFFFFFFFFFF007 }))
  | 0x050 => s.shcmdWrite vi val
  | 0x060 => let a := pa 0x000FFFFFFFFFF000; some (s.putPA vi off a.toNat (fun v => { v with frbase := a }))
  | 0x068 => some (s.modVI vi (fun v => { v with
      frctl := ((ringLog (fld val 16 4).toNat).setWidth 64 <<< 16) ||| (val &&& 0xFF01) }))
  | 0x070 => some (stateOf s (execFrheadWrite vi (val.setWidth 32) s))
  | 0x080 => some (s.tcmdWrite vi val)
  | 0x088 => let a := pa 0x000FFFFFFFFF0000; some (s.putPA vi off a.toNat (fun v => { v with imgbase := a }))
  | 0x090 => some (s.modVI vi (fun v => { v with imglen := val.setWidth 32 }))
  | 0x0A0 => let a := pa 0x000FFFFFFFFFFFC0; some (s.putPA vi off (a.toNat + 1279) (fun v => { v with qbuf := a }))
  | 0x0A8 => some (if val.getLsbD 0 then stateOf s (execQcmdQuote vi s) else s)
  | _ => some (if off < 0x800 then s else s.queueWrite vi ((off - 0x800) / 64) off val)

/-! ## Configuration space (R395) -/

/-- The field at field coordinates (R11). -/
def fieldAt (fx fy : Nat) : Option Nat := (List.range Config.fields).find? (fun f => fieldXY f == (fx, fy))

/-- The site of a tile instance 80·y + x (R395). -/
def siteOfInst (k : Nat) : Option Nat :=
  let x := k % 80
  let y := k / 80
  (fieldAt (x / 8) (y / 8)).map (fun f => 64 * f + 16 * (x / 4 % 2 + 2 * (y / 4 % 2)) + (x % 4 + 4 * (y % 4)))

/-- A unit that configuration space names. -/
inductive CfgUnit where
  | tile (site : Nat)
  | field (f : Nat)
  | rim (k : Nat)
  | router (f : Nat)
  | lu (vi : Nat)
  | port (k : Nat)
  | link (k : Nat)
  | sec
deriving DecidableEq, Repr

/-- The unit of an address (R395). -/
def cfgUnit (a : BitVec 32) : Option CfgUnit :=
  let k := (fld a 8 16).toNat
  let below (n : Nat) (u : CfgUnit) : Option CfgUnit := if k < n then some u else none
  match (fld a 24 8).toNat with
  | 1 => (siteOfInst k).map .tile
  | 2 => below Config.fields (.field k)
  | 3 => below 24 (.rim k)
  | 4 => below Config.fields (.router k)
  | 5 => below 64 (.lu k)
  | 6 => below 8 (.port k)
  | 7 => below 16 (.link k)
  | 8 => below 1 .sec
  | _ => none

/-- Does the unit hold a register at an offset? -/
def CfgUnit.has (u : CfgUnit) (o : Nat) : Bool :=
  match u with
  | .tile _ => decide (o ≤ 0x30)
  | .field _ => decide (o ≤ Config.offSlices) || (decide (Config.offCounters ≤ o) && decide (o < Config.offCounters + 0x98))
  | .rim _ => o == Config.offTrain || (decide (Config.offCounters ≤ o) && decide (o < Config.offCounters + 0x50))
  | .router _ => o == Config.offPurge || (decide (Config.offStage ≤ o) && decide (o ≤ 0x30))
  | .lu _ => decide (o ≤ Config.offPorts)
  | .port _ => o == Config.offPort
  | .link _ => o == Config.offLink || o == Config.offRoute
  | .sec => decide (o ≤ 0x20)

/-- The unit and offset of an access, with its checks (R395). -/
def cfgPlace (a : BitVec 32) : Try (CfgUnit × Nat) := do
  let o := (fld a 0 8).toNat
  need (o % 8 == 0) .align 0 (a.setWidth 64)
  match cfgUnit a with
  | some u => if u.has o then .ok (u, o) else trapWith .prot 7 (a.setWidth 64)
  | none => trapWith .prot 7 (a.setWidth 64)

/-- A byte-strided list of counter events. -/
def selWord {n : Nat} (sel : Vector (BitVec 6) n) (from_ : Nat) : Word :=
  leWord ((List.range 8).map (fun i => (vget 0 sel (from_ + i)).setWidth 8))

/-- Counter events from a word: 8, or as many as the word's counters. -/
def selPut {n : Nat} (sel : Vector (BitVec 6) n) (from_ k : Nat) (w : Word) : Vector (BitVec 6) n :=
  (List.range k).foldl (fun v i => vput v (from_ + i) (fld w (8 * i) 6)) sel

/-- Registers of a tile unit (R395). -/
def Tile.cfgVal (t : Tile) (o : Nat) : Word :=
  match o with
  | 0x00 => (BitVec.ofBool t.named ++ t.name).setWidth 64
  | 0x08 => t.status.setWidth 64
  | 0x10 => (t.cntOvf.setWidth 64 <<< 40) ||| (t.cntEn.setWidth 64 <<< 32) ||| (selWord t.cntSel 0 &&& 0xFFFFFFFF)
  | _ => (vget 0 t.cnt ((o - 0x18) / 8)).setWidth 64

/-- Registers of a field unit (R302, R403, R407, R409). -/
def Field.cfgVal (g : Field) (o : Nat) : Word :=
  if o = Config.offGband then BitVec.ofNat 64 (g.ceil % 256 * 256 + g.add % 256)
  else if o = Config.offWearst then (g.worn ++ g.steps ++ g.mmin).setWidth 64
  else if o = Config.offBaseShare then BitVec.ofNat 64 g.drover.share
  else if o = Config.offEpoch then g.epoch.getD 0
  else if o = Config.offSlices then g.enabled.setWidth 64
  else if o = Config.offCounters then (g.cntOvf ++ g.cntEn).setWidth 64
  else if o = Config.offCounters + 8 then selWord g.cntSel 0
  else if o = Config.offCounters + 16 then selWord g.cntSel 8
  else (vget 0 g.cnt ((o - Config.offCounters - 24) / 8)).setWidth 64

/-- Registers of a rim controller (R402, R407). -/
def Rim.cfgVal (r : Rim) (o : Nat) : Word :=
  if o = Config.offTrain then (BitVec.ofBool r.failed ++ BitVec.ofBool r.trained).setWidth 64
  else if o = Config.offCounters then (r.cntOvf ++ 0#8 ++ r.cntEn).setWidth 64
  else if o = Config.offCounters + 8 then selWord r.cntSel 0
  else (vget 0 r.cnt ((o - Config.offCounters - 16) / 8)).setWidth 64

/-- Registers of the Launch Unit (R401). -/
def VI.cfgVal (v : VI) (o : Nat) : Word :=
  if o = Config.offFmask0 then (fld v.fmask 0 64 : Word)
  else if o = Config.offFmask1 then (fld v.fmask 64 20 : BitVec 20).setWidth 64
  else if o = Config.offTokcap then BitVec.ofNat 64 v.tokcap
  else if o = Config.offAsids then BitVec.ofNat 64 (v.asid0.toNat + 2 ^ 16 * v.asidN.toNat)
  else v.ports.setWidth 64

/-- The root port's register: its ASID (R405). -/
def Port.cfgVal (p : Port) : Word := BitVec.ofNat 64 (2 ^ 16 * (p.asid % 4096))

/-- `cfgrd` (R395). What a register that is only written answers is not stated: a free value (log 2). -/
def State.cfgRead (s : State) (a : BitVec 32) : Try (Word × State) := do
  let (u, o) ← cfgPlace a
  match u with
  | .tile site => .ok ((s.tile site).cfgVal o, s)
  | .field f => .ok ((s.field f).cfgVal o, s)
  | .rim k => .ok ((sget ({} : Rim) k s.rims).cfgVal o, s)
  | .router f =>
    let g := s.field f
    if o = 0x20 then .ok (g.mapcrc.setWidth 64, s)
    else if o = 0x30 then .ok ((g.rej ++ 0#6 ++ g.mapst).setWidth 64, s)
    else .ok s.draw
  | .lu v => .ok ((s.vi v).cfgVal o, s)
  | .port k => .ok ((sget ({} : Port) k s.ports).cfgVal, s)
  | .link k =>
    let l := sget ({} : Link) k s.links
    if o = Config.offLink then .ok ((BitVec.ofBool l.up ++ 0#11 ++ l.number).setWidth 64, s) else .ok s.draw
  | .sec =>
    if o = 0x20 then
      let s := s.settleGrades
      .ok (BitVec.ofNat 64 (s.gradeNow % 256), s)
    else .ok ((Config.identityKey.extractLsb' (8 * o) 64), s)

/-- A write of a tile's STATE (R395, R413). Writing 2 retires the tile: one that a launch holds, or is to come back to,
leaves that launch first, and its name goes once none does (log 22). -/
def State.tileStateWrite (s : State) (site : Nat) (v : BitVec 2) : State :=
  let t := s.tile site
  if v ≠ 2 then s.modTile site (fun t => { t with status := v, leaving := none })
  else if t.status = 2 then s
  else
    (s.modTile site (fun t => { t with status := 2, was := t.status, leaving := some s.refTicks })).retired site

/-- A write of a tile unit's register (R395, R407). -/
def State.tileWrite (s : State) (site o : Nat) (v : Word) : State :=
  let f := siteField site
  match o with
  | 0x00 => ((s.settleField f).modTile site (fun t =>
      { t with named := v.getLsbD 16, name := v.setWidth 16 })).settleField f
  | 0x08 => ((s.settleField f).tileStateWrite site (v.setWidth 2)).settleField f
  | 0x10 => s.modTile site (fun t => { t with
      cntOvf := t.cntOvf &&& ~~~(fld v 40 4), cntEn := fld v 32 4, cntSel := selPut t.cntSel 0 4 v })
  | _ => s.modTile site (fun t => { t with cnt := vput t.cnt ((o - 0x18) / 8) (v.setWidth 48) })

/-- Where the exchange leaves the fields' copies of GTIME is not stated, within TSKEW: free values (log 2). -/
def State.spreadTime (s : State) : State :=
  (List.range Config.fields).foldl (fun s f =>
    let (x, s) := s.draw
    s.modField f (fun g => { g with lag := x.toNat % (s.tskew.toNat + 1) })) s

/-- An epoch is written (R403). Once every field holds the same one the exchange runs: GTIME starts at the epoch, never
stepping back (R308), and TSKEW takes a bound that is not stated: a free value other than 0xFFFF (log 2). Once time is
synchronised no write steps it. -/
def State.epochWrite (s : State) (f : Nat) (v : Word) : State :=
  let s := s.modField f (fun g => { g with epoch := some v })
  if s.tskew = 0xFFFF ∧ (List.range Config.fields).all (fun k => (s.field k).epoch == some v) then
    let (x, s) := s.draw
    ({ s with
      gtime := if s.gtime.ule v then v else s.gtime
      tskew := BitVec.ofNat 16 (x.toNat % 65535) } : State).spreadTime
  else s

/-- A write of the slice enables: the live set follows at the rehome event (R285, R415). -/
def State.slicesWrite (s : State) (f : Nat) (v : BitVec 16) : State :=
  let s := s.modField f (fun g => { g with enabled := v })
  if (s.field f).live = v then { s with rehome := sdel f s.rehome }
  else { s with rehome := sset f (sget s.refTicks f s.rehome) s.rehome }

/-- A write of a field unit's register (R302, R403, R407, R409, R415). -/
def State.fieldWrite (s : State) (f o : Nat) (v : Word) : State :=
  if o = Config.offGband then s.modField f (fun g => { g with ceil := Nat.min 100 (fld v 8 8).toNat })
  else if o = Config.offWearst then s.modField f (fun g => { g with worn := g.worn &&& ~~~(fld v 16 4) })
  else if o = Config.offBaseShare then s.setShare f (fld v 0 18).toNat
  else if o = Config.offEpoch then s.epochWrite f v
  else if o = Config.offSlices then s.slicesWrite f (v.setWidth 16)
  else if o = Config.offCounters then
    s.modField f (fun g => { g with cntOvf := g.cntOvf &&& ~~~(fld v 16 16), cntEn := v.setWidth 16 })
  else if o = Config.offCounters + 8 then s.modField f (fun g => { g with cntSel := selPut g.cntSel 0 8 v })
  else if o = Config.offCounters + 16 then s.modField f (fun g => { g with cntSel := selPut g.cntSel 8 8 v })
  else s.modField f (fun g => { g with cnt := vput g.cnt ((o - Config.offCounters - 24) / 8) (v.setWidth 48) })

/-- A stack trains, or fails to; which is a choice (log 2). One that has failed stays untrained. The wear log records a
failure (R402). -/
def State.trainStack (s : State) (k : Nat) : State :=
  if (sget ({} : Rim) k s.rims).failed then s else
  let c := s.choose 2
  let ok := c.1 == 0
  let s := c.2
  let r := sget ({} : Rim) k s.rims
  let s := { s with rims := sset k { r with trained := ok, failed := !ok } s.rims }
  if ok then s else s.wearLog 8 0xFFFF 0 (leBytes 8 k)

/-- A write of a rim controller's register (R402, R407). -/
def State.rimWrite (s : State) (k o : Nat) (v : Word) : State :=
  let r := sget ({} : Rim) k s.rims
  let put (r : Rim) : State := { s with rims := sset k r s.rims }
  if o = Config.offTrain then (if v.getLsbD 0 then s.trainStack k else s)
  else if o = Config.offCounters then put { r with cntOvf := r.cntOvf &&& ~~~(fld v 16 8), cntEn := v.setWidth 8 }
  else if o = Config.offCounters + 8 then put { r with cntSel := selPut r.cntSel 0 8 v }
  else put { r with cnt := vput r.cnt ((o - Config.offCounters - 16) / 8) (v.setWidth 48) }

/-- A write of a router unit's register (R400, R417). -/
def State.routerWrite (s : State) (f o : Nat) (v : Word) : State :=
  if o = Config.offPurge then
    s.modField f (fun g => { g with names := g.names.filter (fun n => n.name != v.setWidth 16) })
  else if o = Config.offStage then
    s.modField f (fun g => { g with staged := g.staged ++ wordBytes v, mapst := 1 })
  else if o = 0x20 then s.modField f (fun g => { g with mapcrc := v.setWidth 32 })
  else if o = 0x28 then
    match (fld v 0 2).toNat with
    | 1 => stateOf s (execMapctlDiscard f s)
    | 2 => stateOf s (execMapctlCheckVote f s)
    | _ => s
  else s

/-- A token cap: at most the module's budget (R7, R351). -/
def capOf (v : BitVec 18) : Nat := Nat.min v.toNat 196608

/-- A write of the Launch Unit's set-up of an interface (R401). A cap above the budget is taken as the budget (DESIGN
CHOICE, log 86). -/
def VI.luWrite (v : VI) (o : Nat) (w : Word) : VI :=
  if o = Config.offFmask0 then { v with fmask := (fld v.fmask 64 20 : BitVec 20) ++ w }
  else if o = Config.offFmask1 then { v with fmask := (w.setWidth 20) ++ (fld v.fmask 0 64 : BitVec 64) }
  else if o = Config.offTokcap then { v with tokcap := capOf (fld w 0 18) }
  else if o = Config.offAsids then { v with asid0 := fld w 0 12, asidN := fld w 16 12 }
  else { v with ports := w.setWidth 8 }

/-- `cfgwr` (R395). -/
def State.cfgWrite (s : State) (a : BitVec 32) (v : Word) : Try State := do
  let (u, o) ← cfgPlace a
  match u with
  | .tile site => .ok (s.tileWrite site o v)
  | .field f => .ok (s.fieldWrite f o v)
  | .rim k => .ok (s.rimWrite k o v)
  | .router f => .ok (s.routerWrite f o v)
  | .lu k => .ok (s.modVI k (·.luWrite o v))
  | .port k =>
    .ok { s with ports := sset k { sget ({} : Port) k s.ports with asid := (fld v 16 12).toNat } s.ports }
  | .link k =>
    let l := sget ({} : Link) k s.links
    let l := if o = Config.offLink then { l with number := v.setWidth 21, up := v.getLsbD 32 }
      else { l with routes := l.routes ++ [v.setWidth 21] }
    .ok { s with links := sset k l s.links }
  | .sec => .ok s

/-- REGISTER_WRITE (R2): a write that waits, or that names no register of configuration space, changes nothing. -/
def execRegisterWrite (r : RegRef) (val : BitVec 64) (s : State) : Out :=
  match r with
  | .page vi off => .next ((s.pageWrite vi off.toNat val).getD s)
  | .cfg a => match s.cfgWrite a val with
    | .ok t => .next t
    | .error _ => .next s

/-! ## Root-port DMA (R405) -/

/-- A DMA whose address lies in a root port's window is peer-to-peer traffic, which is not supported (R405). -/
def noPeer (k : LineKey) : Try Unit :=
  match k with
  | .pa n => if Config.portBase ≤ 64 * n ∧ 64 * n < Config.portBase + 8 * 2 ^ 45
      then .error (.refuse (.rootPortWindow ((64 * n - Config.portBase) / 2 ^ 45))) else .ok ()
  | .unb _ _ => .ok ()

/-- The bytes of a DMA read: backed lines from HBM, unbacked ones from their home slices (R316), and whether any of them
is poisoned (R386, R402). -/
def State.dmaRead (s : State) (sp : Space) : List (Word × Nat) → Try (List Byte × Bool × State)
  | [] => .ok ([], false, s)
  | (a, n) :: r => do
    let (_, k, s) ← s.reach sp .load a
    noPeer k
    let s := if k.isUnb then s.lineErrors k sp.launch else s
    let hurt := s.croftPoisoned k
    let l := s.croftLine k
    let (bs, bad, s) ← s.dmaRead sp r
    .ok (lineBytes l (a.toNat % 64) n ++ bs, hurt || bad, s)

/-- A DMA write, piece by piece through the home slices: the state after each number of pieces, and what stopped it. (DESIGN CHOICE, log 30.) -/
def State.dmaWrite (s : State) (sp : Space) : List (Word × Nat) → List Byte → List State × Option Stop
  | [], _ => ([s], none)
  | (a, n) :: r, bs =>
    match (do
        let (_, k, t) ← s.reach sp .store a
        noPeer k
        .ok (k, t) : Try (LineKey × State)) with
    | .error e => ([s], some e)
    | .ok (k, t) =>
      let (l, e) := (t.lineWrite k (a.toNat % 64) (bs.take n)).dmaWrite sp r (bs.drop n)
      (s :: l, e)

/-- The answer of a root port. -/
def State.portReply (s : State) (port : Nat) (bs : List Byte) (status : PortStatus) (poison : Bool := false) : State :=
  { s with ports := sset port { sget ({} : Port) port s.ports with reply := bs, status := status, poison := poison } s.ports }

/-- A DMA that stops: a translation fault completes as Completer Abort and is logged with code 7, peer-to-peer traffic as
Unsupported Request (R405). -/
def State.dmaStop (s : State) (port vi : Nat) (va : Word) (e : Stop) : State :=
  let s := match stopTrap e with
    | some t => s.modVI vi (·.violate (if t.addr = 0 then va else t.addr) 7 0)
    | none => s
  s.portReply port [] (match e with
    | .refuse _ => .unsupported
    | _ => .abort)

/-- The interface that owns a root port (R401). -/
def State.portOwner (s : State) (port : Nat) : Option Nat :=
  (s.vis.find? (fun p => decide (port < 8) && p.2.ports.getLsbD port)).map Prod.fst

/-- A DMA read of an owned port. -/
def State.dmaReadAt (s : State) (port vi : Nat) (sp : Space) (va : Word) (len : Nat) : State :=
  match s.dmaRead sp (pieces va len len) with
  | .ok (bs, bad, s) => s.portReply port bs .ok bad
  | .error e => s.dmaStop port vi va e

/-- A DMA write of an owned port. How much of one that faults was performed before is not stated: a choice (log 2). -/
def State.dmaWriteAt (s : State) (port vi : Nat) (sp : Space) (va : Word) (bs : List Byte) : State :=
  match s.dmaWrite sp (pieces va bs.length bs.length) bs with
  | (l, none) => (l.getLastD s).portReply port [] .ok
  | (l, some e) =>
    let c := s.choose l.length
    let t := (l[c.1]?).getD s
    ({ t with choices := c.2.choices } : State).dmaStop port vi va e

/-- ROOT_PORT_DMA (R401, R405): reads and writes in the owning interface's tables under the port's ASID, MSI-X writes, which
raise Croft interrupt vectors, and what is not supported. A port without an owner, or whose ASID is not its owner's, has no translation. -/
def execRootPortDma (port : Nat) (req : Dma) (s : State) : Out :=
  let asid := (sget ({} : Port) port s.ports).asid
  match req with
  | .peer => .next (s.portReply port [] .unsupported)
  | .ats => .next (s.portReply port [] .unsupported)
  | .msix vec =>
    let p := sget ({} : Port) port s.ports
    .next (({ s with ports := sset port { p with irqs := p.irqs ++ [vec] } s.ports } : State).portReply port [] .ok)
  | .read va len => .next (match s.portOwner port with
    | some vi => if (s.vi vi).hasAsid asid then s.dmaReadAt port vi { cluster := none, vi := vi, asid := asid } va len
        else s.dmaStop port vi va (.trap { code := .pagenp, detail := 5 })
    | none => s.portReply port [] .abort)
  | .write va bs => .next (match s.portOwner port with
    | some vi => if (s.vi vi).hasAsid asid then s.dmaWriteAt port vi { cluster := none, vi := vi, asid := asid } va bs
        else s.dmaStop port vi va (.trap { code := .pagenp, detail := 5 })
    | none => s.portReply port [] .abort)

end Sys2Proof.Machine
end

