-- ==== Sys2Proof/Machine/Boot.lean ====
section
/-! DEFINITION. BOOT (R391, R396 to R403, R410, R416): the ROM's stages at power good, and the stages that firmware runs
(log 23). -/

namespace Sys2Proof.Machine

/-! ## The wear log at boot (R411) -/

/-- An entry of the wear log as boot reads it. -/
structure WearEntry where
  kind  : Nat
  field : Nat
  value : List Byte
  sig   : List Byte
deriving DecidableEq, Repr

/-- A number from bytes at an offset. -/
def leAt (bs : List Byte) (o n : Nat) : Nat := leNat ((bs.drop o).take n)

/-- The trusted entries from entry `n` on (R411): a blank entry (kind 0) or one whose signature fails ends the chain. (DEDUCED, log 26.) -/
def wearScan (flash : Memory) : Nat → Nat → List Byte → List WearEntry
  | 0, _, _ => []
  | fuel + 1, n, prev =>
    let e := flash.readN (wearAt n) 128
    let kind := leAt e 16 2
    let sig := e.drop 64
    if kind != 0 && Config.ed25519Verify Config.identityKey (e.take 64 ++ prev) (BitVec.ofNat 512 (leNat sig)) then
      ⟨kind, leAt e 18 2, (e.drop 24).take 40, sig⟩ :: wearScan flash fuel (n + 1) sig
    else []

/-- The trusted chain. -/
def State.wearChain (s : State) : List WearEntry := wearScan s.flash (2 * wearChainMax) 0 (List.replicate 64 0)

/-- The highest counter of a kind. -/
def highest (kind : Nat) (l : List WearEntry) : Nat :=
  ((l.filter (·.kind == kind)).map (fun e => leAt e.value 0 8)).foldl Nat.max 0

/-! ## The ROM (R396 stages 1 to 3, R397) -/

/-- Where the slots, the grant and the naming plan lie in flash. -/
def slotA : Nat := 0
def slotB : Nat := 0x1000000
def grantAt : Nat := 0x2000000
def planAt : Nat := 0x2008000

/-- Is the slot's firmware one that the ROM accepts? -/
def State.slotOk (s : State) (slot : Nat) : Bool :=
  let h := s.flash.readN slot 104
  let len := leAt h 16 8
  let load := leAt h 24 8
  leAt h 0 4 == 0x465A5653 && leAt h 4 4 == 1 && decide (104 + len ≤ 0x1000000) &&
  decide (load + len ≤ Config.hbmBytes) &&
  Config.ed25519Verify Config.firmwareKey (h.take 40 ++ s.flash.readN (slot + 104) len)
    (BitVec.ofNat 512 (leAt h 40 64)) &&
  decide (highest 6 s.wearChain ≤ leAt h 8 8)

/-- Extend a measurement register with a 64-byte digest (R394, R396). -/
def State.extend (s : State) (i : Nat) (d : List Byte) : State :=
  { s with sec := { s.sec with meas := vput s.sec.meas i (Config.sha512 (s.measBytes i ++ d)) } }

/-- The 64 bytes of SHA-512 of a byte string. -/
def digest (bs : List Byte) : List Byte := leBytes 64 (Config.sha512 bs).toNat

/-- Load a slot and start it at level F. The power-on hours so far are not stated: a free value (log 2). -/
def State.loadSlot (s : State) (slot : Nat) : State :=
  let h := s.flash.readN slot 104
  let image := s.flash.readN (slot + 104) (leAt h 16 8)
  let s := (s.extend 0 (digest (h ++ image))).hbmWrite (leAt h 24 8) image
  let (hours, s) := s.draw
  let hours := (fld hours 0 24 : BitVec 24).toNat
  let s := { s with
    sec := { s.sec with fw := BitVec.ofNat 64 (leAt h 8 8), wear := s.wearChain.length, hours := hours, lives := hours / 720 }
    bootStage := 1 }
  s.modCroft 0 (fun c => { c with pc := BitVec.ofNat 64 (leAt h 32 8), level := true, held := false })

/-- The ROM: slot A, else slot B, else core 0 halts and reports 0xB1. -/
def State.rom (s : State) : State :=
  if s.slotOk slotA then s.loadSlot slotA
  else if s.slotOk slotB then s.loadSlot slotB
  else ({ s with bootCode := some 0xB1, bootStage := 2 } : State).modCroft 0 (fun c => { c with held := true })

/-! ## Firmware (R396 stages 4 to 6) -/

/-- The grant's bytes. -/
def State.grantBytes (s : State) : List Byte := s.flash.readN grantAt 960

/-- Is the grant valid (R399)? -/
def State.grantValid (s : State) : Bool :=
  let g := s.grantBytes
  leAt g 0 4 == 0x475A5653 && leAt g 4 4 == 1 && leAt g 0x10 32 == Config.identityKey.toNat &&
  Config.ed25519Verify Config.grantKey (g.take 0x380) (BitVec.ofNat 512 (leAt g 0x380 64)) &&
  decide (highest 7 s.wearChain ≤ leAt g 8 8)

/-- Stage 4: the grant, the naming plan and the head of the wear log are measured. -/
def State.measureAll (s : State) : State :=
  let n := s.sec.wear
  let head := if n = 0 then [] else s.flash.readN (wearAt (n - 1)) 128
  ((s.extend 1 (digest s.grantBytes)).extend 2 (digest (s.flash.readN planAt 0x8000))).extend 3 (digest head)

/-- The per-class minimums of R8. -/
def classMin : TileClass → Nat
  | .dt => 22
  | .st => 11
  | .at => 11
  | .vt => 15

/-- The first `classMin` sites of each class among those of a field that passed, lowest tile index first. Of the four clusters'
tiles of one index that of the lowest cluster goes first. (DESIGN CHOICE, log 23.) -/
def minimumSites (f : Nat) (passed : List Nat) : List Nat :=
  let order := (List.range 64).map (fun k => 64 * f + 16 * (k % 4) + k / 4)
  ([TileClass.dt, .st, .at, .vt].map (fun c =>
    (order.filter (fun x => siteClass x == c && passed.contains x)).take (classMin c))).flatten

/-- Run self-test on a list of units: which pass is a choice (log 2). -/
def State.selfTest (s : State) : List Nat → List Nat × State
  | [] => ([], s)
  | x :: r =>
    let c := s.choose 2
    let t := c.2.selfTest r
    (if c.1 = 0 then x :: t.1 else t.1, t.2)

/-- The default name of a site (R400). -/
def defaultName (site : Nat) : BitVec 16 := BitVec.ofNat 16 (0x8000 + site)

/-- Stage 5 for one field: self-test, tile STATE, slice enables, names (R399, R400). -/
def State.bringUpField (s : State) (valid : Bool) (f : Nat) : State :=
  let g := s.grantBytes
  let (passed, s) := s.selfTest (fieldSites f)
  let (slices, s) := s.selfTest (List.range 16)
  let bits := leAt g (0x38 + 8 * f) 8
  let on := if valid then passed.filter (fun x => bits.testBit (x % 64)) else minimumSites f passed
  let sl := if valid then slices.filter (fun k => (leAt g (0x2D8 + 2 * f) 2).testBit k) else slices
  let mask : BitVec 16 := sl.foldl (fun m k => m ||| BitVec.twoPow 16 k) 0
  let s := (fieldSites f).foldl (fun s x => s.modTile x (fun t => { t with
    status := if passed.contains x then 0 else 3
    named := on.contains x
    name := if on.contains x then defaultName x else 0 })) s
  s.modField f (fun g => { g with enabled := mask, live := mask })

/-- ADD of a field from its last guard-band entry (R410). -/
def addFrom (l : List WearEntry) (f : Nat) : Nat :=
  ((l.filter (fun e => e.kind == 1 && e.field == f)).getLast?.map (fun e => leAt e.value 0 8)).getD 0

/-- Append a counter to the wear log when it has risen (R411). -/
def State.logCounter (s : State) (kind : Nat) (l : List WearEntry) (v : Word) : State :=
  if highest kind l < v.toNat then s.wearLog kind 0xFFFF 0 (wordBytes v) else s

/-- Firmware writes the router maps (R396 stage 5). The form and contents of a map are not stated: a free value (log 23). -/
def State.writeMap (s : State) (f : Nat) : State :=
  let (x, s) := s.draw
  s.modField f (fun g => { g with installed := wordBytes x })

/-- Firmware sets up an interface (R396 stage 6, R401). Which fields, cap, ASIDs and root ports it gets is not stated: free
values, its ASIDs after those of the interfaces before it, and no port that one of them owns (log 23). -/
def State.setUpVI (s : State) (k : Nat) : State :=
  let before := s.vis.filter (fun p => decide (p.1 < k))
  let low := (before.map (fun p => p.2.asid0.toNat + p.2.asidN.toNat)).foldl Nat.max 0
  let taken : BitVec 8 := before.foldl (fun m p => m ||| p.2.ports) 0
  let (x, s) := s.draw
  let (y, s) := s.draw
  let (z, s) := s.draw
  let first := low + (fld z 0 12).toNat % (4096 - low)
  let count := (fld z 12 12).toNat % (4096 - first)
  s.modVI k (fun v => { v with
    fmask := (fld y 0 20) ++ x, tokcap := capOf (fld y 20 18), asid0 := BitVec.ofNat 12 first,
    asidN := BitVec.ofNat 12 count, ports := fld z 24 8 &&& ~~~taken })

/-- Stages 4 to 6. The epoch is not stated: a free value (log 2). -/
def State.firmware (s : State) : State :=
  let chain := s.wearChain
  let valid := s.grantValid
  let s := s.measureAll
  let s := { s with sec := { s.sec with grant := if valid then BitVec.ofNat 64 (leAt s.grantBytes 8 8) else 0 } }
  let fs := List.range Config.fields
  let s := fs.foldl (fun s f => s.bringUpField valid f) s
  let s := fs.foldl (fun s f => s.modField f (fun g => { g with add := addFrom chain f })) s
  let s := s.logCounter 6 chain s.sec.fw
  let s := if valid then s.logCounter 7 chain s.sec.grant else s
  let s := fs.foldl State.writeMap s
  let s := (List.range 24).foldl State.trainStack s
  let (e, s) := s.draw
  let s := fs.foldl (fun s f => s.modField f (fun g => { g with epoch := some e })) s
  let s := s.epochWrite 0 e
  let s := ((List.range 64).foldl State.setUpVI s).bootGrade
  { s with
    sec := { s.sec with lock := s.sec.lock ||| 0xF }
    crofts := (List.range 32).foldl (fun m k => sset k { sget ({} : Croft) k m with held := false } m) s.crofts
    bootStage := 2 }

/-- BOOT (R396): at power good the ROM's stages; then firmware's. -/
def execBoot (s : State) : Out :=
  match s.bootStage with
  | 0 => .next s.rom
  | 1 => .next s.firmware
  | _ => .next s

end Sys2Proof.Machine
end

