-- ==== Sys2Proof/Machine/LoadStore.lean ====
section
/-! DEFINITION. Scalar loads and stores (R120 to R125) on a tile and on a Croft core (R392, R316, R405). -/

namespace Sys2Proof.Machine

/-! ## On a tile -/

/-- Load `n` bytes for a task: alignment, then form and range of a local address or the translation (R124, R422). -/
def State.tileLoad (s : State) (ea : Word) (n : Nat) : Try (List Byte × State) := do
  let (site, slot, c) ← s.here
  need (aligned ea n) .align 0 ea
  if isLocal ea then
    let (target, off) ← s.localCheck site ea n
    s.scoreboard target off n false
    s.spadRead target off n (some c.task.msg.launch)
  else s.gLoad site slot c ea n

/-- Store bytes for a task (R123, R124, R422). -/
def State.tileStore (s : State) (ea : Word) (bs : List Byte) : Try State := do
  let (site, slot, c) ← s.here
  domCheck c site ea
  need (aligned ea bs.length) .align 0 ea
  if isLocal ea then
    let (target, off) ← s.localCheck site ea bs.length
    s.scoreboard target off bs.length true
    .ok (s.writeBy site target off bs)
  else s.gStore site slot c ea bs

/-! ## On a Croft core -/

/-- A cached line with bytes put into it; a whole doubleword clears its poison (R386). -/
def CroftLine.put (l : CroftLine) (o : Nat) (bs : List Byte) : CroftLine :=
  { l with data := linePut l.data o bs
           poison := if bs.length = 8 then l.poison &&& ~~~(dwordMask o 8) else l.poison
           mask := (List.range bs.length).foldl (fun m i => m ||| BitVec.twoPow 64 (o + i)) l.mask }

/-- A load of a Croft core from a line: through its cache on a write-back page, past it otherwise (R120). -/
def State.croftLineLoad (s : State) (k : Nat) (key : LineKey) (attr : Nat) (ea : Word) (n : Nat) : Try (List Byte × State) :=
  match (if attr = 1 then none else (s.croft k).find key) with
  | some l =>
    if l.poison &&& dwordMask (ea.toNat % 64) n = 0 then .ok (lineBytes l.data (ea.toNat % 64) n, s)
    else trapWith .poison 0 ea
  | none =>
    let (hurt, s) := s.croftMeet k key
    if hurt then trapWith .poison 0 ea
    else if attr = 0 then
      let (l, s) := s.croftFill k key
      .ok (lineBytes l.data (ea.toNat % 64) n, s)
    else .ok (lineBytes (s.croftMem k key) (ea.toNat % 64) n, s)

/-- Load `n` bytes for a Croft core. A page takes 8-byte accesses (R351); what a dropped access, or a load from a write
window, answers is not stated: a free value (log 2). -/
def State.croftLoad (s : State) (k : Nat) (ea : Word) (n : Nat) : Try (List Byte × State) := do
  need (aligned ea n) .align 0 ea
  let (p, s) ← s.croftPlace k .load ea
  match p with
  | .line key attr => s.croftLineLoad k key attr ea n
  | .page vi off =>
    let (v, s) := if n = 8 then s.pageRead vi off else (s.modVI vi (·.violate (pageAddr vi off) 1 0)).draw
    .ok (leBytes n v.toNat, s)
  | .window vi off =>
    let s := if n = 8 then s else s.modVI vi (·.violate (windowAddr vi (off / 4096) 0 (off % 4096)) 1 (off / 4096))
    let (v, s) := s.draw
    .ok (leBytes n v.toNat, s)
  | .port q => .error (.refuse (.rootPortWindow q))

/-- A store to a write window (R353, R354): a slot's final store waits until an entry is free, and other stores to a
slot whose final store waits do too. -/
def State.windowStore (s : State) (vi off : Nat) (v : Word) : Try State :=
  let q := off / 4096 % 32
  let slot := off / 256 % 16
  let o := off % 256
  let x := (s.vi vi).queue q
  if x.en && ((sget? (32 * slot + 31) x.slots).isSome || (o == 0xF8 && x.free == 0)) then .error (.wait .queue)
  else
    let s := stateOf s (execWindowSlotStore vi q slot (BitVec.ofNat 8 o) v s)
    .ok (if x.en && o == 0xF8 then stateOf s (execRecordEnqueue vi q slot s) else s)

/-- A store of a Croft core to a line (R120, R316). -/
def State.croftLineStore (s : State) (k : Nat) (key : LineKey) (attr : Nat) (o : Nat) (bs : List Byte) : State :=
  match (s.croft k).find key, attr with
  | some l, 0 => s.modCroft k (·.put (l.put o bs))
  | none, 0 =>
    let (l, s) := (s.lineErrors key none).croftFill k key
    s.modCroft k (·.put (l.put o bs))
  | some l, 2 => s.croftClean k (l.put o bs)
  | _, _ => (s.lineWrite key o bs).modCroft k (·.note key)

/-- Store bytes for a Croft core. -/
def State.croftStore (s : State) (k : Nat) (ea : Word) (bs : List Byte) : Try State := do
  need (aligned ea bs.length) .align 0 ea
  let (p, s) ← s.croftPlace k .store ea
  match p with
  | .line key attr => .ok (s.croftLineStore k key attr (ea.toNat % 64) bs)
  | .page vi off =>
    if bs.length = 8 then
      match s.pageWrite vi off (leWord bs) with
      | some s => .ok s
      | none => .error (.wait .queue)
    else .ok (s.modVI vi (·.violate (pageAddr vi off) 1 0))
  | .window vi off =>
    if bs.length = 8 then s.windowStore vi off (leWord bs)
    else .ok (s.modVI vi (·.violate (windowAddr vi (off / 4096) 0 (off % 4096)) 1 (off / 4096)))
  | .port q => .error (.refuse (.rootPortWindow q))

/-! ## The words -/

/-- The value a load gives: sign- or zero-extended (R124). -/
def loadVal (n : Nat) (signed : Bool) (bs : List Byte) : Word :=
  if signed then (BitVec.ofNat (8 * n) (leNat bs)).signExtend 64 else BitVec.ofNat 64 (leNat bs)

/-- A load of the agent whose turn it is. -/
def State.load (s : State) (ea : Word) (n : Nat) : Try (List Byte × State) :=
  match s.turn with
  | .croft k => s.croftLoad k ea n
  | .tile _ _ _ => s.tileLoad ea n

/-- A store of the agent whose turn it is. -/
def State.store (s : State) (ea : Word) (bs : List Byte) : Try State :=
  match s.turn with
  | .croft k => s.croftStore k ea bs
  | .tile _ _ _ => s.tileStore ea bs

/-- A scalar load (R124). -/
def loadWord (i : Instr) (n : Nat) (signed : Bool) (d b : Spec) (z : BitVec 3) (o : BitVec 7) (s : State) : Out :=
  word i s (fun s => do
    let (base, s) ← s.src .A b
    let (bs, s) ← s.load (effAddr base o z n) n
    s.dst .A d (loadVal n signed bs))

/-- A scalar store (R124). (DEDUCED, log 40.) -/
def storeWord (i : Instr) (n : Nat) (d b : Spec) (z : BitVec 3) (o : BitVec 7) (s : State) : Out :=
  word i s (fun s => do
    let (base, s) ← s.src .A b
    let (v, s) ← s.src .A d
    s.store (effAddr base o z n) (leBytes n v.toNat))

def execLdB (d b : Spec) (z : BitVec 3) (o : BitVec 7) (s : State) : Out := loadWord (.ldB d b z o) 1 true d b z o s
def execLdBu (d b : Spec) (z : BitVec 3) (o : BitVec 7) (s : State) : Out := loadWord (.ldBu d b z o) 1 false d b z o s
def execLdH (d b : Spec) (z : BitVec 3) (o : BitVec 7) (s : State) : Out := loadWord (.ldH d b z o) 2 true d b z o s
def execLdHu (d b : Spec) (z : BitVec 3) (o : BitVec 7) (s : State) : Out := loadWord (.ldHu d b z o) 2 false d b z o s
def execLdW (d b : Spec) (z : BitVec 3) (o : BitVec 7) (s : State) : Out := loadWord (.ldW d b z o) 4 true d b z o s
def execLdWu (d b : Spec) (z : BitVec 3) (o : BitVec 7) (s : State) : Out := loadWord (.ldWu d b z o) 4 false d b z o s
def execLdD (d b : Spec) (z : BitVec 3) (o : BitVec 7) (s : State) : Out := loadWord (.ldD d b z o) 8 false d b z o s
def execStB (d b : Spec) (z : BitVec 3) (o : BitVec 7) (s : State) : Out := storeWord (.stB d b z o) 1 d b z o s
def execStH (d b : Spec) (z : BitVec 3) (o : BitVec 7) (s : State) : Out := storeWord (.stH d b z o) 2 d b z o s
def execStW (d b : Spec) (z : BitVec 3) (o : BitVec 7) (s : State) : Out := storeWord (.stW d b z o) 4 d b z o s
def execStD (d b : Spec) (z : BitVec 3) (o : BitVec 7) (s : State) : Out := storeWord (.stD d b z o) 8 d b z o s

end Sys2Proof.Machine
end

