-- ==== Sys2Proof/Machine/Priv.lean ====
section
/-! DEFINITION. The privileged words of the Croft cores (R394, R395). -/

namespace Sys2Proof.Machine

/-- The Croft core whose turn it is, at level F; at level D a privileged word raises PRIV (R394). -/
def State.priv (s : State) : Try Nat :=
  match s.turn with
  | .croft n => do
    need (s.croft n).level .priv
    .ok n
  | .tile _ _ _ => trapWith .illop

/-- The register number of a measurement word (R394). -/
def measIndex (v : Word) : Try Nat := do
  need (fld v 4 60 == 0) .illop
  .ok (v.toNat % 16)

/-- The checks of a buffer of 64 bytes, and the number of the register (R394, R422). -/
def measPlace (i b : Word) : Try Nat := do
  need (aligned b 64) .align 0 b
  let n ← measIndex i
  need (decide (b.toNat < Config.hbmBytes)) .prot 0 b
  .ok n

/-- The line that a measurement word reads: as a load of its core does (log 24). -/
def State.measLine (s : State) (k : Nat) (b : Word) : Try (Line × State) :=
  let key := LineKey.pa (b.toNat / 64)
  match (s.croft k).find key with
  | some l => if l.poison = 0 then .ok (l.data, s) else trapWith .poison 0 b
  | none =>
    let (hurt, s) := s.croftMeet k key
    if hurt then trapWith .poison 0 b else .ok (s.croftMem k key, s)

/-- R394. -/
def execMext (a b : Spec) (s : State) : Out :=
  word (.mext a b) s (fun s => do
    let k ← s.priv
    let (i, s) ← s.src .A a
    let (p, s) ← s.src .A b
    let n ← measPlace i p
    need (!s.sec.lock.getLsbD n) .prot 8 p
    let (l, s) ← s.measLine k p
    .ok (s.extend n (lineBytes l 0 64)))

/-- R394. -/
def execMget (a b : Spec) (s : State) : Out :=
  word (.mget a b) s (fun s => do
    let k ← s.priv
    let (i, s) ← s.src .A a
    let (p, s) ← s.src .A b
    let n ← measPlace i p
    let key := LineKey.pa (p.toNat / 64)
    let s := s.modCroft k (fun c => { (c.note key) with cache := c.cache.filter (·.key != key) })
    .ok (s.lineWrite key 0 (s.measBytes n)))

/-- R394. -/
def execMlock (a : Spec) (s : State) : Out :=
  word (.mlock a) s (fun s => do
    let _ ← s.priv
    let (i, s) ← s.src .A a
    let n ← measIndex i
    .ok { s with sec := { s.sec with lock := s.sec.lock ||| BitVec.twoPow 16 n } })

/-- R394, R395. -/
def execCfgrd (d a : Spec) (s : State) : Out :=
  word (.cfgrd d a) s (fun s => do
    let _ ← s.priv
    let (r, s) ← s.src .A a
    let (v, s) ← s.cfgRead (r.setWidth 32)
    s.dst .A d v)

/-- R394, R395. -/
def execCfgwr (a b : Spec) (s : State) : Out :=
  word (.cfgwr a b) s (fun s => do
    let _ ← s.priv
    let (r, s) ← s.src .A a
    let (v, s) ← s.src .A b
    s.cfgWrite (r.setWidth 32) v)

/-- R393, R394: the return from a fault handler. -/
def execFret (s : State) : Out :=
  wordTo .fret s (fun s => do
    let n ← s.priv
    .ok (s.modCroft n Croft.ret))

end Sys2Proof.Machine
end

