-- ==== Sys2Proof/Machine/Dispatch.lean ====
section
/-! DEFINITION. The meaning of each instruction, by name: one arm per constructor of Instr. -/

namespace Sys2Proof.Machine

/-- What an instruction does to the machine. -/
def exec (i : Instr) (s : State) : Host.Outcome State Fault Refusal :=
  match i with
  | .add m d a b => Sys2Proof.Machine.execAdd m d a b s
  | .sub m d a b => Sys2Proof.Machine.execSub m d a b s
  | .and m d a b => Sys2Proof.Machine.execAnd m d a b s
  | .or m d a b => Sys2Proof.Machine.execOr m d a b s
  | .xor m d a b => Sys2Proof.Machine.execXor m d a b s
  | .sll m d a b => Sys2Proof.Machine.execSll m d a b s
  | .srl m d a b => Sys2Proof.Machine.execSrl m d a b s
  | .sra m d a b => Sys2Proof.Machine.execSra m d a b s
  | .slt m d a b => Sys2Proof.Machine.execSlt m d a b s
  | .sltu m d a b => Sys2Proof.Machine.execSltu m d a b s
  | .min m d a b => Sys2Proof.Machine.execMin m d a b s
  | .max m d a b => Sys2Proof.Machine.execMax m d a b s
  | .minu m d a b => Sys2Proof.Machine.execMinu m d a b s
  | .maxu m d a b => Sys2Proof.Machine.execMaxu m d a b s
  | .mul m d a b => Sys2Proof.Machine.execMul m d a b s
  | .mulh m d a b => Sys2Proof.Machine.execMulh m d a b s
  | .mulhu m d a b => Sys2Proof.Machine.execMulhu m d a b s
  | .div m d a b => Sys2Proof.Machine.execDiv m d a b s
  | .divu m d a b => Sys2Proof.Machine.execDivu m d a b s
  | .rem m d a b => Sys2Proof.Machine.execRem m d a b s
  | .remu m d a b => Sys2Proof.Machine.execRemu m d a b s
  | .clz m d a => Sys2Proof.Machine.execClz m d a s
  | .ctz m d a => Sys2Proof.Machine.execCtz m d a s
  | .popc m d a => Sys2Proof.Machine.execPopc m d a s
  | .addsl1 m d a b => Sys2Proof.Machine.execAddsl1 m d a b s
  | .addsl2 m d a b => Sys2Proof.Machine.execAddsl2 m d a b s
  | .addsl3 m d a b => Sys2Proof.Machine.execAddsl3 m d a b s
  | .addsl4 m d a b => Sys2Proof.Machine.execAddsl4 m d a b s
  | .addi m d a imm => Sys2Proof.Machine.execAddi m d a imm s
  | .andi m d a imm => Sys2Proof.Machine.execAndi m d a imm s
  | .ori m d a imm => Sys2Proof.Machine.execOri m d a imm s
  | .xori m d a imm => Sys2Proof.Machine.execXori m d a imm s
  | .slti m d a imm => Sys2Proof.Machine.execSlti m d a imm s
  | .slli m d a z => Sys2Proof.Machine.execSlli m d a z s
  | .srli m d a z => Sys2Proof.Machine.execSrli m d a z s
  | .srai m d a z => Sys2Proof.Machine.execSrai m d a z s
  | .li m d imm => Sys2Proof.Machine.execLi m d imm s
  | .lih m d imm => Sys2Proof.Machine.execLih m d imm s
  | .bfx m d a p w => Sys2Proof.Machine.execBfx m d a p w s
  | .bfxu m d a p w => Sys2Proof.Machine.execBfxu m d a p w s
  | .bfi m d a p w => Sys2Proof.Machine.execBfi m d a p w s
  | .part d a b => Sys2Proof.Machine.execPart d a b s
  | .partY d a b => Sys2Proof.Machine.execPartY d a b s
  | .fadd d a b => Sys2Proof.Machine.execFadd d a b s
  | .fsub d a b => Sys2Proof.Machine.execFsub d a b s
  | .fmul d a b => Sys2Proof.Machine.execFmul d a b s
  | .ffma d a b => Sys2Proof.Machine.execFfma d a b s
  | .fmin d a b => Sys2Proof.Machine.execFmin d a b s
  | .fmax d a b => Sys2Proof.Machine.execFmax d a b s
  | .feq d a b => Sys2Proof.Machine.execFeq d a b s
  | .flt d a b => Sys2Proof.Machine.execFlt d a b s
  | .fle d a b => Sys2Proof.Machine.execFle d a b s
  | .fcvtSI d a => Sys2Proof.Machine.execFcvtSI d a s
  | .fcvtIS d a => Sys2Proof.Machine.execFcvtIS d a s
  | .beqz a o => Sys2Proof.Machine.execBeqz a o s
  | .bnez a o => Sys2Proof.Machine.execBnez a o s
  | .bltz a o => Sys2Proof.Machine.execBltz a o s
  | .bgez a o => Sys2Proof.Machine.execBgez a o s
  | .bgtz a o => Sys2Proof.Machine.execBgtz a o s
  | .blez a o => Sys2Proof.Machine.execBlez a o s
  | .jal d o => Sys2Proof.Machine.execJal d o s
  | .jalr d a imm => Sys2Proof.Machine.execJalr d a imm s
  | .rpt n k => Sys2Proof.Machine.execRpt n k s
  | .nop m => Sys2Proof.Machine.execNop m s
  | .done => Sys2Proof.Machine.execDone s
  | .yield => Sys2Proof.Machine.execYield s
  | .step => Sys2Proof.Machine.execStep s
  | .safept n => Sys2Proof.Machine.execSafept n s
  | .trap n => Sys2Proof.Machine.execTrap n s
  | .brk n => Sys2Proof.Machine.execBrk n s
  | .sysrd m d r => Sys2Proof.Machine.execSysrd m d r s
  | .syswr m a r => Sys2Proof.Machine.execSyswr m a r s
  | .tokreq d a => Sys2Proof.Machine.execTokreq d a s
  | .tokret d a => Sys2Proof.Machine.execTokret d a s
  | .toklend d a b => Sys2Proof.Machine.execToklend d a b s
  | .tokwait d => Sys2Proof.Machine.execTokwait d s
  | .tokq d => Sys2Proof.Machine.execTokq d s
  | .ldB d b z o => Sys2Proof.Machine.execLdB d b z o s
  | .ldBu d b z o => Sys2Proof.Machine.execLdBu d b z o s
  | .ldH d b z o => Sys2Proof.Machine.execLdH d b z o s
  | .ldHu d b z o => Sys2Proof.Machine.execLdHu d b z o s
  | .ldW d b z o => Sys2Proof.Machine.execLdW d b z o s
  | .ldWu d b z o => Sys2Proof.Machine.execLdWu d b z o s
  | .ldD d b z o => Sys2Proof.Machine.execLdD d b z o s
  | .stB d b z o => Sys2Proof.Machine.execStB d b z o s
  | .stH d b z o => Sys2Proof.Machine.execStH d b z o s
  | .stW d b z o => Sys2Proof.Machine.execStW d b z o s
  | .stD d b z o => Sys2Proof.Machine.execStD d b z o s
  | .ldfW d b z o => Sys2Proof.Machine.execLdfW d b z o s
  | .ldfD d b z o => Sys2Proof.Machine.execLdfD d b z o s
  | .ldtW d b z o => Sys2Proof.Machine.execLdtW d b z o s
  | .ldtD d b z o => Sys2Proof.Machine.execLdtD d b z o s
  | .stfW d b z o => Sys2Proof.Machine.execStfW d b z o s
  | .stfD d b z o => Sys2Proof.Machine.execStfD d b z o s
  | .stxW d b z o => Sys2Proof.Machine.execStxW d b z o s
  | .stxD d b z o => Sys2Proof.Machine.execStxD d b z o s
  | .vld v a b z => Sys2Proof.Machine.execVld v a b z s
  | .vst v a b z => Sys2Proof.Machine.execVst v a b z s
  | .vldx v a b z => Sys2Proof.Machine.execVldx v a b z s
  | .vstx v a b z => Sys2Proof.Machine.execVstx v a b z s
  | .vldb v a b z => Sys2Proof.Machine.execVldb v a b z s
  | .acq z => Sys2Proof.Machine.execAcq z s
  | .rel z => Sys2Proof.Machine.execRel z s
  | .fence => Sys2Proof.Machine.execFence s
  | .cwb a b => Sys2Proof.Machine.execCwb a b s
  | .cinv a b => Sys2Proof.Machine.execCinv a b s
  | .disc a b => Sys2Proof.Machine.execDisc a b s
  | .pf a b => Sys2Proof.Machine.execPf a b s
  | .pf2 a b => Sys2Proof.Machine.execPf2 a b s
  | .pmig a b => Sys2Proof.Machine.execPmig a b s
  | .fefill a b => Sys2Proof.Machine.execFefill a b s
  | .feempty a b => Sys2Proof.Machine.execFeempty a b s
  | .aadd d a b o => Sys2Proof.Machine.execAadd d a b o s
  | .aaddW d a b o => Sys2Proof.Machine.execAaddW d a b o s
  | .faadd d a b o => Sys2Proof.Machine.execFaadd d a b o s
  | .aand d a b o => Sys2Proof.Machine.execAand d a b o s
  | .aor d a b o => Sys2Proof.Machine.execAor d a b o s
  | .axor d a b o => Sys2Proof.Machine.execAxor d a b o s
  | .amin d a b o => Sys2Proof.Machine.execAmin d a b o s
  | .amax d a b o => Sys2Proof.Machine.execAmax d a b o s
  | .aminu d a b o => Sys2Proof.Machine.execAminu d a b o s
  | .amaxu d a b o => Sys2Proof.Machine.execAmaxu d a b o s
  | .aswap d a b o => Sys2Proof.Machine.execAswap d a b o s
  | .aload d a o => Sys2Proof.Machine.execAload d a o s
  | .astore a b o => Sys2Proof.Machine.execAstore a b o s
  | .acas d a b o => Sys2Proof.Machine.execAcas d a b o s
  | .acasW d a b o => Sys2Proof.Machine.execAcasW d a b o s
  | .atopk d a b o k => Sys2Proof.Machine.execAtopk d a b o k s
  | .alink d a b => Sys2Proof.Machine.execAlink d a b s
  | .bwait t => Sys2Proof.Machine.execBwait t s
  | .barr t => Sys2Proof.Machine.execBarr t s
  | .bredMin d a b => Sys2Proof.Machine.execBredMin d a b s
  | .bredSum d a b => Sys2Proof.Machine.execBredSum d a b s
  | .bredOr d a b => Sys2Proof.Machine.execBredOr d a b s
  | .harm d a b => Sys2Proof.Machine.execHarm d a b s
  | .harr a b => Sys2Proof.Machine.execHarr a b s
  | .hwait a b => Sys2Proof.Machine.execHwait a b s
  | .hexp d a b => Sys2Proof.Machine.execHexp d a b s
  | .qfence a => Sys2Proof.Machine.execQfence a s
  | .vshape r c => Sys2Proof.Machine.execVshape r c s
  | .vadd d a b t => Sys2Proof.Machine.execVadd d a b t s
  | .vsub d a b t => Sys2Proof.Machine.execVsub d a b t s
  | .vmul d a b t => Sys2Proof.Machine.execVmul d a b t s
  | .vmla d a b t => Sys2Proof.Machine.execVmla d a b t s
  | .vmin d a b t => Sys2Proof.Machine.execVmin d a b t s
  | .vmax d a b t => Sys2Proof.Machine.execVmax d a b t s
  | .vabs d a t => Sys2Proof.Machine.execVabs d a t s
  | .vneg d a t => Sys2Proof.Machine.execVneg d a t s
  | .vand d a b t => Sys2Proof.Machine.execVand d a b t s
  | .vor d a b t => Sys2Proof.Machine.execVor d a b t s
  | .vxor d a b t => Sys2Proof.Machine.execVxor d a b t s
  | .vnot d a t => Sys2Proof.Machine.execVnot d a t s
  | .vshl d a b t => Sys2Proof.Machine.execVshl d a b t s
  | .vshr d a b t => Sys2Proof.Machine.execVshr d a b t s
  | .vadds d a b t => Sys2Proof.Machine.execVadds d a b t s
  | .vsubs d a b t => Sys2Proof.Machine.execVsubs d a b t s
  | .vsel d a b t => Sys2Proof.Machine.execVsel d a b t s
  | .vdiv d a b t => Sys2Proof.Machine.execVdiv d a b t s
  | .vrcp d a t => Sys2Proof.Machine.execVrcp d a t s
  | .vrsq d a t => Sys2Proof.Machine.execVrsq d a t s
  | .vsqrt d a t => Sys2Proof.Machine.execVsqrt d a t s
  | .vmov d a t => Sys2Proof.Machine.execVmov d a t s
  | .vtrans d a t => Sys2Proof.Machine.execVtrans d a t s
  | .vmulh d a b t => Sys2Proof.Machine.execVmulh d a b t s
  | .vtacc d a b t => Sys2Proof.Machine.execVtacc d a b t s
  | .vdot4 d a b t => Sys2Proof.Machine.execVdot4 d a b t s
  | .vcmp d a b t c => Sys2Proof.Machine.execVcmp d a b t c s
  | .vcvt d a src sa am dst => Sys2Proof.Machine.execVcvt d a src sa am dst s
  | .vrint d a t => Sys2Proof.Machine.execVrint d a t s
  | .vfloor d a t => Sys2Proof.Machine.execVfloor d a t s
  | .vceil d a t => Sys2Proof.Machine.execVceil d a t s
  | .vtrunc d a t => Sys2Proof.Machine.execVtrunc d a t s
  | .vrne d a t => Sys2Proof.Machine.execVrne d a t s
  | .vexf d a t => Sys2Proof.Machine.execVexf d a t s
  | .vinse d a b t => Sys2Proof.Machine.execVinse d a b t s
  | .vgetexp d a t => Sys2Proof.Machine.execVgetexp d a t s
  | .vgetman d a t => Sys2Proof.Machine.execVgetman d a t s
  | .vaddS d a z t => Sys2Proof.Machine.execVaddS d a z t s
  | .vsubS d a z t => Sys2Proof.Machine.execVsubS d a z t s
  | .vmulS d a z t => Sys2Proof.Machine.execVmulS d a z t s
  | .vmlaS d a z t => Sys2Proof.Machine.execVmlaS d a z t s
  | .vminS d a z t => Sys2Proof.Machine.execVminS d a z t s
  | .vmaxS d a z t => Sys2Proof.Machine.execVmaxS d a z t s
  | .vbcast d z t => Sys2Proof.Machine.execVbcast d z t s
  | .vshlS d a z t => Sys2Proof.Machine.execVshlS d a z t s
  | .vshrS d a z t => Sys2Proof.Machine.execVshrS d a z t s
  | .vredsum d a t r => Sys2Proof.Machine.execVredsum d a t r s
  | .vredmax d a t r => Sys2Proof.Machine.execVredmax d a t r s
  | .vredmin d a t r => Sys2Proof.Machine.execVredmin d a t r s
  | .vrot d a b t => Sys2Proof.Machine.execVrot d a b t s
  | .vperm d a b t => Sys2Proof.Machine.execVperm d a b t s
  | .vunp3 d a => Sys2Proof.Machine.execVunp3 d a s
  | .vunp4 d a => Sys2Proof.Machine.execVunp4 d a s
  | .vunp3i d a => Sys2Proof.Machine.execVunp3i d a s
  | .vpack4 d a => Sys2Proof.Machine.execVpack4 d a s
  | .vpack3 d a => Sys2Proof.Machine.execVpack3 d a s
  | .vzip d a b t => Sys2Proof.Machine.execVzip d a b t s
  | .vunzip d a t => Sys2Proof.Machine.execVunzip d a t s
  | .vsplat d imm t => Sys2Proof.Machine.execVsplat d imm t s
  | .mma k a b c => Sys2Proof.Machine.execMma k a b c s
  | .mmaZ k a b c => Sys2Proof.Machine.execMmaZ k a b c s
  | .mmaT k a b c => Sys2Proof.Machine.execMmaT k a b c s
  | .mmaTz k a b c => Sys2Proof.Machine.execMmaTz k a b c s
  | .mzero k => Sys2Proof.Machine.execMzero k s
  | .mrd k a c => Sys2Proof.Machine.execMrd k a c s
  | .mwr k a c => Sys2Proof.Machine.execMwr k a c s
  | .mscl k a b c => Sys2Proof.Machine.execMscl k a b c s
  | .smma k a b c => Sys2Proof.Machine.execSmma k a b c s
  | .smmaZ k a b c => Sys2Proof.Machine.execSmmaZ k a b c s
  | .smmaB k a b c => Sys2Proof.Machine.execSmmaB k a b c s
  | .attnQk k a b c => Sys2Proof.Machine.execAttnQk k a b c s
  | .attnSm k c => Sys2Proof.Machine.execAttnSm k c s
  | .attnPv k a c => Sys2Proof.Machine.execAttnPv k a c s
  | .attnFin k c => Sys2Proof.Machine.execAttnFin k c s
  | .attnStep k a b c => Sys2Proof.Machine.execAttnStep k a b c s
  | .ppop d a b => Sys2Proof.Machine.execPpop d a b s
  | .ppopNb d a b => Sys2Proof.Machine.execPpopNb d a b s
  | .steal d a b => Sys2Proof.Machine.execSteal d a b s
  | .ppush d a b => Sys2Proof.Machine.execPpush d a b s
  | .rule d a b => Sys2Proof.Machine.execRule d a b s
  | .rewr d a b => Sys2Proof.Machine.execRewr d a b s
  | .rcall d a b => Sys2Proof.Machine.execRcall d a b s
  | .rgroup d a b => Sys2Proof.Machine.execRgroup d a b s
  | .nalloc d a b => Sys2Proof.Machine.execNalloc d a b s
  | .nfree a b => Sys2Proof.Machine.execNfree a b s
  | .mext a b => Sys2Proof.Machine.execMext a b s
  | .mget a b => Sys2Proof.Machine.execMget a b s
  | .mlock a => Sys2Proof.Machine.execMlock a s
  | .cfgrd d a => Sys2Proof.Machine.execCfgrd d a s
  | .cfgwr a b => Sys2Proof.Machine.execCfgwr a b s
  | .fret => Sys2Proof.Machine.execFret s
  | .ceCopy site idx => Sys2Proof.Machine.execCeCopy site idx s
  | .ceCopy2d site idx => Sys2Proof.Machine.execCeCopy2d site idx s
  | .ceFill site idx => Sys2Proof.Machine.execCeFill site idx s
  | .ceCopymma site idx => Sys2Proof.Machine.execCeCopymma site idx s
  | .geGather site idx => Sys2Proof.Machine.execGeGather site idx s
  | .geScatter site idx => Sys2Proof.Machine.execGeScatter site idx s
  | .geScatw site idx => Sys2Proof.Machine.execGeScatw site idx s
  | .meMma site idx => Sys2Proof.Machine.execMeMma site idx s
  | .clReduce site idx => Sys2Proof.Machine.execClReduce site idx s
  | .clBcast site idx => Sys2Proof.Machine.execClBcast site idx s
  | .msgCall site idx => Sys2Proof.Machine.execMsgCall site idx s
  | .msgReply site idx => Sys2Proof.Machine.execMsgReply site idx s
  | .qfenceCommand site idx => Sys2Proof.Machine.execQfenceCommand site idx s
  | .netPair site idx => Sys2Proof.Machine.execNetPair site idx s
  | .engineCompletion site idx => Sys2Proof.Machine.execEngineCompletion site idx s
  | .copymmaMatrixWork site idx => Sys2Proof.Machine.execCopymmaMatrixWork site idx s
  | .matrixItemStart site => Sys2Proof.Machine.execMatrixItemStart site s
  | .matrixItemRetire site => Sys2Proof.Machine.execMatrixItemRetire site s
  | .bellPhaseComplete launch tag => Sys2Proof.Machine.execBellPhaseComplete launch tag s
  | .stepIdleArrival site => Sys2Proof.Machine.execStepIdleArrival site s
  | .stepPhaseComplete launch add drop => Sys2Proof.Machine.execStepPhaseComplete launch add drop s
  | .waitWatchdogExpiry w => Sys2Proof.Machine.execWaitWatchdogExpiry w s
  | .messageAccept idx => Sys2Proof.Machine.execMessageAccept idx s
  | .taskSelect site => Sys2Proof.Machine.execTaskSelect site s
  | .snapshotLog site slot => Sys2Proof.Machine.execSnapshotLog site slot s
  | .commit vi dom => Sys2Proof.Machine.execCommit vi dom s
  | .foldPush idx => Sys2Proof.Machine.execFoldPush idx s
  | .droverGrant field => Sys2Proof.Machine.execDroverGrant field s
  | .loanRequest field lender => Sys2Proof.Machine.execLoanRequest field lender s
  | .loanComplete idx => Sys2Proof.Machine.execLoanComplete idx s
  | .loanRecall lender borrower => Sys2Proof.Machine.execLoanRecall lender borrower s
  | .revocation field site slot n => Sys2Proof.Machine.execRevocation field site slot n s
  | .openRequestTimeout site slot => Sys2Proof.Machine.execOpenRequestTimeout site slot s
  | .noticeEnd site slot => Sys2Proof.Machine.execNoticeEnd site slot s
  | .lentTokensArrive idx => Sys2Proof.Machine.execLentTokensArrive idx s
  | .powerLimitCut => Sys2Proof.Machine.execPowerLimitCut s
  | .preemptRequest site => Sys2Proof.Machine.execPreemptRequest site s
  | .prewinExpiry site slot => Sys2Proof.Machine.execPrewinExpiry site slot s
  | .tileResume site => Sys2Proof.Machine.execTileResume site s
  | .rehomeStepTimeout launch => Sys2Proof.Machine.execRehomeStepTimeout launch s
  | .rehomeEvent field => Sys2Proof.Machine.execRehomeEvent field s
  | .pageMigration field => Sys2Proof.Machine.execPageMigration field s
  | .clGroupTimeout idx => Sys2Proof.Machine.execClGroupTimeout idx s
  | .retentionEntry site => Sys2Proof.Machine.execRetentionEntry site s
  | .retentionExit site => Sys2Proof.Machine.execRetentionExit site s
  | .shadowLatchReplay site second => Sys2Proof.Machine.execShadowLatchReplay site second s
  | .guardBandCheck field => Sys2Proof.Machine.execGuardBandCheck field s
  | .routerEntryAging field => Sys2Proof.Machine.execRouterEntryAging field s
  | .windowSlotStore vi queue slot off val => Sys2Proof.Machine.execWindowSlotStore vi queue slot off val s
  | .recordEnqueue vi queue slot => Sys2Proof.Machine.execRecordEnqueue vi queue slot s
  | .recordValidation vi queue => Sys2Proof.Machine.execRecordValidation vi queue s
  | .launchStart vi queue grant => Sys2Proof.Machine.execLaunchStart vi queue grant s
  | .launchCompletion launch => Sys2Proof.Machine.execLaunchCompletion launch s
  | .tileClear site => Sys2Proof.Machine.execTileClear site s
  | .taskLaunchRequest idx => Sys2Proof.Machine.execTaskLaunchRequest idx s
  | .lcmdRelease vi queue seq => Sys2Proof.Machine.execLcmdRelease vi queue seq s
  | .lcmdCancel vi queue seq => Sys2Proof.Machine.execLcmdCancel vi queue seq s
  | .unbsetWrite vi val => Sys2Proof.Machine.execUnbsetWrite vi val s
  | .cqheadWrite vi queue val => Sys2Proof.Machine.execCqheadWrite vi queue val s
  | .tcmdReleaseTask vi dom task => Sys2Proof.Machine.execTcmdReleaseTask vi dom task s
  | .tcmdCancelTask vi dom task => Sys2Proof.Machine.execTcmdCancelTask vi dom task s
  | .tcmdReleaseParked vi asid => Sys2Proof.Machine.execTcmdReleaseParked vi asid s
  | .shcmdPage vi asid => Sys2Proof.Machine.execShcmdPage vi asid s
  | .shcmdAsid vi asid => Sys2Proof.Machine.execShcmdAsid vi asid s
  | .shcmdInterface vi => Sys2Proof.Machine.execShcmdInterface vi s
  | .shootdownComplete vi => Sys2Proof.Machine.execShootdownComplete vi s
  | .faultRecordWrite vi => Sys2Proof.Machine.execFaultRecordWrite vi s
  | .frheadWrite vi val => Sys2Proof.Machine.execFrheadWrite vi val s
  | .qcmdQuote vi => Sys2Proof.Machine.execQcmdQuote vi s
  | .quoteComplete vi => Sys2Proof.Machine.execQuoteComplete vi s
  | .mapctlDiscard field => Sys2Proof.Machine.execMapctlDiscard field s
  | .mapctlCheckVote field => Sys2Proof.Machine.execMapctlCheckVote field s
  | .mapVoteComplete => Sys2Proof.Machine.execMapVoteComplete s
  | .registerWrite r val => Sys2Proof.Machine.execRegisterWrite r val s
  | .rootPortDma port req => Sys2Proof.Machine.execRootPortDma port req s
  | .boot => Sys2Proof.Machine.execBoot s
  | .retirementStepTimeout launch => Sys2Proof.Machine.execRetirementStepTimeout launch s
  | .supplyDroop cluster period margin => Sys2Proof.Machine.execSupplyDroop cluster period margin s
  | .moduleLinkLoss link => Sys2Proof.Machine.execModuleLinkLoss link s

end Sys2Proof.Machine
end

