-- ==== Sys2Proof/Machine/Step.lean ====
section
/-! DEFINITION. One step: the next entry of the agenda (log 1), or, with the agenda empty, the next word of the agent
whose turn it is. -/

namespace Sys2Proof.Machine

/-- A decoded word executes, a word that does not decode raises its fault (R75). -/
def runWord (k : CoreKind) (m : Stream) (w : IWord) (s : State) : Out :=
  match decode k w with
  | .ok i => exec i s
  | .error .illop => .next (s.raise m { code := .illop })
  | .error .illstrm => .next (s.raise m { code := .illstrm })

/-- The turn of an agent: it issues its next word, if it has one. -/
def takeTurn (s : State) : Out :=
  match s.turnWord with
  | .idle => .next s
  | .moved s' => .next s'
  | .halted o => o
  | .issue k m w s' => runWord k m w s'

/-- One step of the machine. -/
def step (s : State) : Host.Outcome State Fault Refusal :=
  match s.agenda with
  | [] => takeTurn s
  | .turn a :: r => takeTurn { s with agenda := r, turn := a }
  | .event i :: r => exec i { s with agenda := r }
  | .fetch site slot :: r => .next (({ s with agenda := r } : State).fetchAhead site slot)
  | .elapse n d :: r => .next (({ s with agenda := r } : State).elapse n d)
  | .bytesMoved site seq inb :: r => .next (({ s with agenda := r } : State).bytesMoved site seq inb)
  | .evictL1 site idx :: r => .next (({ s with agenda := r } : State).evictL1 site idx)
  | .evictL2 idx :: r => .next (({ s with agenda := r } : State).evictL2 idx)
  | .dropTlb c idx :: r => .next (({ s with agenda := r } : State).dropTlb c idx)
  | .evictCroft n idx :: r => .next (({ s with agenda := r } : State).evictCroft n idx)
  | .upset u :: r => .next (({ s with agenda := r } : State).strike u)
  | .farPart site m bs :: r => ({ s with agenda := r } : State).farPart site m bs
  | .farResult idx st d bs :: r => ({ s with agenda := r } : State).farResult idx st d bs

/-- The VA at which `withFetchWord` places a tile's word: the first global address (R73). -/
def placeVA : Word := 0x1000000000

/-- The physical address at which `withFetchWord` places a word. -/
def placePA : Nat := 0x1000

/-- The tile that runs a placed word: an ST for `smma`, an AT for `attn`, else a DT (R13). -/
def placeSite (w : IWord) : Nat :=
  if w.extractLsb' 25 6 = 0x32 then 6 else if w.extractLsb' 25 6 = 0x33 then 9 else 0

/-- A task as a start message starts it (R249), in launch 1 of interface 0. (DESIGN CHOICE, log 15.) -/
def placeTask : Task := { msg := { words := [0x4000000000000000], launch := 1 }, id := 0 }

/-- The launch a placed task belongs to: one field, one cell (log 15). -/
def placeLaunch (site : Nat) : Launch :=
  { vi := 0, queue := 0, seq := 0, asid := 0, rec_ := [0x0100000000000000, 0x0000000100010101], fields := [0],
    cells := [(0, site)], bells := Vector.replicate 8 {} }

/-- The placed task's context; a C-stream word stands in the front end too, its fetch being done (R9). -/
def placeCtx (w : IWord) : Ctx :=
  let c := Ctx.fresh placeTask placeVA 0 0 {} 0
  match streamOf w with
  | .A => c
  | .C => { c.enterC placeVA w with pc := placeVA + 4 }

/-- The same state with an instruction stored where the next step fetches (log 15): a privileged word at Croft core 0,
any other word in a running task of a tile. -/
def State.withFetchWord (s : State) (_nbits w : Nat) : State :=
  let w : IWord := BitVec.ofNat 32 w
  let mem := s.mem.writeN placePA (leBytes 4 w.toNat)
  if streamOf w = .A ∧ w.extractLsb' 25 6 = 0x3E then
    { s with
      agenda := []
      turn := .croft 0
      mem := mem
      crofts := sset 0 { s.croft 0 with held := false, level := true, pc := BitVec.ofNat 64 placePA } s.crofts }
  else
    let site := placeSite w
    let leaf : TlbEntry := { vi := 0, asid := 0, vpage := placeVA.toNat / 4096, span := 1, pte := 0x10CF, pteAt := 0 }
    { s with
      agenda := []
      turn := .tile site 0 (streamOf w)
      mem := mem
      clusters := sset (siteCluster site)
        { s.cluster (siteCluster site) with tlb := leaf :: (s.cluster (siteCluster site)).tlb } s.clusters
      tiles := sset site
        { s.tile site with
            named := true, name := BitVec.ofNat 16 (0x8000 + site), launch := some 1, clearing := none,
            retain := .active, cur := some 0, ctxs := vput (s.tile site).ctxs 0 (some (placeCtx w)) } s.tiles
      launches := sset 1 (placeLaunch site) s.launches }

end Sys2Proof.Machine
end

