-- ==== Sys2Proof/Safety.lean ====
section
/-! DEFINITION. What claims take as a safe run, the forms that claims about whole groups of instructions share, and
the frames: what an instruction leaves as it was. -/

namespace Sys2Proof

/-- The instructions that only compute a value for d, from sources, an immediate, or the task's own state. -/
def Instr.computesScalar : Instr → Bool
  | .add _ _ _ _ => true
  | .sub _ _ _ _ => true
  | .and _ _ _ _ => true
  | .or _ _ _ _ => true
  | .xor _ _ _ _ => true
  | .sll _ _ _ _ => true
  | .srl _ _ _ _ => true
  | .sra _ _ _ _ => true
  | .slt _ _ _ _ => true
  | .sltu _ _ _ _ => true
  | .min _ _ _ _ => true
  | .max _ _ _ _ => true
  | .minu _ _ _ _ => true
  | .maxu _ _ _ _ => true
  | .mul _ _ _ _ => true
  | .mulh _ _ _ _ => true
  | .mulhu _ _ _ _ => true
  | .div _ _ _ _ => true
  | .divu _ _ _ _ => true
  | .rem _ _ _ _ => true
  | .remu _ _ _ _ => true
  | .clz _ _ _ => true
  | .ctz _ _ _ => true
  | .popc _ _ _ => true
  | .addsl1 _ _ _ _ => true
  | .addsl2 _ _ _ _ => true
  | .addsl3 _ _ _ _ => true
  | .addsl4 _ _ _ _ => true
  | .addi _ _ _ _ => true
  | .andi _ _ _ _ => true
  | .ori _ _ _ _ => true
  | .xori _ _ _ _ => true
  | .slti _ _ _ _ => true
  | .slli _ _ _ _ => true
  | .srli _ _ _ _ => true
  | .srai _ _ _ _ => true
  | .li _ _ _ => true
  | .lih _ _ _ => true
  | .bfx _ _ _ _ _ => true
  | .bfxu _ _ _ _ _ => true
  | .bfi _ _ _ _ _ => true
  | .part _ _ _ => true
  | .partY _ _ _ => true
  | .fadd _ _ _ => true
  | .fsub _ _ _ => true
  | .fmul _ _ _ => true
  | .ffma _ _ _ => true
  | .fmin _ _ _ => true
  | .fmax _ _ _ => true
  | .feq _ _ _ => true
  | .flt _ _ _ => true
  | .fle _ _ _ => true
  | .fcvtSI _ _ => true
  | .fcvtIS _ _ => true
  | .nop _ => true
  | .sysrd _ _ _ => true
  | .tokwait _ => true
  | .tokq _ => true
  | _ => false

/-- The scalar floating-point instructions (R100), which may set sticky flags in FPC. -/
def Instr.isFp : Instr → Bool
  | .fadd _ _ _ => true
  | .fsub _ _ _ => true
  | .fmul _ _ _ => true
  | .ffma _ _ _ => true
  | .fmin _ _ _ => true
  | .fmax _ _ _ => true
  | .feq _ _ _ => true
  | .flt _ _ _ => true
  | .fle _ _ _ => true
  | .fcvtSI _ _ => true
  | .fcvtIS _ _ => true
  | _ => false

/-- Where a vector instruction of the C-stream writes: its result, or the register that it reads and writes. -/
def Instr.vdest (i : Instr) : List VSpec := if i.uses.vdst.isEmpty then i.uses.vreg else i.uses.vdst

/-- The vector instructions of the C-stream (majors 0x28 to 0x2D and 0x2F). -/
def Instr.isVector (i : Instr) : Bool := i.stream == .C && !i.vdest.isEmpty

end Sys2Proof

namespace Sys2Proof.Machine

/-- The step goes on: neither a fault nor a refusal of the model. -/
def goesOn (s : State) : Prop := ∃ t, step s = .next t

/-- The step of `s₀` is a turn of an agent, taken in the state `s`: the agenda is empty, or names the agent (log 1). -/
def State.onTurn (s₀ s : State) : Prop :=
  (s₀.agenda = [] ∧ s = s₀) ∨ ∃ a r, s₀.agenda = .turn a :: r ∧ s = { s₀ with agenda := r, turn := a }

/-- Every byte store of the machine is in canonical form: HBM, flash, the scratchpads, and those that images keep. -/
def State.memoriesOk (s : State) : Bool :=
  s.mem.wf && s.flash.wf && s.tiles.all (fun p => p.2.spad.wf) && s.images.all (fun i => i.bytes.wf)

/-! ## Completion of the scalar instructions. Src and Dst cover every operand form (R17 to R20): a register, a queue,
a port, and the registers of a Croft core. -/

/-- No source: `v`, computed from the state at issue, goes to d, and the stream goes on with the next word. -/
def Writes (i : Instr) (m : Stream) (d : Spec) (v : State → Word) : Prop :=
  ∀ s t : State, s.issue i = .ok () → s.dst m d (v s) = .ok t → exec i s = .next (t.retire m)

/-- One source: `f` of its value goes to d, and the stream goes on with the next word. -/
def Computes1 (i : Instr) (m : Stream) (d a : Spec) (f : Word → Word) : Prop :=
  ∀ (s s1 t : State) (va : Word), s.issue i = .ok () → s.src m a = .ok (va, s1) → s1.dst m d (f va) = .ok t →
    exec i s = .next (t.retire m)

/-- Two sources, read in order: `f` of their values goes to d, and the stream goes on with the next word. -/
def Computes2 (i : Instr) (m : Stream) (d a b : Spec) (f : Word → Word → Word) : Prop :=
  ∀ (s s1 s2 t : State) (va vb : Word), s.issue i = .ok () → s.src m a = .ok (va, s1) → s1.src m b = .ok (vb, s2) →
    s2.dst m d (f va vb) = .ok t → exec i s = .next (t.retire m)

/-- A scalar floating-point instruction of two sources whose result and exceptions are `f` of the modes and of the FP32
operands (R100, R101): with an exception enabled it raises SWTRAP and nothing else happens; else d is written and the
exceptions stick. -/
def ComputesF (i : Instr) (d a b : Spec) (f : Modes → Nat → Nat → Word × Flags) : Prop :=
  ∀ (s s1 s2 : State) (site slot : Nat) (c : Ctx) (va vb : Word), s.issue i = .ok () → s.src .C a = .ok (va, s1) →
    s1.src .C b = .ok (vb, s2) → s2.here = .ok (site, slot, c) →
    let r := f c.scalarModes (va.toNat % 2 ^ 32) (vb.toNat % 2 ^ 32)
    (r.2 &&& c.enables = 0 →
      ∀ t, (s2.setCtx site slot { c with fpc := c.fpc ||| (r.2.setWidth 64 <<< 11) }).dst .C d r.1 = .ok t →
        exec i s = .next (t.retire .C)) ∧
    (r.2 &&& c.enables ≠ 0 →
      exec i s = .next (s.raise .C
        { code := .swtrap, detail := BitVec.ofNat 64 (0x100 + 11 + highFlag (r.2 &&& c.enables)) }))

/-- A branch on the test `p` of Src(a) (R102). -/
def Branches (i : Instr) (a : Spec) (o : BitVec 15) (p : Int → Prop) : Prop :=
  ∀ (s s1 : State) (v : Word), s.issue i = .ok () → s.src .A a = .ok (v, s1) →
    (p v.toInt → exec i s = .next (s1.jump (s.pc + BitVec.ofInt 64 (4 * o.toInt)))) ∧
    (¬ p v.toInt → exec i s = .next (s1.jump (s.pc + 4)))

/-- The entries of vector queue `q` replaced. -/
def Ctx.setV (c : Ctx) (q : Nat) (l : List VEntry) : Ctx := { c with vq := vput c.vq q l }

/-- An entry pushed to vector queue `q`. -/
def Ctx.pushV (c : Ctx) (q : Nat) (e : VEntry) : Ctx := c.setV q (vget [] c.vq q ++ [e])

/-- The local access of `n` bytes at `ea` by the tile at `site` is one that R27 allows: the form, and a named target of
the same launch that has those bytes. -/
def State.localOk (s : State) (site : Nat) (ea : Word) (n : Nat) : Prop :=
  let t := s.tile (clusterSite site (locTile ea))
  ea.toNat < 2 ^ 36 ∧ fld ea 22 6 = 0 ∧ t.named = true ∧ t.launch = (s.tile site).launch ∧ t.launch ≠ none ∧
    locOff ea + n ≤ spadSize t.l1sz

/-- A tile whose scratchpad holds no bit error and no poison (R385, R386). -/
def Tile.sound (t : Tile) : Prop := t.bad = [] ∧ t.poison = [] ∧ t.weak = []

/-- A load of `n` bytes at AddressOf(base, off7, swizzle) (R73, R124): the value of the bytes found, as `f` extends it,
goes to d; a misaligned address raises ALIGN first. -/
def Loads (i : Instr) (n : Nat) (d b : Spec) (z : BitVec 3) (o : BitVec 7) (f : Nat → Word) : Prop :=
  ∀ (s s1 : State) (base : Word), s.issue i = .ok () → s.src .A b = .ok (base, s1) →
    (∀ bs s2 t, s1.load (effAddr base o z n) n = .ok (bs, s2) → s2.dst .A d (f (leNat bs)) = .ok t →
      exec i s = .next (t.retire .A)) ∧
    ((effAddr base o z n).toNat % n ≠ 0 → (∃ x, s1.here = .ok x) ∨ (∃ k, s1.turn = .croft k) →
      exec i s = .next (s.raise .A { code := .align, addr := effAddr base o z n }))

/-- A store of the low `n` bytes of Src(d) at AddressOf(base, off7, swizzle) (R73, R124); a misaligned address raises ALIGN
and stores nothing, but that a store of an ordered domain to another tile's scratchpad raises ILLDOM (R123, R422). -/
def Stores (i : Instr) (n : Nat) (d b : Spec) (z : BitVec 3) (o : BitVec 7) : Prop :=
  ∀ (s s1 s2 : State) (base v : Word), s.issue i = .ok () → s.src .A b = .ok (base, s1) → s1.src .A d = .ok (v, s2) →
    (∀ t, s2.store (effAddr base o z n) (leBytes n v.toNat) = .ok t → exec i s = .next (t.retire .A)) ∧
    ((effAddr base o z n).toNat % n ≠ 0 → (∃ k, s2.turn = .croft k) ∨ (∃ site slot c, s2.here = .ok (site, slot, c) ∧
        (c.task.msg.dom = 0 ∨ otherTile site (effAddr base o z n) = false)) →
      exec i s = .next (s.raise .A { code := .align, addr := effAddr base o z n })) ∧
    ((∃ site slot c, s2.here = .ok (site, slot, c) ∧ c.task.msg.dom ≠ 0 ∧ otherTile site (effAddr base o z n) = true) →
      exec i s = .next (s.raise .A { code := .illdom, addr := effAddr base o z n }))

/-- The words of an access of `n` bytes at a local address. -/
def wordsAt (ea : Word) (n : Nat) : List Nat := feWords (locOff ea / 4) (n == 8)

/-- A full/empty access of `n` bytes at AddressOf(base, off7, swizzle) by a task of domain 0 is one that R126 allows:
aligned, and local in range. -/
def State.feOk (s : State) (site : Nat) (c : Ctx) (ea : Word) (n : Nat) : Prop :=
  c.task.msg.dom = 0 ∧ ea.toNat % n = 0 ∧ s.localOk site ea n

/-- The port has served the access that a context waits on, and it read `v`. -/
def Ctx.feServed (c : Ctx) (v : Word) : Prop :=
  ∃ tg w f arr, c.aWait.map (·.kind) = some (.fullEmpty tg w f arr (some v))

/-- Such an access can act when it issues (R126): the port has not served it, nothing holds it back (R122, R310), no other waiter is ready before
it, and both tags are in the state that the form wants, if it wants one, and read without error (R385). -/
def State.feReady (s : State) (site : Nat) (c : Ctx) (ea : Word) (n : Nat) (wants : Option Bool) : Prop :=
  let goal := clusterSite site (locTile ea)
  s.feOk site c ea n ∧ s.heldBack = false ∧ (∀ v, ¬ c.feServed v) ∧ (s.tile goal).overlaps (locOff ea) n true = false ∧
    ∀ x, wants = some x → s.feWaiters goal = [] ∧ (s.tile goal).bad = [] ∧ (s.tile goal).weak = [] ∧
      ∀ w ∈ wordsAt ea n, (s.tile goal).full w = x

/-- A full/empty load (R126): the bytes, zero-extended, go to d, and the tags become `after`; nothing else changes but
which blocks an image of the tile takes; then the port serves the accesses that wait for the new tags. One that the port has served gives d what it read there. -/
def FeLoads (i : Instr) (n : Nat) (after : Bool) (d b : Spec) (z : BitVec 3) (o : BitVec 7) : Prop :=
  ∀ (s s1 : State) (base : Word) (site slot : Nat) (c : Ctx), s.issue i = .ok () → s.src .A b = .ok (base, s1) →
    s1.here = .ok (site, slot, c) →
    let ea := effAddr base o z n
    let goal := clusterSite site (locTile ea)
    (s1.feReady site c ea n (some true) → (s1.tile goal).sound →
      ∃ s2 : State, (∀ k, k ≠ goal → s2.tile k = s1.tile k) ∧
        { s2.tile goal with tags := (s1.tile goal).tags, dirty := (s1.tile goal).dirty } = s1.tile goal ∧
        (∀ w, (s2.tile goal).full w = if w ∈ wordsAt ea n then after else (s1.tile goal).full w) ∧
        { s2 with tiles := s1.tiles } = s1 ∧
        ∀ t, (s2.feServe goal fePorts).dst .A d
            (BitVec.ofNat 64 (leNat ((s1.tile goal).spad.readN (locOff ea) n))) = .ok t →
          exec i s = .next (t.retire .A)) ∧
    (∀ v t, s1.feOk site c ea n → c.feServed v → s1.dst .A d v = .ok t → exec i s = .next (t.retire .A))

/-- A full/empty store (R126): the low bytes of Src(d) are written, and the tags become full; then the port serves the
accesses that wait for them. One that the port has served is complete. -/
def FeStores (i : Instr) (n : Nat) (wants : Option Bool) (d b : Spec) (z : BitVec 3) (o : BitVec 7) : Prop :=
  ∀ (s s1 s2 : State) (base v : Word) (site slot : Nat) (c : Ctx), s.issue i = .ok () →
    s.src .A b = .ok (base, s1) → s1.src .A d = .ok (v, s2) → s2.here = .ok (site, slot, c) →
    let ea := effAddr base o z n
    let goal := clusterSite site (locTile ea)
    (s2.feReady site c ea n wants →
      ∃ t : State, exec i s = .next ((t.feServe goal fePorts).retire .A) ∧ (∀ k, k ≠ goal → t.tile k = s2.tile k) ∧
        (t.tile goal).spad = (s2.tile goal).spad.writeN (locOff ea) (leBytes n v.toNat) ∧
        (t.tile goal).ctxs = (s2.tile goal).ctxs ∧
        (∀ w, (t.tile goal).full w = if w ∈ wordsAt ea n then true else (s2.tile goal).full w) ∧
        { t with tiles := s2.tiles } = s2) ∧
    (∀ x, s2.feOk site c ea n → c.feServed x → exec i s = .next (s2.retire .A))

/-- An atomic of one operand (R138, R139, R141 to R143): the address is Src(a), the operand Src(b), and what the operation
returns goes to d, unless it returns nothing, after what the ordering field asks. -/
def ActsAtomically (i : Instr) (op : AtomOp) (d a b : Spec) (o : MemOrder) : Prop :=
  ∀ (s s1 s2 s3 t : State) (ea v : Word) (r : Option Word), s.issue i = .ok () → s.src .A a = .ok (ea, s1) →
    s1.src .A b = .ok (v, s2) → s2.atom op d ea v = .ok (r, s3) →
    (match r with | some x => (s3.orderedBy o ea).dst .A d x | none => .ok (s3.orderedBy o ea)) = .ok t →
    exec i s = .next (t.retire .A)

/-- `bred` (R150): it arrives with its value when it first issues and waits; once the phase of its arrival has completed
it gives that phase's result. -/
def Reduces (i : Instr) (form : Nat) (d a b : Spec) : Prop :=
  ∀ (s s1 s2 : State) (site slot : Nat) (c : Ctx) (l : Launch) (tv v : Word), s.issue i = .ok () →
    s.src .A a = .ok (tv, s1) → s1.src .A b = .ok (v, s2) → s.here = .ok (site, slot, c) → c.task.msg.dom = 0 →
    s2.launch? c.task.msg.launch = some l → s.launch? c.task.msg.launch = some l →
    let tag := tv.toNat % 8
    let bell := vget {} l.bells tag
    (c.aWait = none → l.holdsCell site = true → (∀ x ∈ bell.arrived, x.1 ≠ site ∧ x.2.1 = form) →
      ∃ t e w, exec i s = .next t ∧ t.ctx? site slot = some e ∧ e.aWait = some w ∧ w.kind = .bell tag bell.phase ∧
        (t.launch? c.task.msg.launch).map (fun (x : Launch) => (vget {} x.bells tag).arrived) =
          some (bell.arrived ++ [(site, form, v.setWidth 32)])) ∧
    (∀ w k ph, c.aWait = some w → w.kind = .bell k ph → ph < bell.phase → ∀ t,
      (s2.acquired site).dst .A d (((bell.results[ph]?).getD 0).setWidth 64) = .ok t → exec i s = .next (t.retire .A))

/-! ## Vector and matrix words -/

/-- A tile fits (R157). -/
def Rect.fits (t : Rect) : Prop :=
  t.rows * t.cols * t.ty.size ≤ 4096 ∧ 1 ≤ t.rows ∧ t.rows ≤ 64 ∧ 1 ≤ t.cols ∧ t.cols ≤ 256

/-- A vector instruction (R156 to R162): `regs` must name registers, `scal` is its scalar operand if it has one; with the
rows and columns of VSHAPE, `ins` and `out` give its tiles, `cond` its own condition on the shape, and `f` its result
from the scalar, the modes and the source elements. When a tile does not fit or the condition fails it raises SHAPE;
else the sources are read in order, the result is written, the flags and AMAX stick, the vector unit is held for the
time of the largest tile, and the stream goes on. -/
def VecRuns (i : Instr) (regs : List VSpec) (scal : Option Spec) (ins : Nat → Nat → List (VSpec × Rect))
    (out : Nat → Nat → VSpec × Rect) (cond : Nat → Nat → Prop)
    (f : Word → Nat → Nat → Modes → List (List Nat) → VRes) : Prop :=
  ∀ (s s0 : State) (site slot : Nat) (m : Stream) (c : Ctx) (v : Word), s.issue i = .ok () →
    (match scal with | none => s0 = s ∧ v = 0 | some x => s.src .C x = .ok (v, s0)) →
    s0.turn = .tile site slot m → s0.ctx? site slot = some c → (∀ r ∈ regs, r.toNat < 28) →
    let rows := c.vshape.toNat % 64 + 1
    let cols := c.vshape.toNat / 256 % 256 + 1
    let o := out rows cols
    let fits : Prop := cond rows cols ∧ o.2.fits ∧ ∀ p ∈ ins rows cols, p.2.fits
    (¬ fits → exec i s = .next (s.raise .C { code := .shape })) ∧
    (fits → ∀ (vals : List (List Nat)) (s1 s2 : State), s0.vsrcs site slot (ins rows cols) = .ok (vals, s1) →
      let r := f v rows cols c.modes vals
      s1.vdst site slot o.1 o.2 r.es = .ok s2 →
      exec i s = .next (((s2.modCtx site slot (·.stickRes r)).holdVector site slot c
        (((ins rows cols).map (fun p => p.2.bytes)).foldl Nat.max o.2.bytes)).retire .C))

/-- Element-wise on one source. -/
def Vec1 (i : Instr) (d a : VSpec) (t u : VType) (g : Modes → Nat → El) : Prop :=
  VecRuns i [] none (fun r k => [(a, ⟨r, k, t⟩)]) (fun r k => (d, ⟨r, k, u⟩)) (fun _ _ => True)
    (fun _ _ _ md vs => VRes.ofEls ((srcAt vs 0).map (g md)))

/-- Element-wise on two sources. -/
def Vec2 (i : Instr) (d a b : VSpec) (t t2 u : VType) (g : Modes → Nat → Nat → El) : Prop :=
  VecRuns i [] none (fun r k => [(a, ⟨r, k, t⟩), (b, ⟨r, k, t2⟩)]) (fun r k => (d, ⟨r, k, u⟩)) (fun _ _ => True)
    (fun _ _ _ md vs => VRes.ofEls (List.zipWith (g md) (srcAt vs 0) (srcAt vs 1)))

/-- Element-wise on two sources and the destination, which must be a register (R159). -/
def Vec3 (i : Instr) (d a b : VSpec) (t u : VType) (g : Modes → Nat → Nat → Nat → El) : Prop :=
  VecRuns i [d] none (fun r k => [(a, ⟨r, k, t⟩), (b, ⟨r, k, t⟩), (d, ⟨r, k, u⟩)]) (fun r k => (d, ⟨r, k, u⟩))
    (fun _ _ => True) (fun _ _ _ md vs => VRes.ofEls (zip3 (g md) (srcAt vs 0) (srcAt vs 1) (srcAt vs 2)))

/-- Element-wise on one source and a scalar (R177). -/
def VecS (i : Instr) (d a : VSpec) (sc : Spec) (t : VType) (g : Modes → Nat → Word → El) : Prop :=
  VecRuns i [] (some sc) (fun r k => [(a, ⟨r, k, t⟩)]) (fun r k => (d, ⟨r, k, t⟩)) (fun _ _ => True)
    (fun v _ _ md vs => VRes.ofEls ((srcAt vs 0).map (fun x => g md x v)))

/-- An integer result that wraps. -/
def intEl (t : VType) (z : Int) : El := { p := (z % (2 ^ t.width : Nat)).toNat }

/-- An integer result that saturates and says so (R43). -/
def satEl (t : VType) (z : Int) : El :=
  { p := (max t.lo (min t.hi z) % (2 ^ t.width : Nat)).toNat, sat := decide (z < t.lo ∨ t.hi < z) }

/-! ## Engine commands -/

/-- The event of the engine command with an opcode (R91). -/
def EngineCmd (opc : Nat) (i : Nat → Nat → Instr) : Prop :=
  (opc = 0x01 ∧ i = .ceCopy) ∨ (opc = 0x02 ∧ i = .ceCopy2d) ∨ (opc = 0x03 ∧ i = .ceFill) ∨ (opc = 0x04 ∧ i = .ceCopymma) ∨
  (opc = 0x10 ∧ i = .geGather) ∨ (opc = 0x11 ∧ i = .geScatter) ∨ (opc = 0x12 ∧ i = .geScatw) ∨
  (opc = 0x20 ∧ i = .meMma) ∨ (opc = 0x30 ∧ i = .clReduce) ∨ (opc = 0x31 ∧ i = .clBcast) ∨ (opc = 0x40 ∧ i = .msgCall) ∨
  (opc = 0x41 ∧ i = .msgReply) ∨ (opc = 0x50 ∧ i = .qfenceCommand) ∨ (opc = 0x60 ∧ i = .netPair)

/-- The command at a place of a tile's list may start and run here (R89 to R92, R205): port order, fences and FOLLOW
let it, it is neither cancelled nor rejected, and it is not one that e6 hands to another tile's engines. -/
def State.starts (s : State) (opc site idx : Nat) (m : Cmd) : Prop :=
  s.cmdAt site idx = some m ∧ hdrOpc m.hdr = opc ∧ (s.tile site).mayStart m = true ∧ (s.tile site).cancelled m = none ∧
    m.bad = false ∧ (m.port = 6 → m.remote = true ∨ 0x30 ≤ opc)

/-- A command that starts does `go`; a fault stops it and is told in its completion (R207), a wait leaves all as it
was. -/
def Engine (i : Nat → Nat → Instr) (opc : Nat) (go : Nat → Cmd → State → Try State) : Prop :=
  ∀ (s : State) (site idx : Nat) (m : Cmd), s.starts opc site idx m →
    (∀ t, go site m (s.startCmd site idx m) = .ok t → exec (i site idx) s = .next t) ∧
    (∀ f, go site m (s.startCmd site idx m) = .error (.trap f) →
      exec (i site idx) s = .next ((s.startCmd site idx m).failCmd site m f)) ∧
    (∀ k, go site m (s.startCmd site idx m) = .error (.wait k) → exec (i site idx) s = .next s)

/-! ## Frames -/

/-- What only touches one context of one tile, and a tile's command list and counters, leaves the rest of the machine
alone: all of memory, every scratchpad, cache, field, interface and other context. A launch may only note that a bit
error was corrected (R385). -/
def State.keeps (s t : State) (site slot : Nat) : Prop :=
  { t with tiles := s.tiles, launches := s.launches } = s ∧
  (∀ l, (t.launch? l).map (fun (a : Launch) => { a with corrected := false }) =
    (s.launch? l).map (fun (a : Launch) => { a with corrected := false })) ∧
  (∀ k, k ≠ site → t.tile k = s.tile k) ∧
  (∀ k, k ≠ slot → t.ctx? site k = s.ctx? site k) ∧
  { t.tile site with
      ctxs := (s.tile site).ctxs, cmds := (s.tile site).cmds, seq := (s.tile site).seq,
      cnt := (s.tile site).cnt, cntOvf := (s.tile site).cntOvf } = s.tile site

/-- What an instruction's operand signature lets it change in its context, and nothing else: the registers it writes,
the queues and ports it names, and the stream's place. -/
def Ctx.keeps (i : Instr) (c d : Ctx) : Prop :=
  { d with
      pc := c.pc, x := c.x, s := c.s, q := c.q, out := c.out, cap := c.cap, inp := c.inp, front := c.front,
      frame := c.frame, aWait := c.aWait, cWait := c.cWait, marks := c.marks, buf := c.buf, aFront := c.aFront,
      qMark := c.qMark, popped := c.popped } = c ∧
  (∀ f : Spec, f ∉ i.uses.dst → f ∉ i.uses.both → d.reg i.stream f = c.reg i.stream f) ∧
  (i.stream = .A → d.s = c.s) ∧ (i.stream = .C → d.x = c.x) ∧
  (∀ k, k < 8 → BitVec.ofNat 6 (48 + k) ∉ i.uses.src → BitVec.ofNat 6 (48 + k) ∉ i.uses.dst →
    vget [] d.q k = vget [] c.q k) ∧
  (∀ k, k < 4 → BitVec.ofNat 6 (57 + 2 * k) ∉ i.uses.src → vget [] d.inp k = vget [] c.inp k) ∧
  (∀ k, k < 4 → BitVec.ofNat 6 (56 + 2 * k) ∉ i.uses.dst → vget [] d.out k = vget [] c.out k) ∧
  ((∀ f ∈ i.uses.dst, f.toNat < 56) → d.buf = c.buf)

end Sys2Proof.Machine
end

