-- ==== Sys2Proof/Certificates/Slice0/Obligations.lean ====
section
/-! DEFINITION. The statements about the machine, each formalising rules of the spec. -/

open Sys2Proof Sys2Proof.Machine

/-! ## Encodings -/

/-- Encoding and decoding agree: the word that encodes a well-formed instruction decodes to that instruction, on the
kind of core for which it is well formed, at every value of every operand. After R68, R83, R394. -/
def Obligations.EncodeThenDecode : Prop :=
  ∀ (k : CoreKind) (i : Instr) (w : IWord), i.wellFormed k = true → encode i = some w → decode k w = .ok i

/-- Every word has at most one meaning and no bit of an accepted word is ignored: what a word decodes to encodes to
that very word and is well formed on that kind of core. After R69, R75. -/
def Obligations.DecodeThenEncode : Prop :=
  ∀ (k : CoreKind) (i : Instr) (w : IWord), decode k w = .ok i → encode i = some w ∧ i.wellFormed k = true

/-- Sixteen words, taken from the spec's examples or laid out from its encoding tables, decode to the instructions
they stand for: integer, immediate, part, floating point, branch, jump, rpt, safept, system register and Croft words.
After R94, R96, R97, R99, R100, R102, R103, R106, R112, R394. -/
def Obligations.WrittenOutWords : Prop :=
  decode .tile 0x801E8000 = .ok (.add .A 3 52 0) ∧
  decode .tile 0x8C50C020 = .ok (.slli .A 10 6 32) ∧
  decode .tile 0x8C514819 = .ok (.srli .A 10 10 25) ∧
  decode .tile 0x8E0813C6 = .ok (.li .A 1 0x13C6) ∧
  decode .tile 0x900F79B1 = .ok (.lih .A 1 0x779B1) ∧
  decode .tile 0x9630E000 = .ok (.part 6 7 0) ∧
  decode .tile 0x18182103 = .ok (.ffma 3 1 2) ∧
  decode .tile 0xA0217FFC = .ok (.bnez 2 0x7FFC) ∧
  decode .tile 0xA2080010 = .ok (.jal 1 16) ∧
  decode .tile 0x26001820 = .ok (.rpt 3 1) ∧
  decode .tile 0xA8000403 = .ok (.safept 3) ∧
  decode .tile 0xAA280028 = .ok (.sysrd .A 5 0x28) ∧
  decode .tile 0x2A007000 = .ok (.syswr .C 3 0) ∧
  decode .croft 0xFC002100 = .ok (.mext 1 2) ∧
  decode .croft 0xFC28C003 = .ok (.cfgrd 5 6) ∧
  decode .croft 0xFC000005 = .ok .fret

/-- The three permanently illegal words decode to ILLOP on a tile and on a Croft core (R76). Besides: every word of
major 0x3F on every core, every word of major 0x3E on a tile; on a Croft core major 0x3E decodes to nothing but the
privileged set. After R76. -/
def Obligations.PermanentlyIllegalWords : Prop :=
  (∀ k : CoreKind, decode k 0 = .error .illop ∧ decode k 0x80000000 = .error .illop ∧
    decode k 0xFFFFFFFF = .error .illop) ∧
  (∀ (k : CoreKind) (w : IWord), w.extractLsb' 25 6 = 0x3F → decode k w = .error .illop) ∧
  (∀ w : IWord, w.extractLsb' 25 6 = 0x3E → decode .tile w = .error .illop) ∧
  (∀ (i : Instr) (w : IWord), w.extractLsb' 25 6 = 0x3E → decode .croft w = .ok i →
    i = .fret ∨ (∃ a b, i = .mext a b) ∨ (∃ a b, i = .mget a b) ∨ (∃ a, i = .mlock a) ∨ (∃ d a, i = .cfgrd d a) ∨
      (∃ a b, i = .cfgwr a b))

/-- A class instruction on a tile of another class, a matrix register word on a VT, and a bank that the tile does not
have raise ILLCLASS with detail 0, whatever the operands. A word that the decoder refuses as ILLOP or ILLSTRM raises
that code in its own stream with detail 0. After R13, R75. -/
def Obligations.WordsThatDoNotDecode : Prop :=
  (
  ∀ (s : State) (site slot : Nat) (c : Ctx) (bank : BitVec 3) (a b g : Spec),
    s.turn = .tile site slot .C → s.ctx? site slot = some c →
    let bad (i : Instr) := exec i s = .next (s.raise .C { code := .illclass })
    (siteClass site ≠ .dt → bad (.mma bank a b g) ∧ bad (.mmaZ bank a b g) ∧ bad (.mmaT bank a b g) ∧
      bad (.mmaTz bank a b g)) ∧
    (siteClass site ≠ .st ∨ 4 ≤ bank.toNat → bad (.smma bank a b g) ∧ bad (.smmaZ bank a b g) ∧
      bad (.smmaB bank a b g)) ∧
    (siteClass site ≠ .at ∨ 4 ≤ bank.toNat → bad (.attnQk bank a b g) ∧ bad (.attnSm bank g) ∧
      bad (.attnPv bank a g) ∧ bad (.attnFin bank g) ∧ bad (.attnStep bank a b g)) ∧
    (siteClass site = .vt ∨ (siteClass site ≠ .dt ∧ 4 ≤ bank.toNat) → bad (.mzero bank) ∧ bad (.mrd bank a g) ∧
      bad (.mwr bank a g) ∧ bad (.mscl bank a b g))) ∧
  (
  ∀ (s : State) (k : CoreKind) (m : Stream) (w : IWord),
    (decode k w = .error .illop → runWord k m w s = .next (s.raise m { code := .illop, detail := 0 })) ∧
    (decode k w = .error .illstrm → runWord k m w s = .next (s.raise m { code := .illstrm, detail := 0 })))

/-! ## Steps -/

/-- On a tile whose turn it is, with the context current and room in the front end, a step of the A-stream runs exec
of the instruction that the word at the pc decodes to, or, when A-stream words fetched ahead wait, of the oldest of
these; a C-stream word met at the pc goes to the end of the front end and the pc moves 4 on, cut to bits [56:2] (log
84). A fetch ahead of a waiting A-stream word puts a C-stream word behind the front end's and an A-stream word behind
those that wait, and leaves the pc. A step of the C-stream runs exec of its next word, a vector word only while the
tile's vector unit is free; a step of a Croft core runs exec of the word at its pc; an event of the agenda runs as its
instruction. The agenda, the turn and the size of the A-stream's front end are the model's own (logs 1 and 85). After
R9, R15. -/
def Obligations.StepRunsTheDecodedInstruction : Prop :=
  (∀ (s₀ s s' : State) (site slot : Nat) (c : Ctx) (w : IWord) (i : Instr), s₀.onTurn s → s.turn = .tile site slot .A →
    s.ctx? site slot = some c → (s.tile site).awake = true → (s.tile site).cur = some slot →
    c.front.length < Config.frontWords → c.aFront = [] → s.fetch (s.spaceOf site) c.pc = .ok (w, s') →
    streamOf w = .A → decode .tile w = .ok i → step s₀ = exec i (s'.firstRun c.task.msg.launch)) ∧
  (∀ (s₀ s : State) (site slot : Nat) (c : Ctx) (a : AWord) (r : List AWord) (i : Instr), s₀.onTurn s →
    s.turn = .tile site slot .A → s.ctx? site slot = some c → (s.tile site).awake = true →
    (s.tile site).cur = some slot → c.front.length < Config.frontWords → c.aFront = a :: r →
    decode .tile a.word = .ok i → step s₀ = exec i (s.firstRun c.task.msg.launch)) ∧
  (∀ (s₀ s s' : State) (site slot : Nat) (c : Ctx) (w : IWord), s₀.onTurn s → s.turn = .tile site slot .A →
    s.ctx? site slot = some c → (s.tile site).awake = true → (s.tile site).cur = some slot →
    c.front.length < Config.frontWords → c.aFront = [] → s.fetch (s.spaceOf site) c.pc = .ok (w, s') →
    streamOf w = .C → step s₀ = .next ((s'.firstRun c.task.msg.launch).modCtx site slot
      (fun c => { c with front := c.front ++ [(c.pc, w)], fetched := c.fetched + 1, pc := pcCut (c.pc + 4) }))) ∧
  (∀ (s s' : State) (site slot : Nat) (c c' : Ctx) (w : IWord) (r : List Move), s.agenda = .fetch site slot :: r →
    s.ctx? site slot = some c → (s.tile site).awake = true → (s.tile site).cur = some slot →
    c.front.length < Config.frontWords → c.aFront.length < Config.aFrontWords →
    (∀ a, c.aFront.getLast? = some a → fetchStops a.word = false) →
    (({ s with agenda := r } : State).fetch (s.spaceOf site) (if c.aFront = [] then c.pc else c.ahead)) = .ok (w, s') →
    s'.ctx? site slot = some c → c.enterAhead (if c.aFront = [] then c.pc else c.ahead) w = some c' →
    step s = .next (s'.setCtx site slot c') ∧
      (streamOf w = .A → ∃ a, c'.aFront = c.aFront ++ [a] ∧ a.word = w ∧ c'.front = c.front ∧ c'.pc = c.pc) ∧
      (streamOf w = .C → c'.front.map Prod.snd = c.front.map Prod.snd ++ [w] ∧ c'.aFront = c.aFront)) ∧
  (∀ (s₀ s : State) (site slot : Nat) (c : Ctx) (w : IWord) (i : Instr), s₀.onTurn s → s.turn = .tile site slot .C →
    s.ctx? site slot = some c → (s.tile site).awake = true → (s.tile site).cur = some slot → c.vecBusy = 0 →
    c.issueC = some w → (isVector w = true → (s.tile site).vecHold = 0) → decode .tile w = .ok i → step s₀ = exec i s) ∧
  (∀ (s₀ s s' : State) (n : Nat) (w : IWord) (i : Instr), s₀.onTurn s → s.turn = .croft n → (s.croft n).held = false →
    s.croftFetch n = .ok (w, s') → decode .croft w = .ok i → step s₀ = exec i s') ∧
  (∀ (s : State) (i : Instr) (r : List Move), s.agenda = .event i :: r → step s = exec i { s with agenda := r })

/-! ## Operand forms, waits and faults -/

/-- Sources, for a context without bit errors: register 0 reads zero; a register gives its value; a queue or an input
port that the stream reads gives its oldest entry, which leaves it, and makes the instruction wait when empty; a
specifier that the stream does not have raises ILLSTRM, one that it may not read ILLOP. Destinations: a write to
register 0 changes no register; a write to a register changes that register; a push goes to the tail of a queue
(beside the entries the model keeps how many commands its tile had when each was pushed, for R310); a word written to
an output port goes behind the partly written command there, and the word that completes it (said for domain 0) puts
the command on the tile's list with the modes of FPC from when its header was written; a specifier that the stream
does not have raises ILLSTRM, one that it may not write ILLOP. On a Croft core, specifiers below 48 read and write its
own registers and nothing else changes. That Croft cores have no others is the model's reading (log 10). After R17,
R18, R20, R385, R89, R25. -/
def Obligations.OperandForms : Prop :=
  (
  (∀ (s : State) (site slot : Nat) (m n : Stream) (c : Ctx) (f : Spec), s.turn = .tile site slot n →
    s.ctx? site slot = some c → c.marks = [] →
    (f = 0 → ∃ t, s.src m f = .ok (0, t) ∧ s.keeps t site slot ∧ t.ctx? site slot = some c) ∧
    (f ≠ 0 → f.toNat < 48 → ∃ t, s.src m f = .ok (match m with | .A => vget 0 c.x f.toNat | .C => vget 0 c.s f.toNat, t) ∧
      s.keeps t site slot ∧ t.ctx? site slot = some c) ∧
    (∀ v r, 48 ≤ f.toNat → f.toNat < 56 → canRead m f = true → vget [] c.q (f.toNat - 48) = v :: r →
      ∃ t, s.src m f = .ok (v, t) ∧ s.keeps t site slot ∧
        t.ctx? site slot =
          some (({ c with q := vput c.q (f.toNat - 48) r } : Ctx).popMark f)) ∧
    (∀ v r, 56 ≤ f.toNat → specExists .tile m f = true → canRead m f = true → vget [] c.inp ((f.toNat - 57) / 2) = v :: r →
      ∃ t, s.src m f = .ok (v, t) ∧ s.keeps t site slot ∧
        t.ctx? site slot = some { c with inp := vput c.inp ((f.toNat - 57) / 2) r }) ∧
    (48 ≤ f.toNat → f.toNat < 56 → canRead m f = true → vget [] c.q (f.toNat - 48) = [] →
      s.src m f = .error (.wait .queue)) ∧
    (56 ≤ f.toNat → specExists .tile m f = true → canRead m f = true → vget [] c.inp ((f.toNat - 57) / 2) = [] →
      s.src m f = .error (.wait .queue)) ∧
    (specExists .tile m f = false → s.src m f = .error (.trap { code := .illstrm })) ∧
    (specExists .tile m f = true → canRead m f = false → s.src m f = .error (.trap { code := .illop }))) ∧
  (∀ (s : State) (n : Nat) (m : Stream) (f : Spec), s.turn = .croft n → f.toNat < 48 →
    s.src m f = .ok (if f = 0 then 0 else vget 0 (s.croft n).x f.toNat, s))) ∧
  (
  (∀ (s : State) (site slot : Nat) (m n : Stream) (c : Ctx) (f : Spec) (v : Word), s.turn = .tile site slot n →
    s.ctx? site slot = some c → c.marks = [] →
    (f = 0 → ∃ t, s.dst m f v = .ok t ∧ s.keeps t site slot ∧ t.ctx? site slot = some c) ∧
    (f ≠ 0 → f.toNat < 48 → ∃ t, s.dst m f v = .ok t ∧ s.keeps t site slot ∧
      t.ctx? site slot = some (match m with
        | .A => { c with x := vput c.x f.toNat v }
        | .C => { c with s := vput c.s f.toNat v })) ∧
    (48 ≤ f.toNat → f.toNat < 56 → canWrite m f = true → ∃ t, s.dst m f v = .ok t ∧ s.keeps t site slot ∧
      t.ctx? site slot = some
        (({ c with q := vput c.q (f.toNat - 48) (vget [] c.q (f.toNat - 48) ++ [v]) } : Ctx).pushMark f (s.tile site).seq)) ∧
    (∀ k, k = (f.toNat - 56) / 2 → 56 ≤ f.toNat → specExists .tile m f = true → canWrite m f = true →
      (vget [] c.out k ++ [v]).length ≠ hdrCnt (wordAt (vget [] c.out k ++ [v]) 0) + 1 →
      ∃ t d, s.dst m f v = .ok t ∧ s.keeps t site slot ∧ t.ctx? site slot = some d ∧
        { d with cap := c.cap } = { c with out := vput c.out k (vget [] c.out k ++ [v]) }) ∧
    (∀ k, k = (f.toNat - 56) / 2 → 56 ≤ f.toNat → specExists .tile m f = true → canWrite m f = true →
      c.task.msg.dom = 0 → (vget [] c.out k ++ [v]).length = hdrCnt (wordAt (vget [] c.out k ++ [v]) 0) + 1 →
      ∃ t cmd, s.dst m f v = .ok t ∧ s.keeps t site slot ∧ t.ctx? site slot = some { c with out := vput c.out k [] } ∧
        (t.tile site).cmds = (s.tile site).cmds ++ [cmd] ∧ cmd.words = vget [] c.out k ++ [v] ∧ cmd.port = 2 * k ∧
        cmd.slot = some slot ∧ cmd.task = c.task.id ∧ cmd.run = c.run ∧ cmd.running = false ∧
        cmd.cap = if vget [] c.out k = [] then c.fpc.setWidth 16 else vget 0 c.cap k) ∧
    (specExists .tile m f = false → s.dst m f v = .error (.trap { code := .illstrm })) ∧
    (specExists .tile m f = true → canWrite m f = false → s.dst m f v = .error (.trap { code := .illop }))) ∧
  (∀ (s : State) (n : Nat) (m : Stream) (f : Spec) (v : Word), s.turn = .croft n → f.toNat < 48 →
    ∃ t, s.dst m f v = .ok t ∧ { t with crofts := s.crofts } = s ∧
      t.croft n = (if f = 0 then s.croft n else { s.croft n with x := vput (s.croft n).x f.toNat v }) ∧
      ∀ k, k ≠ n → t.croft k = s.croft k))

/-- For an instruction with a word, on a tile that has it: while some queue or port that it pops holds less than it
pops, or some queue or port that it pushes has less room than it pushes, exec changes nothing but the two streams'
wait records of its context, and its stream waits for a queue. That an instruction which lacks one entry waits, and
does not raise SHAPE for another entry of a wrong shape that is there, is the model's reading (log 19). That ppop.nb
and steal wait for room in the queue named b even when the Fold is empty and nothing would be pushed is the model's
choice (log 102): R20 asks for room for what is pushed. After R20, R42. -/
def Obligations.QueuesBlockIssue : Prop :=
  ∀ (i : Instr) (s : State) (site slot : Nat) (m : Stream) (c : Ctx), s.turn = .tile site slot m →
    s.ctx? site slot = some c → encode i ≠ none → i.coreOk .tile = true → classOk (siteClass site) i = true →
    ((∃ f, f ∈ i.uses.src ∧ 48 ≤ f.toNat ∧ c.holds f < occurs f i.uses.src) ∨
      (∃ f, f ∈ i.uses.dst ∧ 48 ≤ f.toNat ∧ queueRoom (s.tile site) slot c f < occurs f i.uses.dst) ∨
      (∃ v, v ∈ i.uses.vsrc ∧ 28 ≤ v.toNat ∧
        (vget [] c.vq (v.toNat - 28)).length < (i.uses.vsrc.filter (· == v)).length) ∨
      (∃ v, v ∈ i.uses.vdst ∧ 28 ≤ v.toNat ∧ 4 ≤ (vget [] c.vq (v.toNat - 28)).length)) →
    ∃ t d, exec i s = .next t ∧ s.keeps t site slot ∧ t.ctx? site slot = some d ∧
      { d with aWait := c.aWait, cWait := c.cWait } = c ∧
      (d.waitOf i.stream).map Wait.kind = some .queue

/-- A fault on a tile frees the context, counts an abort, and leaves every scratchpad, tag, L1, home slice and HBM
byte as it is. The task goes to the end of its tile's inbox, or parked or held to the Launch Unit, as the disposition
of its code says; with a repeat count of 16 it is held whatever the code. The record of a parked or held task with
FRCTL on is queued for its interface: code, domain, TASKID, detail, address and pc stand in its doublewords. That
DETAIL is the low 16 bits of a wider detail is the model's reading (log 11). UCE, POISON and TIMING: a good tile
becomes suspect; the task of a restartable launch goes to another tile of its class that the launch holds, to run
again, from its snapshot when it has one; without such a tile, in a launch that is not restartable, or at the repeat
count of 16 it is held; UCE or POISON in a launch that is not restartable taints it; the record says so. After R272,
R381, R382, R275, R364, R384, R385. -/
def Obligations.TileFaultPlacesTheTask : Prop :=
  (
  ∀ (s : State) (site slot : Nat) (m n : Stream) (c : Ctx) (l : Launch) (t : Trap), s.turn = .tile site slot n →
    s.ctx? site slot = some c → s.launch? c.task.msg.launch = some l → (s.tile site).launch = some c.task.msg.launch →
    t.code ≠ .uce → t.code ≠ .poison → t.code ≠ .timing →
    let r := s.raise m t
    let task := c.task.repeated t.code (c.pcOf m)
    let d := if 16 ≤ task.rep then .held else dispoOf t.code t.detail false l.restartable
    r.ctx? site slot = none ∧ r.mem = s.mem ∧ r.l2 = s.l2 ∧
    (∀ k, (r.tile k).spad = (s.tile k).spad ∧ (r.tile k).tags = (s.tile k).tags ∧ (r.tile k).l1 = (s.tile k).l1) ∧
    (r.launch? c.task.msg.launch).map (·.aborts) = some (l.aborts + 1) ∧
    (d = .same → (r.tile site).inbox = (s.tile site).inbox ++ [task] ∧ r.luTasks = s.luTasks ∧ r.vis = s.vis) ∧
    (d = .parked → r.luTasks = s.luTasks ++ [⟨task, site, .parked⟩]) ∧
    (d = .held → r.luTasks = s.luTasks ++ [⟨task, site, .held⟩]) ∧
    (d = .parked ∨ d = .held → (r.tile site).inbox = (s.tile site).inbox ∧
      ((s.vi c.task.msg.vi).frctl.getLsbD 0 = true → ∃ rec, (r.vi c.task.msg.vi).frpend =
        (s.vi c.task.msg.vi).frpend ++ [rec] ∧ rec.length = 8 ∧ fld (wordAt rec 0) 56 8 = t.code.num ∧
        fld (wordAt rec 0) 40 8 = task.msg.dom ∧ fld (wordAt rec 0) 0 32 = task.id ∧
        fld (wordAt rec 1) 0 16 = t.detail.setWidth 16 ∧ wordAt rec 2 = (t.addr.setWidth 57).setWidth 64 ∧
        wordAt rec 3 = ((c.pcOf m).setWidth 57).setWidth 64))) ∧
  (
  ∀ (s : State) (site slot : Nat) (m n : Stream) (c : Ctx) (l : Launch) (t : Trap), s.turn = .tile site slot n →
    s.ctx? site slot = some c → s.launch? c.task.msg.launch = some l → (s.tile site).launch = some c.task.msg.launch →
    t.code = .uce ∨ t.code = .poison ∨ t.code = .timing →
    let r := s.raise m t
    let old := c.task.repeated t.code (c.pcOf m)
    let task := if l.restartable then { old with
        again := old.snap.isSome
        redo := if old.redo = some .uce ∨ old.redo = some .poison then old.redo else some t.code } else old
    let others := s.otherTiles c.task.msg.launch site
    let moves : Prop := l.restartable = true ∧ task.rep < 16 ∧ others ≠ []
    r.ctx? site slot = none ∧ r.mem = s.mem ∧ r.l2 = s.l2 ∧
    (∀ k, (r.tile k).spad = (s.tile k).spad ∧ (r.tile k).tags = (s.tile k).tags ∧ (r.tile k).l1 = (s.tile k).l1) ∧
    (r.tile site).status = (if (s.tile site).status = 0 then 1 else (s.tile site).status) ∧
    (∃ l', r.launch? c.task.msg.launch = some l' ∧ l'.aborts = l.aborts + 1 ∧
      (t.code ≠ .timing → l.restartable = false → l'.tainted = true)) ∧
    (moves → ∃ goal, goal ∈ others ∧ r.luTasks = s.luTasks ++ [⟨task, goal, .queued⟩]) ∧
    (¬ moves → r.luTasks = s.luTasks ++ [⟨task, site, .held⟩]) ∧
    ((s.vi c.task.msg.vi).frctl.getLsbD 0 = true → ∃ rec, (r.vi c.task.msg.vi).frpend =
      (s.vi c.task.msg.vi).frpend ++ [rec] ∧ rec.length = 8 ∧ fld (wordAt rec 0) 56 8 = t.code.num ∧
      (moves → fld (wordAt rec 0) 48 8 = 3) ∧ (¬ moves → fld (wordAt rec 0) 48 8 = 2) ∧
      ((s.tile site).status = 0 → fld (wordAt rec 0) 34 1 = 1) ∧ fld (wordAt rec 0) 0 32 = task.id))

/-- A fault on a Croft core with a detail below 2^16: CEPC takes the pc, CFLT the code above the detail, CFADDR the
address; PREV takes LEVEL, LEVEL becomes F and the pc becomes CVEC, cut to bits [56:2]; nothing else of that core, of
another core or of the machine changes. That CFLT keeps 16 bits of a detail, and that a pc has bits [56:2] only, are
the model's readings (logs 11 and 84). After R393. -/
def Obligations.CroftFaultEntry : Prop :=
  ∀ (s : State) (n : Nat) (m : Stream) (t : Trap), s.turn = .croft n → t.detail.toNat < 2 ^ 16 →
    let c := s.croft n
    let r := s.raise m t
    (r.croft n).cepc = c.pc ∧
    (r.croft n).cflt = BitVec.ofNat 64 (65536 * t.code.num.toNat + t.detail.toNat) ∧
    (r.croft n).cfaddr = BitVec.ofNat 64 (t.addr.toNat % 2 ^ 57) ∧
    (r.croft n).prev = c.level ∧ (r.croft n).level = true ∧ (r.croft n).pc = pcCut c.cvec ∧
    { r.croft n with cepc := c.cepc, cflt := c.cflt, cfaddr := c.cfaddr, prev := c.prev, level := c.level, pc := c.pc }
      = c ∧
    (∀ k, k ≠ n → r.croft k = s.croft k) ∧ { r with crofts := s.crofts } = s

/-- At level D each privileged word raises PRIV. At level F: fret takes the level from PREV and the pc from CEPC, cut
to bits [56:2] (log 84), and changes nothing else; mlock locks a register; mext of an unlocked register and an aligned
address in HBM makes it the digest of its bytes and the 64 bytes there, of a locked one raises PROT with detail 8;
mget writes a register's 64 bytes to the line at the address and to no other; cfgrd gives and cfgwr sets what
configuration space holds, cfgrd raises ALIGN at a misaligned address and PROT with detail 7 where no unit has a
register. The digest function is an opaque constant (log 5), and how mext reads its line is the model's reading (log
24). After R394, R395, R7. -/
def Obligations.PrivilegedWords : Prop :=
  (
  ∀ (s : State) (n : Nat), s.turn = .croft n →
    ((s.croft n).level = false → ∀ i : Instr,
      (i = .fret ∨ (∃ a b, i = .mext a b) ∨ (∃ a b, i = .mget a b) ∨ (∃ a, i = .mlock a) ∨ (∃ d a, i = .cfgrd d a) ∨
        (∃ a b, i = .cfgwr a b)) → exec i s = .next (s.raise .A { code := .priv })) ∧
    ((s.croft n).level = true → ∃ t, exec .fret s = .next t ∧ (t.croft n).level = (s.croft n).prev ∧
      (t.croft n).pc = pcCut (s.croft n).cepc ∧
      { t.croft n with level := (s.croft n).level, pc := (s.croft n).pc } = s.croft n ∧
      (∀ k, k ≠ n → t.croft k = s.croft k) ∧ { t with crofts := s.crofts } = s)) ∧
  (
  ∀ (s s1 : State) (n : Nat) (d a b : Spec) (v : Word), s.turn = .croft n → (s.croft n).level = true →
    s.src .A a = .ok (v, s1) →
    (s.issue (.mlock a) = .ok () → v.toNat < 16 → exec (.mlock a) s =
      .next (({ s1 with sec := { s1.sec with lock := s1.sec.lock ||| BitVec.twoPow 16 v.toNat } } : State).retire .A)) ∧
    (∀ (p : Word) (s2 : State), s1.src .A b = .ok (p, s2) → v.toNat < 16 → p.toNat % 64 = 0 → p.toNat < Config.hbmBytes →
      (∀ l s3, s.issue (.mext a b) = .ok () → s2.sec.lock.getLsbD v.toNat = false → s2.measLine n p = .ok (l, s3) →
        ∃ t, exec (.mext a b) s = .next t ∧
          vget 0 t.sec.meas v.toNat = Config.sha512 (s3.measBytes v.toNat ++ lineBytes l 0 64) ∧
          (∀ k, k ≠ v.toNat → vget 0 t.sec.meas k = vget 0 s3.sec.meas k) ∧ t.mem = s3.mem ∧ t.l2 = s3.l2) ∧
      (s.issue (.mext a b) = .ok () → s2.sec.lock.getLsbD v.toNat = true →
        exec (.mext a b) s = .next (s.raise .A { code := .prot, detail := 8, addr := p })) ∧
      (s.issue (.mget a b) = .ok () → ∃ t, exec (.mget a b) s = .next t ∧
        t.lineAt (.pa (p.toNat / 64)) = vget 0 s2.sec.meas v.toNat ∧ t.sec = s2.sec ∧
        (s2.mem.wf = true → ∀ k, k ≠ LineKey.pa (p.toNat / 64) → k.exists = true →
          (∀ n, k = .pa n → s2.stackOk n = true) → t.lineAt k = s2.lineAt k) ∧
        (s2.makeRoom (s2.lineField (.pa (p.toNat / 64))) (.pa (p.toNat / 64)) = s2 → t.mem = s2.mem ∧
          ∀ k, k ≠ LineKey.pa (p.toNat / 64) → t.lineAt k = s2.lineAt k))) ∧
    (s.issue (.cfgrd d a) = .ok () →
      (∀ w s2 t, s1.cfgRead (v.setWidth 32) = .ok (w, s2) → s2.dst .A d w = .ok t →
        exec (.cfgrd d a) s = .next (t.retire .A)) ∧
      (v.toNat % 8 ≠ 0 → exec (.cfgrd d a) s =
        .next (s.raise .A { code := .align, addr := (v.setWidth 32).setWidth 64 })) ∧
      (v.toNat % 8 = 0 → (∀ u, cfgUnit (v.setWidth 32) = some u → u.has (v.toNat % 256) = false) →
        exec (.cfgrd d a) s = .next (s.raise .A { code := .prot, detail := 7, addr := (v.setWidth 32).setWidth 64 }))) ∧
    (∀ w s2, s.issue (.cfgwr a b) = .ok () → s1.src .A b = .ok (w, s2) →
      ∀ t, s2.cfgWrite (v.setWidth 32) w = .ok t → exec (.cfgwr a b) s = .next (t.retire .A)))

/-! ## Scalar instructions -/

/-- Each integer RR instruction but division writes the value that the table gives, in terms of the integers that A
and B stand for, and nothing else; leading zeros, trailing zeros and one bits are counted; bfxu and bfx extract a
field of W + 1 bits at p, bfi inserts one and keeps every other bit of d, lih shifts d left by 19 and adds its
constant, and both raise ILLOP when d is no register; part and part.y give the share of N items that falls to the
task's place on its axis of the grid. After R93, R98, R97, R99. -/
def Obligations.IntegerComputations : Prop :=
  (
  ∀ (m : Stream) (d a b : Spec),
    Computes2 (.add m d a b) m d a b (fun x y => BitVec.ofInt 64 (x.toInt + y.toInt)) ∧
    Computes2 (.sub m d a b) m d a b (fun x y => BitVec.ofInt 64 (x.toInt - y.toInt)) ∧
    Computes2 (.and m d a b) m d a b (fun x y => x &&& y) ∧
    Computes2 (.or m d a b) m d a b (fun x y => x ||| y) ∧
    Computes2 (.xor m d a b) m d a b (fun x y => x ^^^ y) ∧
    Computes2 (.sll m d a b) m d a b (fun x y => BitVec.ofNat 64 (x.toNat * 2 ^ (y.toNat % 64))) ∧
    Computes2 (.srl m d a b) m d a b (fun x y => BitVec.ofNat 64 (x.toNat / 2 ^ (y.toNat % 64))) ∧
    Computes2 (.sra m d a b) m d a b (fun x y => BitVec.ofInt 64 (x.toInt / 2 ^ (y.toNat % 64))) ∧
    Computes2 (.slt m d a b) m d a b (fun x y => if x.toInt < y.toInt then 1 else 0) ∧
    Computes2 (.sltu m d a b) m d a b (fun x y => if x.toNat < y.toNat then 1 else 0) ∧
    Computes2 (.min m d a b) m d a b (fun x y => BitVec.ofInt 64 (min x.toInt y.toInt)) ∧
    Computes2 (.max m d a b) m d a b (fun x y => BitVec.ofInt 64 (max x.toInt y.toInt)) ∧
    Computes2 (.minu m d a b) m d a b (fun x y => BitVec.ofNat 64 (min x.toNat y.toNat)) ∧
    Computes2 (.maxu m d a b) m d a b (fun x y => BitVec.ofNat 64 (max x.toNat y.toNat)) ∧
    Computes2 (.mul m d a b) m d a b (fun x y => BitVec.ofNat 64 (x.toNat * y.toNat)) ∧
    Computes2 (.mulh m d a b) m d a b (fun x y => BitVec.ofInt 64 (x.toInt * y.toInt / 2 ^ 64)) ∧
    Computes2 (.mulhu m d a b) m d a b (fun x y => BitVec.ofNat 64 (x.toNat * y.toNat / 2 ^ 64)) ∧
    Computes2 (.addsl1 m d a b) m d a b (fun x y => BitVec.ofNat 64 (2 * x.toNat + y.toNat)) ∧
    Computes2 (.addsl2 m d a b) m d a b (fun x y => BitVec.ofNat 64 (4 * x.toNat + y.toNat)) ∧
    Computes2 (.addsl3 m d a b) m d a b (fun x y => BitVec.ofNat 64 (8 * x.toNat + y.toNat)) ∧
    Computes2 (.addsl4 m d a b) m d a b (fun x y => BitVec.ofNat 64 (16 * x.toNat + y.toNat))) ∧
  (
  ∀ (m : Stream) (d a : Spec),
    Computes1 (.clz m d a) m d a (fun x => BitVec.ofNat 64 ((List.range 64).takeWhile (fun k => !x.getMsbD k)).length) ∧
    Computes1 (.ctz m d a) m d a (fun x => BitVec.ofNat 64 ((List.range 64).takeWhile (fun k => !x.getLsbD k)).length) ∧
    Computes1 (.popc m d a) m d a (fun x => BitVec.ofNat 64 ((List.range 64).countP (fun k => x.getLsbD k)))) ∧
  (
  ∀ (m : Stream) (d a : Spec) (p W : BitVec 6) (k : BitVec 19), p.toNat + W.toNat + 1 ≤ 64 →
    Computes1 (.bfxu m d a p W) m d a (fun x => BitVec.ofNat 64 (x.toNat / 2 ^ p.toNat % 2 ^ (W.toNat + 1))) ∧
    Computes1 (.bfx m d a p W) m d a (fun x =>
      BitVec.ofInt 64 (Int.bmod (x.toNat / 2 ^ p.toNat : Nat) (2 ^ (W.toNat + 1)))) ∧
    (∀ (s s1 s2 t : State) (va old v : Word), d.toNat < 48 → s.issue (.bfi m d a p W) = .ok () →
      s.src m a = .ok (va, s1) → s1.src m d = .ok (old, s2) →
      (∀ j, j < 64 → v.getLsbD j =
        if p.toNat ≤ j ∧ j < p.toNat + W.toNat + 1 then va.getLsbD (j - p.toNat) else old.getLsbD j) →
      s2.dst m d v = .ok t → exec (.bfi m d a p W) s = .next (t.retire m)) ∧
    (∀ (s s1 t : State) (old : Word), d.toNat < 48 → s.issue (.lih m d k) = .ok () → s.src m d = .ok (old, s1) →
      s1.dst m d (BitVec.ofNat 64 (old.toNat * 2 ^ 19 + k.toNat)) = .ok t →
      exec (.lih m d k) s = .next (t.retire m)) ∧
    (∀ s : State, 48 ≤ d.toNat →
      (s.issue (.bfi m d a p W) = .ok () → exec (.bfi m d a p W) s = .next (s.raise m { code := .illop })) ∧
      (s.issue (.lih m d k) = .ok () → exec (.lih m d k) s = .next (s.raise m { code := .illop })))) ∧
  (
  ∀ (s s1 s2 : State) (site slot : Nat) (c : Ctx) (d a b : Spec) (va vb : Word),
    s.here = .ok (site, slot, c) → s.src .A a = .ok (va, s1) → s1.src .A b = .ok (vb, s2) →
    let share (i p : Nat) : Word :=
      let n := va.toNat % 2 ^ 32
      let lo := n * i / p
      let hi := n * (i + 1) / p
      BitVec.ofNat 64 ((hi - lo) * 2 ^ 32 + (vb.toNat % 2 ^ 32 + lo) % 2 ^ 32)
    (∀ t, s.issue (.part d a b) = .ok () → s2.dst .A d (share c.grid.gx.toNat c.grid.w.toNat) = .ok t →
      exec (.part d a b) s = .next (t.retire .A)) ∧
    (∀ t, s.issue (.partY d a b) = .ok () → s2.dst .A d (share c.grid.gy.toNat c.grid.h.toNat) = .ok t →
      exec (.partY d a b) s = .next (t.retire .A)))

/-- The four divisions compute one function each of A and B: by zero the quotient is 0 for A = 0 and else the end of
the range on A's side, and the remainder is 0; the most negative number divided by -1 gives the most positive one with
remainder 0; every other quotient is truncated toward zero and A = B x quotient + remainder; for the saturated
operands the remainder is 0 and the identity fails. After R94. -/
def Obligations.DivisionSaturates : Prop :=
  ∃ q r qu ru : Word → Word → Word,
    (∀ (m : Stream) (d a b : Spec), Computes2 (.div m d a b) m d a b q ∧ Computes2 (.rem m d a b) m d a b r ∧
      Computes2 (.divu m d a b) m d a b qu ∧ Computes2 (.remu m d a b) m d a b ru) ∧
    (∀ x, q x 0 = if x = 0 then 0 else if 0 < x.toInt then 0x7FFFFFFFFFFFFFFF else 0x8000000000000000) ∧
    (∀ x, qu x 0 = if x = 0 then 0 else 0xFFFFFFFFFFFFFFFF) ∧ (∀ x, r x 0 = 0) ∧ (∀ x, ru x 0 = 0) ∧
    q 0x8000000000000000 0xFFFFFFFFFFFFFFFF = 0x7FFFFFFFFFFFFFFF ∧ r 0x8000000000000000 0xFFFFFFFFFFFFFFFF = 0 ∧
    (∀ x y, y ≠ 0 → (qu x y).toNat = x.toNat / y.toNat ∧ (ru x y).toNat = x.toNat % y.toNat ∧
      x.toNat = y.toNat * (qu x y).toNat + (ru x y).toNat) ∧
    (∀ x y, y ≠ 0 → ¬ (x.toInt = -2 ^ 63 ∧ y.toInt = -1) →
      (q x y).toInt = x.toInt.tdiv y.toInt ∧ (r x y).toInt = x.toInt.tmod y.toInt ∧
      x.toInt = y.toInt * (q x y).toInt + (r x y).toInt) ∧
    (∀ x y, (y = 0 ∧ x ≠ 0 ∨ x.toInt = -2 ^ 63 ∧ y.toInt = -1) → r x y = 0 ∧ y * q x y ≠ x)

/-- addi, andi, ori, xori and slti use the sign-extended immediate; slli, srli and srai shift by the constant; li
writes its sign-extended constant. After R95, R96, R97. -/
def Obligations.ImmediateForms : Prop :=
  ∀ (m : Stream) (d a : Spec) (imm : BitVec 13) (n : BitVec 6) (k : BitVec 19),
    Computes1 (.addi m d a imm) m d a (fun x => BitVec.ofInt 64 (x.toInt + imm.toInt)) ∧
    Computes1 (.andi m d a imm) m d a (fun x => x &&& BitVec.ofInt 64 imm.toInt) ∧
    Computes1 (.ori m d a imm) m d a (fun x => x ||| BitVec.ofInt 64 imm.toInt) ∧
    Computes1 (.xori m d a imm) m d a (fun x => x ^^^ BitVec.ofInt 64 imm.toInt) ∧
    Computes1 (.slti m d a imm) m d a (fun x => if x.toInt < imm.toInt then 1 else 0) ∧
    Computes1 (.slli m d a n) m d a (fun x => BitVec.ofNat 64 (x.toNat * 2 ^ n.toNat)) ∧
    Computes1 (.srli m d a n) m d a (fun x => BitVec.ofNat 64 (x.toNat / 2 ^ n.toNat)) ∧
    Computes1 (.srai m d a n) m d a (fun x => BitVec.ofInt 64 (x.toInt / 2 ^ n.toNat)) ∧
    Writes (.li m d k) m d (fun _ => BitVec.ofInt 64 k.toInt)

/-- Sums, differences, products and fused products are exact values rounded once by FPC.RM and FPC.FZ; fmin and fmax
raise nothing; a comparison writes 0 or 1 and a NaN operand of flt and fle raises IV; conversions from and to 64-bit
integers round by FPC.RM and clamp. The flags raised stick in FPC and the result is written when none of them is
enabled. An enabled flag raises SWTRAP with the detail of the highest one, in the two-operand forms, ffma and both
conversions. ffma reads d, so a d that is no register raises ILLOP. Rounding itself: a value that the format
represents stays as it is and raises nothing; one between a normal number and the next becomes the one that the mode
names, to nearest with ties to even, with IX; one beyond the largest gives the entry of the overflow table with OF and
IX; a tiny one under FZ gives zero with UF and IX. After R100, R101, R46 to R48, R47. -/
def Obligations.ScalarFloatingPoint : Prop :=
  (
  ∀ d a b : Spec,
    ComputesF (.fadd d a b) d a b (fun md x y =>
      fpWord (Fmt.fp32.roundEx md (FVal.add md.rm (Fmt.fp32.unpack x) (Fmt.fp32.unpack y)))) ∧
    ComputesF (.fsub d a b) d a b (fun md x y =>
      fpWord (Fmt.fp32.roundEx md (FVal.add md.rm (Fmt.fp32.unpack x) (Fmt.fp32.unpack y).neg))) ∧
    ComputesF (.fmul d a b) d a b (fun md x y =>
      fpWord (Fmt.fp32.roundEx md (FVal.mul (Fmt.fp32.unpack x) (Fmt.fp32.unpack y)))) ∧
    ComputesF (.fmin d a b) d a b (fun _ x y => (BitVec.ofNat 64 (Fmt.fp32.min x y), 0)) ∧
    ComputesF (.fmax d a b) d a b (fun _ x y => (BitVec.ofNat 64 (Fmt.fp32.max x y), 0)) ∧
    ComputesF (.feq d a b) d a b (fun _ x y =>
      (if (Fmt.fp32.unpack x).eqv (Fmt.fp32.unpack y) then 1 else 0, 0)) ∧
    ComputesF (.flt d a b) d a b (fun _ x y => (if (Fmt.fp32.unpack x).lt (Fmt.fp32.unpack y) then 1 else 0,
      if Fmt.fp32.isNaN x ∨ Fmt.fp32.isNaN y then 16 else 0)) ∧
    ComputesF (.fle d a b) d a b (fun _ x y =>
      (if (Fmt.fp32.unpack x).lt (Fmt.fp32.unpack y) ∨ (Fmt.fp32.unpack x).eqv (Fmt.fp32.unpack y) then 1 else 0,
      if Fmt.fp32.isNaN x ∨ Fmt.fp32.isNaN y then 16 else 0)) ∧
    (∀ (s s1 s2 s3 : State) (site slot : Nat) (c : Ctx) (va vb vd : Word), d.toNat < 48 →
      s.issue (.ffma d a b) = .ok () → s.src .C a = .ok (va, s1) → s1.src .C b = .ok (vb, s2) →
      s2.src .C d = .ok (vd, s3) → s3.here = .ok (site, slot, c) →
      let r := Fmt.fp32.roundEx c.scalarModes (FVal.fma c.scalarModes.rm (Fmt.fp32.unpack (va.toNat % 2 ^ 32))
        (Fmt.fp32.unpack (vb.toNat % 2 ^ 32)) (Fmt.fp32.unpack (vd.toNat % 2 ^ 32)))
      (r.2 &&& c.enables = 0 →
        ∀ t, (s3.setCtx site slot (c.stickFpc r.2)).dst .C d (BitVec.ofNat 64 r.1) = .ok t →
          exec (.ffma d a b) s = .next (t.retire .C)) ∧
      (r.2 &&& c.enables ≠ 0 → exec (.ffma d a b) s = .next (s.raise .C
        { code := .swtrap, detail := BitVec.ofNat 64 (0x100 + 11 + highFlag (r.2 &&& c.enables)) }))) ∧
    (∀ s : State, 48 ≤ d.toNat → s.issue (.ffma d a b) = .ok () →
      exec (.ffma d a b) s = .next (s.raise .C { code := .illop })) ∧
    (∀ (s s1 : State) (site slot : Nat) (c : Ctx) (va : Word), s.src .C a = .ok (va, s1) →
      s1.here = .ok (site, slot, c) →
      let si := Fmt.fp32.ofInt c.scalarModes va.toInt
      let is := toInt c.scalarModes.rm (-2 ^ 63) (2 ^ 63 - 1) (Fmt.fp32.unpack (va.toNat % 2 ^ 32))
      (∀ t, s.issue (.fcvtSI d a) = .ok () → si.2 &&& c.enables = 0 →
        (s1.setCtx site slot (c.stickFpc si.2)).dst .C d (BitVec.ofNat 64 si.1) = .ok t →
        exec (.fcvtSI d a) s = .next (t.retire .C)) ∧
      (s.issue (.fcvtSI d a) = .ok () → si.2 &&& c.enables ≠ 0 → exec (.fcvtSI d a) s = .next (s.raise .C
        { code := .swtrap, detail := BitVec.ofNat 64 (0x100 + 11 + highFlag (si.2 &&& c.enables)) })) ∧
      (s.issue (.fcvtIS d a) = .ok () → is.2 &&& c.enables ≠ 0 → exec (.fcvtIS d a) s = .next (s.raise .C
        { code := .swtrap, detail := BitVec.ofNat 64 (0x100 + 11 + highFlag (is.2 &&& c.enables)) })) ∧
      (∀ t, s.issue (.fcvtIS d a) = .ok () → is.2 &&& c.enables = 0 →
        (s1.setCtx site slot (c.stickFpc is.2)).dst .C d (BitVec.ofInt 64 is.1) = .ok t →
        exec (.fcvtIS d a) s = .next (t.retire .C)))) ∧
  (
  (∀ (f : Fmt) (md : Modes) (p : Nat) (fl : Flags), p < 2 ^ f.bits → f.isNaN p = false →
    (md.fz = false ∨ p / 2 ^ f.mbits % 2 ^ f.ebits ≠ 0 ∨ p % 2 ^ f.mbits = 0) →
    f.roundEx md (f.unpack p, fl) = (p, fl)) ∧
  (∀ (f : Fmt) (md : Modes) (p k r m : Nat) (n : Bool) (e : Int), p < 2 ^ f.bits → f.unpack p = .fin n m e →
    p / 2 ^ f.mbits % 2 ^ f.ebits ≠ 0 → 0 < k → r < 2 ^ k →
    ((md.rm = .rz ∨ (md.rm = .ru ∧ n = true) ∨ (md.rm = .rd ∧ n = false) ∨
        (md.rm = .rne ∧ (2 * r < 2 ^ k ∨ (2 * r = 2 ^ k ∧ m % 2 = 0)))) →
      f.roundEx md (.fin n (m * 2 ^ k + r) (e - k), 0) = (p, if r = 0 then 0 else flagIX)) ∧
    (((md.rm = .ru ∧ n = false ∧ r ≠ 0) ∨ (md.rm = .rd ∧ n = true ∧ r ≠ 0) ∨
        (md.rm = .rne ∧ (2 ^ k < 2 * r ∨ (2 * r = 2 ^ k ∧ m % 2 = 1)))) →
      p % f.signBit true < f.maxPat → f.roundEx md (.fin n (m * 2 ^ k + r) (e - k), 0) = (p + 1, flagIX))) ∧
  (∀ (f : Fmt) (md : Modes) (n : Bool) (m : Nat) (e : Int), m ≠ 0 →
    ((f.maxPat / 2 ^ f.mbits : Nat) - f.bias < e + m.log2 →
      f.roundEx md (.fin n m e, 0) = (f.overflow md n, flagOF ||| flagIX)) ∧
    (e + m.log2 < f.emin → md.fz = true → f.roundEx md (.fin n m e, 0) = (f.signBit n, flagUF ||| flagIX))) ∧
  (∀ (f : Fmt) (md : Modes) (n : Bool),
    (f = .fp32 ∨ f = .bf16 ∨ (f = .e5m2 ∧ md.sat8 = false) → f.overflow md n = f.signBit n +
      (if md.rm = .rne ∨ (md.rm = .ru ∧ n = false) ∨ (md.rm = .rd ∧ n = true) then f.infPat else f.maxPat)) ∧
    (f = .e5m2 ∨ f = .e4m3 → md.sat8 = true → f.overflow md n = f.signBit n + f.maxPat) ∧
    (md.sat8 = false → Fmt.e4m3.overflow md n =
      if md.rm = .rne ∨ (md.rm = .ru ∧ n = false) ∨ (md.rm = .rd ∧ n = true) then 0x7F
      else Fmt.e4m3.signBit n + 0x7E)))

/-- When such an instruction has answered a next state in which its task is still in its context, every register but
its destination, every special register and accumulator, every queue and port that it does not name, all of memory,
and every other context are as before; FPC changes only in its flag bits, and only for a floating-point instruction;
without a port among its destinations the tile's commands stay. (A task that faulted has left its context:
TileFaultPlacesTheTask.) -/
def Obligations.ScalarFrame : Prop :=
  ∀ (i : Instr) (s t : State) (site slot : Nat) (n : Stream) (c d : Ctx), i.computesScalar = true →
    s.turn = .tile site slot n → s.ctx? site slot = some c → exec i s = .next t → t.ctx? site slot = some d →
    s.keeps t site slot ∧ Ctx.keeps i { c with fpc := d.fpc } d ∧
    (i.isFp = false → d.fpc = c.fpc) ∧ (i.isFp = true → d.fpc &&& ~~~0xF800 = c.fpc &&& ~~~0xF800) ∧
    ((∀ f ∈ i.uses.dst, f.toNat < 56) → (t.tile site).cmds = (s.tile site).cmds ∧ (t.tile site).seq = (s.tile site).seq)

/-! ## Control flow and task control -/

/-- A branch tests Src(a) as a signed value and goes to PC + 4 x sext(off15) when the test holds, else on. jal and
jalr write PC + 4 to d and go to their target; a jalr base that is not 4-byte aligned raises ALIGN with the base, a
target outside 57 bits PROT with detail 6 and the target. That the ALIGN reports the base as its address is the
model's choice (log 110). After R102, R103, R104. -/
def Obligations.ControlTransfers : Prop :=
  (
  ∀ (a : Spec) (o : BitVec 15),
    Branches (.beqz a o) a o (fun v => v = 0) ∧ Branches (.bnez a o) a o (fun v => v ≠ 0) ∧
    Branches (.bltz a o) a o (fun v => v < 0) ∧ Branches (.bgez a o) a o (fun v => 0 ≤ v) ∧
    Branches (.bgtz a o) a o (fun v => 0 < v) ∧ Branches (.blez a o) a o (fun v => v ≤ 0)) ∧
  (
  (∀ (s t : State) (d : Spec) (o : BitVec 19), s.issue (.jal d o) = .ok () → s.dst .A d (s.pc + 4) = .ok t →
    exec (.jal d o) s = .next (t.jump (s.pc + BitVec.ofInt 64 (4 * o.toInt)))) ∧
  (∀ (s s1 : State) (d a : Spec) (imm : BitVec 13) (b : Word), s.issue (.jalr d a imm) = .ok () →
    s.src .A a = .ok (b, s1) →
    let goal := b + BitVec.ofInt 64 (4 * imm.toInt)
    (b.toNat % 4 ≠ 0 → exec (.jalr d a imm) s = .next (s.raise .A { code := .align, addr := b })) ∧
    (b.toNat % 4 = 0 → 2 ^ 57 ≤ goal.toNat →
      exec (.jalr d a imm) s = .next (s.raise .A { code := .prot, detail := 6, addr := goal })) ∧
    (∀ t, b.toNat % 4 = 0 → goal.toNat < 2 ^ 57 → s1.dst .A d (s.pc + 4) = .ok t →
      exec (.jalr d a imm) s = .next (t.jump goal))))

/-- After a word the A-stream and a Croft core stand at PC + 4, or at the next A-stream word that was fetched ahead,
after a jump at its target; that A-stream words are fetched ahead, and that the A-stream goes on at the next of them,
is the model's choice (log 85); a pc is cut to bits [56:2], the model's reading (log 84); a C-stream word leaves the
front end, or the frame goes to its next word, its next iteration or its end; the wait of the stream is over. rpt:
with 16 words behind it in the front end, all of majors a frame may hold, they become the frame with n + 1 iterations;
a word of another major among those fetched, or a task at done with fewer than 16, raises RPTFRAME; until then the
state stays. A name moved by d runs around s1 to s47 and v0 to v27; register 0, queues and ports keep their names, and
so does a vector field that the word does not use, the model's reading (log 83): said for the RR form of majors 0x00
and 0x0C and the vector form of majors 0x28 to 0x2B, 0x2D and 0x2E, whose other bits stay. After R68, R86, R88, R105,
R87. -/
def Obligations.StreamsAndFrames : Prop :=
  (
  (∀ a : Word, (pcCut a).toNat = a.toNat % 2 ^ 57 / 4 * 4) ∧
  (∀ (s : State) (site slot : Nat) (n : Stream) (c : Ctx) (pc : Word), s.turn = .tile site slot n →
    s.ctx? site slot = some c →
    s.keeps (s.retire .A) site slot ∧ s.keeps (s.retire .C) site slot ∧ s.keeps (s.jump pc) site slot ∧
    (c.aFront = [] → (s.retire .A).ctx? site slot = some { c with pc := pcCut (c.pc + 4), aWait := none }) ∧
    (∀ a, c.aFront = [a] → (s.retire .A).ctx? site slot = some { c with pc := c.ahead, aFront := [], aWait := none }) ∧
    (∀ a b r, c.aFront = a :: b :: r →
      (s.retire .A).ctx? site slot = some { c with pc := b.pc, aFront := b :: r, aWait := none }) ∧
    (s.jump pc).ctx? site slot = some { c with pc := pcCut pc, aFront := [], aWait := none } ∧
    (c.frame = none → (s.retire .C).ctx? site slot = some { c with front := c.front.tail, cWait := none }) ∧
    (∀ f, c.frame = some f → (s.retire .C).ctx? site slot = some { c with
      cWait := none
      frame := if f.idx + 1 < f.words.length then some { f with idx := f.idx + 1 }
        else if f.iter + 1 < f.n then some { f with idx := 0, iter := f.iter + 1 } else none })) ∧
  (∀ (s : State) (n : Nat) (m : Stream) (pc : Word), s.turn = .croft n →
    (s.retire m).croft n = { s.croft n with pc := pcCut ((s.croft n).pc + 4) } ∧
    (s.jump pc).croft n = { s.croft n with pc := pcCut pc } ∧
    (∀ k, k ≠ n → (s.retire m).croft k = s.croft k ∧ (s.jump pc).croft k = s.croft k) ∧
    { s.retire m with crofts := s.crofts } = s ∧ { s.jump pc with crofts := s.crofts } = s)) ∧
  (
  ∀ (s : State) (site slot : Nat) (m : Stream) (c : Ctx) (n : BitVec 8) (k : BitVec 6),
    s.turn = .tile site slot m → s.ctx? site slot = some c →
    let ws := (c.front.drop 1).take 16
    (ws.length = 16 → (∀ p ∈ ws, frameMajor p.2 = true) → ∃ t, exec (.rpt n k) s = .next t ∧ s.keeps t site slot ∧
      t.ctx? site slot = some { c with
        front := c.front.drop 17, frame := some ⟨ws, n.toNat + 1, k.toNat, 0, 0⟩, cWait := none }) ∧
    ((∃ p ∈ ws, frameMajor p.2 = false) ∨ (ws.length < 16 ∧ c.atDone = true) →
      exec (.rpt n k) s = .next (s.raise .C { code := .rptframe })) ∧
    (ws.length < 16 → c.atDone = false → (∀ p ∈ ws, frameMajor p.2 = true) → exec (.rpt n k) s = .next s)) ∧
  (
  ∀ (d : Nat) (w : IWord),
    let s (f : Nat) := if 1 ≤ f ∧ f < 48 then 1 + (f - 1 + d) % 47 else f
    let v (lo : Nat) (w : IWord) (f : Nat) := if f < 28 ∧ usesV lo w = true then (f + d) % 28 else f
    let j := (w.extractLsb' 25 6).toNat
    (j = 0x00 ∨ j = 0x0C →
      ((renameWord d w).extractLsb' 19 6).toNat = s (w.extractLsb' 19 6).toNat ∧
      ((renameWord d w).extractLsb' 13 6).toNat = s (w.extractLsb' 13 6).toNat ∧
      ((renameWord d w).extractLsb' 7 6).toNat = s (w.extractLsb' 7 6).toNat ∧
      (renameWord d w).extractLsb' 0 7 = w.extractLsb' 0 7 ∧ (renameWord d w).extractLsb' 25 7 = w.extractLsb' 25 7) ∧
    (j = 0x28 ∨ j = 0x29 ∨ j = 0x2A ∨ j = 0x2B ∨ j = 0x2D ∨ j = 0x2E →
      let w1 := renameV d 10 w
      let w2 := renameV d 15 w1
      ((renameWord d w).extractLsb' 20 5).toNat = v 20 w2 (w.extractLsb' 20 5).toNat ∧
      ((renameWord d w).extractLsb' 15 5).toNat = v 15 w1 (w.extractLsb' 15 5).toNat ∧
      ((renameWord d w).extractLsb' 10 5).toNat = v 10 w (w.extractLsb' 10 5).toNat ∧
      (renameWord d w).extractLsb' 0 10 = w.extractLsb' 0 10 ∧ (renameWord d w).extractLsb' 25 7 = w.extractLsb' 25 7))

/-- nop does nothing; yield leaves the task resident and lets the tile choose again; trap and brk raise SWTRAP and BRK
with their number. done: once every fetched C-stream word has retired and every command of the task has completed, the
context is free, in domain 0 the launch counts an ended task, in an ordered domain the task is finished and keeps its
buffered effects, and every scratchpad and its tags stay; a command partly written raises ILLOP with the port's
number, the lowest where several ports hold one, which is the model's choice (log 108); until then the task waits in
its context. After R106, R108, R111, R107. -/
def Obligations.TasksYieldTrapAndEnd : Prop :=
  (
  ∀ (s : State) (m : Stream) (n : BitVec 8),
    (s.issue (.nop m) = .ok () → exec (.nop m) s = .next (s.retire m)) ∧
    (∀ site slot c, s.issue .yield = .ok () → s.here = .ok (site, slot, c) →
      exec .yield s = .next ((s.modTile site (fun t => { t with cur := none })).retire .A)) ∧
    (s.issue (.trap n) = .ok () →
      exec (.trap n) s = .next (s.raise .A { code := .swtrap, detail := BitVec.ofNat 64 n.toNat })) ∧
    (s.issue (.brk n) = .ok () →
      exec (.brk n) s = .next (s.raise .A { code := .brk, detail := BitVec.ofNat 64 n.toNat }))) ∧
  (
  ∀ (s : State) (site slot : Nat) (m : Stream) (c : Ctx) (l : Launch), s.turn = .tile site slot m →
    s.ctx? site slot = some c → s.launch? c.task.msg.launch = some l →
    let ready := s.cRetired site slot c = true ∧ s.ownCommands site slot c = []
    (ready → (∀ k, k < 4 → vget [] c.out k = []) → ∃ t, exec .done s = .next t ∧ t.ctx? site slot = none ∧
      (∀ k, (t.tile k).spad = (s.tile k).spad ∧ (t.tile k).tags = (s.tile k).tags) ∧
      (c.task.msg.dom = 0 → (t.launch? c.task.msg.launch).map (·.tasks) = some (l.tasks + 1)) ∧
      (c.task.msg.dom ≠ 0 → ∃ f, (t.tile site).done = (s.tile site).done ++ [f] ∧ f.task = c.task ∧ f.buf = c.buf)) ∧
    (∀ k, ready → k < 4 → vget [] c.out k ≠ [] → (∀ j, j < k → vget [] c.out j = []) →
      exec .done s = .next (s.raise .A { code := .illop, detail := BitVec.ofNat 64 (2 * k) })) ∧
    (¬ ready → ∃ t d, exec .done s = .next t ∧ t.ctx? site slot = some d ∧ d.atDone = true ∧ s.keeps t site slot ∧
      { d with atDone := c.atDone, aWait := c.aWait } = c))

/-- step: in an ordered domain it raises ILLDOM; the first time it arrives for its tile and waits for the phase that
is running, with nothing of its context changed but the wait; when that phase has completed it drops the tile's clean
L1 lines, lets no kept operand read serve the tile any more (the model's reading, log 78) and goes on; until then it
stays. safept: when no request can be honoured it only moves on; an honoured request in an ordered domain aborts the
task; in domain 0 the registers that the map entry names, which is read at its home slices past the tile's L1, the
model's choice (log 103), their errors met as they are read, are in the image of its launch's tile, the others zero
there, at the word after, its pc cut to bits [56:2] (log 84), with no tokens held, and the context is free. After
R109, R110. -/
def Obligations.StepsAndSafePoints : Prop :=
  (
  ∀ (s : State) (site slot : Nat) (m : Stream) (c : Ctx) (l : Launch), s.turn = .tile site slot m →
    s.ctx? site slot = some c → s.launch? c.task.msg.launch = some l →
    (c.task.msg.dom ≠ 0 → exec .step s = .next (s.raise .A { code := .illdom })) ∧
    (c.task.msg.dom = 0 → c.aWait = none → ∃ t d w, exec .step s = .next t ∧ t.ctx? site slot = some d ∧
      d.aWait = some w ∧ w.kind = .step l.stepPh ∧ { d with aWait := none } = c ∧
      (t.launch? c.task.msg.launch).map (·.stepArr) = some
        (if l.holdsCell site ∧ site ∉ l.stepArr then l.stepArr ++ [site] else l.stepArr)) ∧
    (∀ ph w, c.task.msg.dom = 0 → c.aWait = some w → w.kind = .step ph → w.inst = .step →
      (ph < l.stepPh → exec .step s = .next (((s.dropClean site).acquired site).retire .A)) ∧
      (l.stepPh ≤ ph → ∃ t, exec .step s = .next t ∧ t.ctx? site slot = some c))) ∧
  (
  ∀ (s : State) (site slot : Nat) (m : Stream) (c : Ctx) (n : BitVec 8), s.turn = .tile site slot m →
    s.ctx? site slot = some c →
    let honoured := (s.tile site).preempt ≠ none ∧ s.cRetired site slot c = true ∧ c.quiet = true
    (¬ honoured → exec (.safept n) s = .next (s.retire .A)) ∧
    (honoured → c.task.msg.dom ≠ 0 → exec (.safept n) s = .next (s.abortPlain site slot)) ∧
    (∀ m0 m1 m2 m3 s1 s2 s3 s4 s5, honoured → c.task.msg.dom = 0 →
      let entry := (c.safemap &&& 0x01FFFFFFFFFFFFE0) + 32 * BitVec.ofNat 64 n.toNat
      let sp := s.spaceOf site
      s.homeWord sp entry = .ok (m0, s1) → s1.homeWord sp (entry + 8) = .ok (m1, s2) →
      s2.homeWord sp (entry + 16) = .ok (m2, s3) → s3.homeWord sp (entry + 24) = .ok (m3, s4) →
      m0.toNat < 2 ^ 48 → m1.toNat < 2 ^ 48 → m2.toNat < 2 ^ 36 → m3 = 0 →
      (liveUnits m0 m1 m2).foldlM (fun s u => s.scrub site slot u) s4 = .ok s5 →
      ∃ t img d, exec (.safept n) s = .next t ∧ t.ctx? site slot = none ∧ img ∈ t.images ∧ img.site = site ∧
        img.launch = c.task.msg.launch ∧ d ∈ img.ctxs ∧ d.task = c.task ∧ d.pc = pcCut (c.pc + 4) ∧ d.tok.held = 0 ∧ d.tok.want = c.tok.held + c.tok.want ∧
        (∀ k, k < 48 → vget 0 d.x k = if m0.getLsbD k then vget 0 c.x k else 0) ∧
        (∀ k, k < 48 → vget 0 d.s k = if m1.getLsbD k then vget 0 c.s k else 0) ∧
        (∀ k, k < 28 → vget 0 d.v k = if m2.getLsbD k then vget 0 c.v k else 0) ∧
        (∀ k, k < 8 → vget 0 d.acc k = if m2.getLsbD (28 + k) then vget 0 c.acc k else 0)))

/-! ## System registers and tokens -/

/-- sysrd on a tile gives each listed register's fields, WD1 to WD15 among them, zero-extended. syswr sets the
writable bits of FPC, VSHAPE, VSTAT, AMAX and TLATE, raises PRIV for a protected register, and ignores a write to a
read-only one; vshape sets rows and columns. On a Croft core at level D every access above 0x2F but a read of CLEVEL
raises PRIV; at level F the level, vector, saved pc, fault and table registers are read and written with their fields;
CYC of a Croft core is a free value (log 2). After R24, R112, R113, R163, R393. -/
def Obligations.SystemRegisters : Prop :=
  (
  ∀ (s : State) (site slot : Nat) (n m : Stream) (c : Ctx) (d r : Spec), s.turn = .tile site slot n →
    s.ctx? site slot = some c → s.issue (.sysrd m d r) = .ok () →
    let t := s.tile site
    let gives (k : Spec) (v : Word) : Prop :=
      r = k → ∀ x, s.dst m d v = .ok x → exec (.sysrd m d r) s = .next (x.retire m)
    gives 0x00 (c.fpc &&& 0xFFCF) ∧ gives 0x01 (c.vshape &&& 0xFF3F) ∧ gives 0x02 (c.vstat &&& 0x7F) ∧
    gives 0x03 (c.amax &&& 0x1FFFFFFFF) ∧
    gives 0x04 (BitVec.ofNat 64 (2 ^ 40 * (siteXY site).2 + 2 ^ 32 * (siteXY site).1 + 65536 * c.grid.gy.toNat +
      c.grid.gx.toNat)) ∧
    gives 0x05 (BitVec.ofNat 64 (65536 * c.grid.h.toNat + c.grid.w.toNat)) ∧
    gives 0x06 (BitVec.ofNat 64 (65536 * t.named.toNat + t.name.toNat)) ∧
    gives 0x07 (BitVec.ofNat 64 c.task.id.toNat) ∧ gives 0x08 (BitVec.ofNat 64 c.task.msg.ts.toNat) ∧
    gives 0x09 (BitVec.ofNat 64 c.task.msg.dom.toNat) ∧ gives 0x0A (BitVec.ofNat 64 c.task.msg.ec.toNat) ∧
    gives 0x0B (BitVec.ofNat 64 (65536 * (c.tok.left % 4096) + 256 * (c.tok.notice % 256) + c.tok.held % 256)) ∧
    gives 0x0C (BitVec.ofNat 64 (c.tok.want % 256)) ∧ gives 0x0D (BitVec.ofNat 64 t.l1sz.toNat) ∧
    (∀ k, 1 ≤ k → k ≤ 15 → gives (BitVec.ofNat 6 (16 + k)) (vget 0 t.wd k &&& 0x3FFFFF7F)) ∧
    gives 0x20 (t.ruleb &&& 0x01FFFFFFFFFFFFFF) ∧ gives 0x21 (c.safemap &&& 0x01FFFFFFFFFFFFE0) ∧
    gives 0x22 (BitVec.ofNat 64 t.bandsh.toNat) ∧ gives 0x23 (BitVec.ofNat 64 t.prewin.toNat) ∧
    gives 0x24 (BitVec.ofNat 64 t.wdog.toNat) ∧ gives 0x28 (BitVec.ofNat 64 (s.tick site)) ∧ gives 0x29 (s.gtimeAt (siteField site)) ∧
    gives 0x2A (BitVec.ofNat 64 s.tskew.toNat) ∧ gives 0x2B (BitVec.ofNat 64 t.tlate.toNat) ∧
    gives 0x2C (BitVec.ofNat 64 (256 * (s.cluster (siteCluster site)).marginMin.toNat +
      (s.cluster (siteCluster site)).marginNow.toNat))) ∧
  (
  (∀ (s s1 : State) (site slot : Nat) (m n : Stream) (c : Ctx) (a r : Spec) (v : Word),
    s.issue (.syswr m a r) = .ok () → s.src m a = .ok (v, s1) → s1.turn = .tile site slot n → s.turn = s1.turn →
    s1.ctx? site slot = some c →
    let puts (d : Ctx) : Prop := exec (.syswr m a r) s = .next ((s1.setCtx site slot d).retire m)
    (r = 0x00 → puts { c with fpc := v &&& 0xFFCF }) ∧ (r = 0x01 → puts { c with vshape := v &&& 0xFF3F }) ∧
    (r = 0x02 → puts { c with vstat := v &&& 0x7F }) ∧ (r = 0x03 → puts { c with amax := v &&& 0x1FFFFFFFF }) ∧
    (r = 0x2B → exec (.syswr m a r) s =
      .next ((s1.modTile site (fun t => { t with tlate := v.setWidth 32 })).retire m)) ∧
    (r = 0x06 ∨ r = 0x0D ∨ (0x11 ≤ r.toNat ∧ r.toNat ≤ 0x20) ∨ (0x22 ≤ r.toNat ∧ r.toNat ≤ 0x24) →
      exec (.syswr m a r) s = .next (s.raise m { code := .priv })) ∧
    ((4 ≤ r.toNat ∧ r.toNat ≤ 5) ∨ (7 ≤ r.toNat ∧ r.toNat ≤ 0x0C) ∨ r = 0x21 ∨ (0x28 ≤ r.toNat ∧ r.toNat ≤ 0x2A) ∨
      r = 0x2C → exec (.syswr m a r) s = .next (s1.retire m))) ∧
  (∀ (s : State) (site slot : Nat) (m : Stream) (c : Ctx) (r : BitVec 6) (k : BitVec 8), s.turn = .tile site slot m →
    s.ctx? site slot = some c → exec (.vshape r k) s =
      .next ((s.setCtx site slot { c with vshape := BitVec.ofNat 64 (256 * k.toNat + r.toNat) }).retire .C))) ∧
  (
  ∀ (s : State) (n : Nat) (d a r : Spec), s.turn = .croft n →
    let c := s.croft n
    let gives (k : Spec) (v : Word) : Prop :=
      r = k → ∀ x, s.dst .A d v = .ok x → exec (.sysrd .A d r) s = .next (x.retire .A)
    let puts (k : Spec) (v : Word) (e : Croft) : Prop :=
      r = k → s.src .A a = .ok (v, s) → exec (.syswr .A a r) s = .next ((s.modCroft n (fun _ => e)).retire .A)
    (c.level = false → 0x30 ≤ r.toNat →
      (r ≠ 0x30 → exec (.sysrd .A d r) s = .next (s.raise .A { code := .priv })) ∧
      exec (.syswr .A a r) s = .next (s.raise .A { code := .priv })) ∧
    gives 0x30 (BitVec.ofNat 64 (2 * c.prev.toNat + c.level.toNat)) ∧ gives 0x29 s.gtime ∧
    gives 0x2A (BitVec.ofNat 64 s.tskew.toNat) ∧
    (r = 0x28 → ∀ x, ({ s with draws := s.draws + 1 } : State).dst .A d (Config.freeValue s.draws) = .ok x →
      exec (.sysrd .A d r) s = .next (x.retire .A)) ∧
    (c.level = true → gives 0x31 c.cvec ∧ gives 0x32 c.cepc ∧ gives 0x33 c.cflt ∧ gives 0x34 c.cfaddr ∧
      gives 0x35 c.croot ∧
      ∀ v, puts 0x30 v { c with level := v.getLsbD 0, prev := v.getLsbD 1 } ∧
        puts 0x31 v { c with cvec := v &&& 0x01FFFFFFFFFFFFFC } ∧ puts 0x32 v { c with cepc := v &&& 0x01FFFFFFFFFFFFFC } ∧
        puts 0x33 v { c with cflt := v &&& 0xFFFFFF } ∧ puts 0x34 v { c with cfaddr := v &&& 0x01FFFFFFFFFFFFFF } ∧
        puts 0x35 v { c with croot := v &&& 0x000FFFFFFFFFF000 }))

/-- tokreq: a request up to the available holding is granted at once; with a notice running it is refused with the
notice's time as the hint; which counts as an event of the field; else it opens as the youngest request of its field,
the model's reading (log 106), the Drover fills the field's open requests from what it has free and WANT is what is
then missing; a request that gets nothing is refused, counts as an event of the field and changes nothing else; its
hint is 0xFFFF when the interface's cap alone stops it, else 64 when the Drover knows of no release, and else the time
of the next one in units of 16 ticks, at least 1: the end of the first notice by which more comes back than the Drover
owes, or of a loan on its way if that is sooner, whose time is a free choice of at most 44 units (log 2); the status
carries HELD in [15:8] and 0, 1 or 2 in [1:0]. tokwait waits while WANT is not 0 and then gives HELD; tokq gives WANT,
LEFT, NOTICE and HELD; tokret gives back up to what is held, first tokens under notice, to the Drover that revoked
them, then the task's own, to its field's Drover, then borrowed ones, each as a loan that ends, those of the lender
borrowed from first before others, the model's choice (log 109), and gives the new HELD (said where no more is under
notice than the revoking field counts); toklend gives how many tokens it lends, up to the available holding, its own
first, towards the running task of the named tile, HELD falls by as many as its loans on their way count, and where
there is no such task it gives 0. A loan that ends joins the lender while it runs on the tile it lent from, within
that tile's 128, and else goes to the lender's Drover, the model's reading (log 55). What the returned tokens become
is settled in the same act (log 55). After R114, R115, R116 to R119. -/
def Obligations.TokensOfATask : Prop :=
  (
  ∀ (s s1 : State) (site slot : Nat) (c : Ctx) (d a : Spec) (v : Word), s.issue (.tokreq d a) = .ok () →
    s.src .A a = .ok (v, s1) → s1.here = .ok (site, slot, c) →
    let n := min v.toNat 128
    let want := n - c.tok.avail
    let u := (s1.setCtx site slot { c with tok :=
      { c.tok with want := want, opened := true, since := s1.refTicks, ord := s1.nextOrd (siteField site) } }).grant
        (siteField site)
    let g := want - u.wantOf site slot
    (n ≤ c.tok.avail → ∀ t, (s1.setCtx site slot { c with tok := { c.tok with want := 0, opened := false } }).dst .A d
        (BitVec.ofNat 64 (256 * (c.tok.held % 256))) = .ok t → exec (.tokreq d a) s = .next (t.retire .A)) ∧
    (c.tok.avail < n → c.tok.notice ≠ 0 → ∀ t,
      ((s1.setCtx site slot { c with tok :=
        { c.tok with want := want, opened := true, since := s1.refTicks, ord := s1.nextOrd (siteField site) } }).modField
          (siteField site) (·.count 1 1)).dst .A d
        (BitVec.ofNat 64 (65536 * (max 1 ((c.tok.left + 15) / 16) % 65536) + 256 * (c.tok.held % 256) + 2)) = .ok t →
      exec (.tokreq d a) s = .next (t.retire .A)) ∧
    (c.tok.avail < n → c.tok.notice = 0 → (∃ h : Holding, h.own = c.tok.own + g ∧ h.want = want - g ∧
      h.loans = c.tok.loans ∧ h.notice = 0 ∧ u.ctx? site slot = some { c with tok := h })) ∧
    (c.tok.avail < n → c.tok.notice = 0 → g ≠ 0 →
      ∀ t, u.dst .A d (BitVec.ofNat 64 (256 * ((c.tok.held + g) % 256) + if g = want then 0 else 1)) = .ok t →
        exec (.tokreq d a) s = .next (t.retire .A)) ∧
    (c.tok.avail < n → c.tok.notice = 0 → g = 0 →
      let f := siteField site
      let w := u.modField f (·.count 1 1)
      let ns := (w.holdings.filterMap (fun p => w.holding? p.1 p.2)).filter (fun h => h.notice ≠ 0 ∧ h.by_ = f)
      let pays (h : Holding) : Prop := (w.field f).drover.cutDebt + ((w.field f).drover.recalls.map (·.n)).sum <
        ((ns.filter (fun k => k.left ≤ h.left)).map (·.notice)).sum
      let cap : Prop := 0 < (w.field f).drover.free ∧ (w.tile site).tokens + (w.tile site).eng.held < 128 ∧
        w.viRoom site = 0
      let coming : Prop := ∃ a k, Flight.loan a f k ∈ w.mesh
      ∃ (ch : List Nat) (hint : Nat), 1 ≤ hint ∧ hint ≤ 65535 ∧ (cap → ch = w.choices ∧ hint = 65535) ∧
      (¬ cap → ¬ coming → ch = w.choices ∧ ((∀ h ∈ ns, ¬ pays h) → hint = 64) ∧
        ∀ h ∈ ns, pays h → (∀ k ∈ ns, pays k → h.left ≤ k.left) → hint = min 65535 (max 1 ((h.left + 15) / 16))) ∧
      (¬ cap → coming → hint ≤ 44 ∧ ∀ h ∈ ns, pays h → hint ≤ max 1 ((h.left + 15) / 16)) ∧
      ∀ t, { w with choices := ch }.dst .A d (BitVec.ofNat 64 (65536 * (hint % 65536) + 256 * (c.tok.held % 256) + 2)) = .ok t →
        exec (.tokreq d a) s = .next (t.retire .A))) ∧
  (
  ∀ (s : State) (site slot : Nat) (m : Stream) (c : Ctx) (d a b : Spec), s.turn = .tile site slot m →
    s.ctx? site slot = some c →
    (∀ t, s.issue (.tokwait d) = .ok () → c.tok.want = 0 → s.dst .A d (BitVec.ofNat 64 (256 * (c.tok.held % 256))) = .ok t →
      exec (.tokwait d) s = .next (t.retire .A)) ∧
    (s.issue (.tokwait d) = .ok () → c.tok.want ≠ 0 → exec (.tokwait d) s = .next (s.block (.tokwait d) .token)) ∧
    (∀ t, s.issue (.tokq d) = .ok () → s.dst .A d (BitVec.ofNat 64 (2 ^ 28 * (c.tok.want % 256) +
        65536 * (c.tok.left % 4096) + 256 * (c.tok.notice % 256) + c.tok.held % 256)) = .ok t →
      exec (.tokq d) s = .next (t.retire .A)) ∧
    (∀ v s1 e t, s.issue (.tokret d a) = .ok () → s.src .A a = .ok (v, s1) → s1.ctx? site slot = some e →
      s1.turn = s.turn → e.tok.loans = [] → e.tok.notice = 0 →
      let k := min v.toNat e.tok.own
      let s2 := s1.setCtx site slot { e with tok := { e.tok with own := e.tok.own - k, left := 0, want := 0, opened := false } }
      (if k = 0 then s2 else s2.gainTokens (siteField site) k).dst .A d (BitVec.ofNat 64 (e.tok.own - k)) = .ok t →
      exec (.tokret d a) s = .next (t.retire .A)) ∧
    (∀ v s1 e, s.issue (.tokret d a) = .ok () → s.src .A a = .ok (v, s1) → s1.ctx? site slot = some e → s1.turn = s.turn →
      e.tok.notice ≤ (if e.tok.by_ = siteField site then e.tok.own else 0) +
        ((e.tok.loans.filter (fun l => l.field == e.tok.by_)).map (·.n)).sum →
      let m := min v.toNat e.tok.held
      let k := min m e.tok.notice
      ∃ (h : Holding) (own more : Nat) (ls rest : List Loan),
        own + more + h.own = e.tok.own ∧ own + (ls.map (·.n)).sum = k ∧ more = min (m - k) (e.tok.own - own) ∧
        k + more + (rest.map (·.n)).sum = m ∧ h.held = e.tok.held - m ∧ h.notice = e.tok.notice - k ∧ h.want = 0 ∧
        h.opened = false ∧ (∀ l ∈ ls, l.field = e.tok.by_) ∧
        (∀ l ∈ ls ++ rest, ∃ x ∈ e.tok.loans, l = { x with n := l.n }) ∧ (own ≠ 0 → e.tok.by_ = siteField site) ∧
        let s2 := (s1.setCtx site slot { e with tok := h }).noticeBack site own ls
        let s3 := if more = 0 then s2 else s2.gainTokens (siteField site) more
        ∀ t, (rest.foldl State.returnLoan s3).dst .A d (BitVec.ofNat 64 (e.tok.held - m)) = .ok t →
          exec (.tokret d a) s = .next (t.retire .A)) ∧
    (∀ v n s1 s2 e, s.issue (.toklend d a b) = .ok () → s.src .A a = .ok (v, s1) → s1.src .A b = .ok (n, s2) →
      s2.turn = s.turn → s2.ctx? site slot = some e →
      (s2.runningOn (siteField site) e.task.msg.launch (v.setWidth 16) = none → ∀ t, s2.dst .A d 0 = .ok t →
        exec (.toklend d a b) s = .next (t.retire .A)) ∧
      (∀ site' e', s2.runningOn (siteField site) e.task.msg.launch (v.setWidth 16) = some (site', e') →
        let k := min n.toNat e.tok.avail
        ∃ (h : Holding) (ls : List Loan), (ls.map (·.n)).sum = k ∧
          h.held + k = e.tok.held ∧ h.notice = e.tok.notice ∧ h.want = e.tok.want ∧
          (e.tok.notice = 0 → h.own = e.tok.own - k) ∧
          (∀ l ∈ ls, (l.site = site ∧ l.task = e.task.who ∧ l.field = siteField site) ∨
            ∃ x ∈ e.tok.loans, l = { x with n := l.n }) ∧
          ∀ t, { s2.setCtx site slot { e with tok := h } with
              mesh := s2.mesh ++ ls.map (fun l => Flight.tokens site' e'.task.who l) }.dst .A d (BitVec.ofNat 64 k) = .ok t →
            exec (.toklend d a b) s = .next (t.retire .A))) ∧
    (∀ (u : State) (l : Loan),
      ((u.tile l.site).slotOf l.task = none → u.returnLoan l = u.gainTokens l.field l.n) ∧
      (∀ n x, (u.tile l.site).slotOf l.task = some n → u.ctx? l.site n = some x → (u.tile l.site).tokens + l.n ≤ 128 →
        u.returnLoan l = u.setCtx l.site n { x with tok := { x.tok with own := x.tok.own + l.n } })))

/-! ## Memory -/

/-- The address is base + sext(off7) x size; a swizzle code s other than 0 XORs its bits [9:4] with its bits [s + 14 :
s + 9] and keeps every other bit. ld.b, ld.h and ld.w sign-extend, the other loads zero-extend what the access finds;
the stores give the low bytes of the data operand to the access; a misaligned address raises ALIGN in a load and in a
store; a store of an ordered domain to another tile's scratchpad raises ILLDOM, and before ALIGN. That a store whose
base and data name one queue takes the base first is the model's reading (log 40). What an access finds and changes is
said by MemoryAccesses. After R73, R124. -/
def Obligations.LoadsAndStores : Prop :=
  (
  ∀ (base : Word) (o : BitVec 7) (z : BitVec 3) (n : Nat),
    effAddr base o 0 n = base + BitVec.ofInt 64 (o.toInt * n) ∧
    (z ≠ 0 → ∀ k, k < 64 → (effAddr base o z n).getLsbD k =
      if 4 ≤ k ∧ k < 10 then ((effAddr base o 0 n).getLsbD k ^^ (effAddr base o 0 n).getLsbD (k - 4 + z.toNat + 9))
      else (effAddr base o 0 n).getLsbD k) ∧
    (swizzle z (swizzle z base) = base)) ∧
  (
  ∀ (d b : Spec) (z : BitVec 3) (o : BitVec 7),
    Loads (.ldB d b z o) 1 d b z o (fun v => BitVec.ofInt 64 (Int.bmod v (2 ^ 8))) ∧
    Loads (.ldBu d b z o) 1 d b z o (fun v => BitVec.ofNat 64 v) ∧
    Loads (.ldH d b z o) 2 d b z o (fun v => BitVec.ofInt 64 (Int.bmod v (2 ^ 16))) ∧
    Loads (.ldHu d b z o) 2 d b z o (fun v => BitVec.ofNat 64 v) ∧
    Loads (.ldW d b z o) 4 d b z o (fun v => BitVec.ofInt 64 (Int.bmod v (2 ^ 32))) ∧
    Loads (.ldWu d b z o) 4 d b z o (fun v => BitVec.ofNat 64 v) ∧
    Loads (.ldD d b z o) 8 d b z o (fun v => BitVec.ofNat 64 v)) ∧
  (
  ∀ (d b : Spec) (z : BitVec 3) (o : BitVec 7),
    Stores (.stB d b z o) 1 d b z o ∧ Stores (.stH d b z o) 2 d b z o ∧ Stores (.stW d b z o) 4 d b z o ∧
    Stores (.stD d b z o) 8 d b z o)

/-- Translation checks VA bits [63:57]; then, from the root entry down, of each entry read V, whether it is malformed,
whether a leaf lies at a level of its SIZE; then the 16 entries of a 64 KiB or 32 MiB page; then, as at a TLB entry,
ATTR, HOME and the permission; the first that fails raises its fault with its detail and the VA. A page that passes is
found with A set, with D where the access writes; a walk begins at the root or at a table that the walk cache has.
Local: a load finds the scratchpad's bytes and changes nothing, a store writes them; an address that the cluster does
not have raises LOCALRANGE; over a range that an engine holds it waits, and so does a store whose A-stream has popped
what a C-stream word pushed while an earlier e4 command has not read its operands, which is the model's reading of
R310 (log 39); in an ordered domain a store to another tile's scratchpad raises ILLDOM. Global, domain 0: a load finds
the bytes of the line in the tile's L1, on a miss those of the home slice, and a write-back page then has its clean
line in the L1; a store puts its bytes into the L1 line, dirty, and memory, scratchpads and other tiles stay; on a
stream page the line stays clean and its home slice holds the marked bytes; on a miss the line is filled first, and of
an uncached or stream page the bytes go to the home slice alone. In an ordered domain a store that translates, of a
line the task already holds, is buffered, and with the line in the L1 or no write-back page memory stays. A store of a
tile to a scratchpad keeps earlier operand reads of these bytes from serving that tile, the model's reading (log 78).
After R27, R122, R123, R310, R190, R120, R124, R374, R367 to R370, R284. -/
def Obligations.MemoryAccesses : Prop :=
  (
  ∀ (s : State) (site slot : Nat) (m : Stream) (c : Ctx) (ea : Word) (n : Nat) (bs : List Byte),
    s.turn = .tile site slot m → s.ctx? site slot = some c → ea.toNat < 2 ^ 36 → 0 < n → bs.length = n →
    ea.toNat % n = 0 →
    let goal := clusterSite site (locTile ea)
    (s.localOk site ea n → (s.tile goal).overlaps (locOff ea) n false = false → (s.tile goal).sound →
      s.load ea n = .ok ((s.tile goal).spad.readN (locOff ea) n, s)) ∧
    (s.localOk site ea n → (s.tile goal).overlaps (locOff ea) n true = false → s.heldBack = false →
      (c.task.msg.dom = 0 ∨ locTile ea = siteIdx site) →
      s.store ea bs = .ok (s.modTile goal (·.writeBy site (locOff ea) bs))) ∧
    (∀ (t : Tile) (off : Nat), { t.writeBy site off bs with opReads := t.opReads } = t.spadWrite off bs ∧
      ∀ r ∈ (t.writeBy site off bs).opReads, r.meets off n = true → site ∈ r.served) ∧
    (¬ s.localOk site ea n → s.load ea n = .error (.trap { code := .localrange, addr := ea })) ∧
    (s.localOk site ea n → (s.tile goal).overlaps (locOff ea) n false = true → s.load ea n = .error (.wait .scoreboard)) ∧
    (s.localOk site ea n → (s.tile goal).overlaps (locOff ea) n true = true ∨ s.heldBack = true →
      (c.task.msg.dom = 0 ∨ locTile ea = siteIdx site) → s.store ea bs = .error (.wait .scoreboard)) ∧
    (c.task.msg.dom ≠ 0 → locTile ea ≠ siteIdx site → s.store ea bs = .error (.trap { code := .illdom, addr := ea }))) ∧
  (
  ∀ (s : State) (site slot : Nat) (m : Stream) (c : Ctx) (ea : Word) (n : Nat) (bs : List Byte),
    s.turn = .tile site slot m → s.ctx? site slot = some c → 2 ^ 36 ≤ ea.toNat → 0 < n → bs.length = n →
    ea.toNat % n = 0 →
    (∀ l, c.task.msg.dom = 0 → c.buf = [] → (s.tile site).l1find (s.asidOf site) (ea.toNat / 64) = some l →
      l.bad = 0 → l.poison = 0 → l.weak = 0 → s.load ea n = .ok (lineBytes l.data (ea.toNat % 64) n, s)) ∧
    (∀ l, c.task.msg.dom = 0 → (s.tile site).l1find (s.asidOf site) (ea.toNat / 64) = some l → l.wr = true →
      s.streamPage (s.spaceOf site) ea = false → ∃ t, s.store ea bs = .ok t ∧ t.mem = s.mem ∧ t.l2 = s.l2 ∧
        (t.tile site).l1find (s.asidOf site) (ea.toNat / 64) = some (l.put (ea.toNat % 64) bs) ∧
        (∀ k, (t.tile k).spad = (s.tile k).spad ∧ (t.tile k).tags = (s.tile k).tags) ∧
        (∀ k, k ≠ site → t.tile k = s.tile k)) ∧
    (∀ l, c.task.msg.dom = 0 → (s.tile site).l1find (s.asidOf site) (ea.toNat / 64) = some l → l.wr = true →
      s.streamPage (s.spaceOf site) ea = true → ∃ t, s.store ea bs = .ok t ∧
        (t.tile site).l1find (s.asidOf site) (ea.toNat / 64) = some (l.put (ea.toNat % 64) bs).sent ∧
        (s.mem.wf = true → l.key.exists = true → (l.key.isUnb = true → (s.l2find l.key).isSome = true) → ∀ o, o < 64 →
          lineBytes (t.lineAt l.key) o 1 = lineBytes (if (l.put (ea.toNat % 64) bs).mask.getLsbD o
            then (l.put (ea.toNat % 64) bs).data else s.lineAt l.key) o 1)) ∧
    (∀ leaf k s1, c.task.msg.dom = 0 → c.buf = [] → (s.tile site).l1find (s.asidOf site) (ea.toNat / 64) = none →
      s.reach (s.spaceOf site) .load ea = .ok (leaf, k, s1) →
      let s2 := (if pteAttr leaf.pte = 0 then s1.evictAliases site leaf.asid (ea.toNat / 64) k else s1).lineErrors k
        (some c.task.msg.launch)
      s2.poisoned k = false →
      (pteAttr leaf.pte ≠ 0 → s.load ea n = .ok (lineBytes (s2.lineAt k) (ea.toNat % 64) n, s2)) ∧
      (pteAttr leaf.pte = 0 → ∃ (t : State) (l : L1Line), s.load ea n = .ok (lineBytes (t.lineAt k) (ea.toNat % 64) n, t) ∧
        (t.tile site).l1find leaf.asid (ea.toNat / 64) = some l ∧ l.key = k ∧ l.data = t.lineAt k ∧ l.mask = 0)) ∧
    (∀ leaf k s1, c.task.msg.dom = 0 → (s.tile site).l1find (s.asidOf site) (ea.toNat / 64) = none →
      s.reach (s.spaceOf site) .store ea = .ok (leaf, k, s1) →
      (pteAttr leaf.pte ≠ 0 → s.store ea bs = .ok ((s1.noteHbm site k).lineWrite k (ea.toNat % 64) bs)) ∧
      (pteAttr leaf.pte = 0 → ∃ (t : State) (l : L1Line), s.store ea bs = .ok t ∧
        (t.tile site).l1find leaf.asid (ea.toNat / 64) = some (l.put (ea.toNat % 64) bs) ∧ l.key = k ∧
        l.data = t.lineAt k ∧ l.mask = 0)) ∧
    (∀ leaf s1 e, c.task.msg.dom ≠ 0 → s.translate (s.spaceOf site) .store ea = .ok (leaf, s1) →
      s1.ctx? site slot = some e → ea.toNat / 64 ∈ e.specLines →
      ∃ t, s.store ea bs = .ok t ∧ t.ctx? site slot = some { e with buf := e.buf ++ [.store ea bs c.pc] } ∧
        (((s1.tile site).l1find leaf.asid (ea.toNat / 64)).isSome = true ∨ pteAttr leaf.pte ≠ 0 ∨
          ((leaf.key ea).isUnb = true ∧ s1.l2find (leaf.key ea) = none) →
          t.mem = s1.mem ∧ t.l2 = s1.l2))) ∧
  (
  let stops {α : Type} (r : Try α) (c : Code) (d : Nat) (va : Word) : Prop :=
    r = .error (.trap { code := c, detail := BitVec.ofNat 64 d, addr := va })
  let pages (size : Nat) : Nat := ([1, 16, 512, 8192, 262144][size]?).getD 0
  let level (size : Nat) : Nat := ([0, 0, 1, 1, 2][size]?).getD 0
  let bit (e : Word) (i : Nat) : Prop := e.getLsbD i = true
  let leaf (e : Word) : Prop := bit e 1 ∨ bit e 2 ∨ bit e 3
  let sizeOf_ (e : Word) : Nat := e.toNat / 2 ^ 59 % 8
  let pfn (e : Word) : Nat := e.toNat / 2 ^ 12 % 2 ^ 40
  let home (e : Word) : Nat := e.toNat / 2 ^ 52 % 2 ^ 7
  let pointer (e : Word) : Prop := e.toNat = 2 ^ 12 * pfn e + 1
  (∀ (s : State) (n : Need) (e va : Word),
    let attr := e.toNat / 2 ^ 4 % 4
    let live : Prop := home e = 127 ∨ (home e < 84 ∧ (s.field (home e)).live ≠ 0)
    let may : Prop := match n with
      | .fetch => bit e 3
      | .load => bit e 1
      | .store => bit e 2
      | .atomic => bit e 1 ∧ bit e 2
      | .own => bit e 2
    (attr = 3 → stops (s.leafChecks n e va) .prot 5 va) ∧
    (attr ≠ 3 → ¬ live → stops (s.leafChecks n e va) .prot 2 va) ∧
    (attr ≠ 3 → live → ¬ may → stops (s.leafChecks n e va) .prot 0 va) ∧
    (attr ≠ 3 → live → may → s.leafChecks n e va = .ok ())) ∧
  (∀ (read : Nat → Word) (va : Word) (n table : Nat) (seen : List (Nat × Nat)),
    let at_ := table + 8 * (va.toNat / 2 ^ (12 + 9 * n) % 512)
    let e := read at_
    let walks := walkFrom read va n table seen
    let good : Prop := e.toNat / 2 ^ 8 % 16 = 0 ∧ sizeOf_ e < 5 ∧
      (leaf e → (bit e 2 → bit e 1) ∧ (bit e 62 → bit e 63) ∧ (bit e 63 → sizeOf_ e ≠ 4) ∧
        (¬ bit e 63 → pfn e % pages (sizeOf_ e) = 0)) ∧ (¬ leaf e → pointer e ∧ n ≠ 0)
    (¬ bit e 0 → stops walks .pagenp n va) ∧
    (bit e 0 → ¬ good → stops walks .prot 4 va) ∧
    (bit e 0 → good → leaf e → level (sizeOf_ e) ≠ n → stops walks .prot 3 va) ∧
    (bit e 0 → good → leaf e → level (sizeOf_ e) = n → walks = .ok (e, at_, seen)) ∧
    (bit e 0 → good → ¬ leaf e → walks = walkFrom read va (n - 1) (4096 * pfn e) ((n - 1, 4096 * pfn e) :: seen))) ∧
  (∀ (s : State) (sp : Space) (va : Word),
    let at_ := (s.vi sp.vi).roottab.toNat / 4096 * 4096 + 8 * (sp.asid - (s.vi sp.vi).asid0.toNat)
    let e := s.paWord at_
    (∀ t, sp.root = some t → s.rootOf sp va = .ok t) ∧
    (sp.root = none → s.poisoned (.pa (at_ / 64)) = false →
      (¬ bit e 0 → stops (s.rootOf sp va) .pagenp 5 va) ∧
      (bit e 0 → ¬ pointer e → stops (s.rootOf sp va) .prot 4 va) ∧
      (pointer e → s.rootOf sp va = .ok (4096 * pfn e)))) ∧
  (∀ (s : State) (sp : Space) (va : Word) (x : Stop), s.walkCached sp va = none → s.rootOf sp va = .error x →
    s.walk sp va = .error x) ∧
  (∀ (s : State) (sp : Space) (va : Word) (n table : Nat) (seen : List (Nat × Nat)),
    (s.walkCached sp va = some (n, table) ∧ seen = []) ∨
      (s.walkCached sp va = none ∧ s.rootOf sp va = .ok table ∧ n = 4 ∧ seen = [(4, table)]) →
    (∀ a ∈ walkReads s.paWord va n table, s.poisoned (.pa (a / 64)) = false) →
    (∀ x, walkFrom s.paWord va n table seen = .error x → s.walk sp va = .error x) ∧
    (∀ e at_ path, walkFrom s.paWord va n table seen = .ok (e, at_, path) →
      let span := pages (sizeOf_ e)
      let page (e : Word) (at_ : Nat) : Leaf := ⟨sp.vi, sp.asid, va.toNat / 4096 / span * span, span, e, at_⟩
      let first := at_ / 128 * 128
      let differ (i : Nat) : Prop := s.paWord (first + 8 * i) ||| 0xC0 ≠ s.paWord first ||| 0xC0
      (sizeOf_ e ≠ 1 → sizeOf_ e ≠ 3 → s.walk sp va = .ok (page e at_, path)) ∧
      (sizeOf_ e = 1 ∨ sizeOf_ e = 3 → s.poisoned (.pa (first / 64)) = false → s.poisoned (.pa (first / 64 + 1)) = false →
        (∀ i, i < 16 → differ i → (∀ j, j < i → ¬ differ j) → stops (s.walk sp va) .attrsplit i va) ∧
        ((∀ i, i < 16 → ¬ differ i) → s.walk sp va = .ok ({ page e at_ with pte := s.paWord first, pteAt := first }, path))))) ∧
  (∀ (s : State) (sp : Space) (n : Need) (va : Word),
    let hit := sp.cluster.bind (fun c => (s.cluster c).tlbFind sp.vi sp.asid va)
    let w := s.walkErrors sp va
    let writes : Prop := n = .store ∨ n = .atomic
    (2 ^ 57 ≤ va.toNat → stops (s.translate sp n va) .prot 6 va) ∧
    (va.toNat < 2 ^ 57 →
      (∀ e x, hit = some e → s.leafChecks n e.pte va = .error x → s.translate sp n va = .error x) ∧
      (∀ e, hit = some e → s.leafChecks n e.pte va = .ok () → ∃ l t, s.translate sp n va = .ok (l, t) ∧
        l = { e with pte := l.pte } ∧ (¬ writes → l = e ∧ t = s) ∧ (writes → l.pte = e.pte ||| 0x80)) ∧
      (∀ x, hit = none → w.walk sp va = .error x → s.translate sp n va = .error x) ∧
      (∀ l path x, hit = none → w.walk sp va = .ok (l, path) → w.leafChecks n l.pte va = .error x →
        s.translate sp n va = .error x) ∧
      (∀ l path, hit = none → w.walk sp va = .ok (l, path) → w.leafChecks n l.pte va = .ok () →
        ∃ l' t, s.translate sp n va = .ok (l', t) ∧ l' = { l with pte := l'.pte } ∧
          (¬ writes → l'.pte = l.pte ||| 0x40) ∧ (writes → l'.pte = l.pte ||| 0xC0)))))

/-- For a store whose address, AddressOf(base, off7, swizzle) with base read before the data operand (the model's
reading where both name one queue, log 40), is local, aligned and allowed: the operand's bytes stand there; every
other byte of that scratchpad, every other scratchpad, every tag, every L1, the home slices and HBM read as before; so
does every register that the instruction does not name, and every other context. The scratchpad is taken in canonical
form. -/
def Obligations.LocalStoreFrame : Prop :=
  ∀ (i : Instr) (n : Nat) (d b : Spec) (z : BitVec 3) (o : BitVec 7) (s s1 s2 : State) (site slot : Nat) (m : Stream)
    (c e : Ctx) (base v : Word),
    (i = .stB d b z o ∧ n = 1) ∨ (i = .stH d b z o ∧ n = 2) ∨ (i = .stW d b z o ∧ n = 4) ∨ (i = .stD d b z o ∧ n = 8) →
    s.turn = .tile site slot m → s.ctx? site slot = some c → s.issue i = .ok () → s.src .A b = .ok (base, s1) →
    s1.src .A d = .ok (v, s2) → s2.ctx? site slot = some e →
    let ea := effAddr base o z n
    let goal := clusterSite site (locTile ea)
    ea.toNat < 2 ^ 36 → ea.toNat % n = 0 → s2.localOk site ea n → (s2.tile goal).overlaps (locOff ea) n true = false →
    s2.heldBack = false → (c.task.msg.dom = 0 ∨ locTile ea = siteIdx site) → (s.tile goal).spad.wf = true →
    ∃ t f, exec i s = .next t ∧
      (∀ k, k < n → (t.tile goal).spad.read (locOff ea + k) = v.extractLsb' (8 * k) 8) ∧
      (∀ a, a < locOff ea ∨ locOff ea + n ≤ a → (t.tile goal).spad.read a = (s.tile goal).spad.read a) ∧
      (∀ k, k ≠ goal → (t.tile k).spad = (s.tile k).spad) ∧
      (∀ k, (t.tile k).tags = (s.tile k).tags ∧ (t.tile k).l1 = (s.tile k).l1) ∧ t.mem = s.mem ∧ t.l2 = s.l2 ∧
      t.ctx? site slot = some f ∧ Ctx.keeps i c f ∧ (∀ k, k ≠ slot → t.ctx? site k = s.ctx? site k)

/-- ldf waits until full and leaves full, ldt waits until full and leaves empty, stf waits until empty and leaves
full, stx does not wait; a .d form covers two words and two tags. In an ordered domain the access raises ILLDOM, for a
global address LOCALRANGE with detail 1. One that waits for a tag and finds an error that cannot be corrected in a
doubleword of its words raises UCE; that it reads the tags also while it waits is the model's reading (log 41). One
whose condition does not hold waits at the port of its target; an access that the port has served completes with what
it read. The port serves the waiting accesses whose condition holds, the one that arrived first before the others (log
36), and each that acts lets it look again (said of a scratchpad without error marks). fefill and feempty set and
clear the tags of the words of the range one by one, each letting the port serve, and with nothing waiting there
change no other tag and no byte; a length of 0 does nothing whatever the start is, the model's reading (log 18); bits
[63:32] of the length are ignored. After R126, R385, R127. -/
def Obligations.FullEmptyTags : Prop :=
  (
  (∀ (d b : Spec) (z : BitVec 3) (o : BitVec 7),
    FeLoads (.ldfW d b z o) 4 true d b z o ∧ FeLoads (.ldfD d b z o) 8 true d b z o ∧
    FeLoads (.ldtW d b z o) 4 false d b z o ∧ FeLoads (.ldtD d b z o) 8 false d b z o ∧
    FeStores (.stfW d b z o) 4 (some false) d b z o ∧ FeStores (.stfD d b z o) 8 (some false) d b z o ∧
    FeStores (.stxW d b z o) 4 none d b z o ∧ FeStores (.stxD d b z o) 8 none d b z o) ∧
  (∀ (s : State) (site : Nat) (c : Ctx) (f : FeForm) (ea v : Word),
    (c.task.msg.dom ≠ 0 → s.feAccess site c f ea v = .error (.trap { code := .illdom, addr := ea })) ∧
    (c.task.msg.dom = 0 → 2 ^ 36 ≤ ea.toNat →
      s.feAccess site c f ea v = .error (.trap { code := .localrange, detail := 1, addr := ea })) ∧
    (∀ x, c.task.msg.dom = 0 → f.wants = some x → (f.size = 4 ∨ f.size = 8) → ea.toNat % f.size = 0 →
      s.localOk site ea f.size →
      (s.tile (clusterSite site (locTile ea))).overlaps (locOff ea) f.size true = false →
      s.heldBack = false → (∀ y, ¬ c.feServed y) →
      let t := s.tile (clusterSite site (locTile ea))
      ((∃ w ∈ wordsAt ea f.size, w / 2 ∈ t.bad) → s.feAccess site c f ea v = .error (.trap { code := .uce })) ∧
      ((∀ w ∈ wordsAt ea f.size, w / 2 ∉ t.bad) → (∃ w ∈ wordsAt ea f.size, t.full w ≠ x) →
        ∃ arr, s.feAccess site c f ea v = .error (.wait (.fullEmpty (clusterSite site (locTile ea)) (locOff ea / 4)
          ⟨f.size == 8, x, f.after, f.stores, v⟩ arr none))))) ∧
  (∀ (s : State) (target n : Nat),
    (s.feWaiters target = [] → s.feServe target n = s) ∧
    (∀ x v s1, x ∈ s.feWaiters target → (∀ y ∈ s.feWaiters target, y ≠ x → x.arrival < y.arrival) →
      (s.tile target).bad = [] → (s.tile target).weak = [] →
      s.feAct x.site target x.word x.port x.launch = .ok (v, s1) →
      s.feServe target (n + 1) = (s1.modCtx x.site x.slot (·.feDone v)).feServe target n))) ∧
  (
  ∀ (s s1 s2 : State) (site slot : Nat) (c : Ctx) (a b : Spec) (start len : Word),
    s.src .A a = .ok (start, s1) → s1.src .A b = .ok (len, s2) → s2.here = .ok (site, slot, c) →
    (c.task.msg.dom = 0 ∨ 2 ^ 36 ≤ start.toNat ∨ locTile start = siteIdx site) →
    let n := len.toNat % 2 ^ 32
    let goal := clusterSite site (locTile start)
    (n = 0 → (s.issue (.fefill a b) = .ok () → exec (.fefill a b) s = .next (s2.retire .A)) ∧
      (s.issue (.feempty a b) = .ok () → exec (.feempty a b) s = .next (s2.retire .A))) ∧
    let goes (full : Bool) : State := (List.range (n / 4)).foldl (fun s k =>
      (s.modTile goal (·.setTag (locOff start / 4 + k) full)).feServe goal fePorts) s2
    (n ≠ 0 → start.toNat % 4 = 0 → len.toNat % 4 = 0 → s2.localOk site start n →
      (s2.tile goal).overlaps (locOff start) n true = false → s2.heldBack = false →
      (s.issue (.fefill a b) = .ok () → exec (.fefill a b) s = .next ((goes true).retire .A)) ∧
      (s.issue (.feempty a b) = .ok () → exec (.feempty a b) s = .next ((goes false).retire .A))) ∧
    (n ≠ 0 → start.toNat % 4 = 0 → len.toNat % 4 = 0 → s2.localOk site start n →
      (s2.tile goal).overlaps (locOff start) n true = false → s2.heldBack = false →
      (∀ k slot e w tg wd f arr v, s2.ctx? k slot = some e → e.aWait = some w →
        w.kind ≠ .fullEmpty tg wd f arr v) →
      ∃ t u : State, (s.issue (.fefill a b) = .ok () → exec (.fefill a b) s = .next (t.retire .A)) ∧
        (s.issue (.feempty a b) = .ok () → exec (.feempty a b) s = .next (u.retire .A)) ∧
        (∀ w, (t.tile goal).full w =
          ((s2.tile goal).full w || decide (locOff start ≤ 4 * w ∧ 4 * w < locOff start + n))) ∧
        (∀ w, (u.tile goal).full w =
          ((s2.tile goal).full w && !decide (locOff start ≤ 4 * w ∧ 4 * w < locOff start + n))) ∧
        (∀ k, (t.tile k).spad = (s2.tile k).spad ∧ (u.tile k).spad = (s2.tile k).spad)))

/-- Loads: with room in the queue and a shape that fits, the rows that the form names, each checked as a local address
before any byte moves, are read and pushed as one entry; vldb repeats each row's first element. Stores: the oldest
entry of the queue, whose shape and type match, is popped and its rows are written, every row checked before any byte
moves, in an ordered domain only to the tile's own scratchpad; a shape whose size in the window's format is above
4,096 bytes, or another shape than the entry's, raises SHAPE, whether or not the entry's type is the window's and the
window is one for vector words. The store waits while an ME.MMA of e4 that precedes the push has yet to read its
operands, the model's reading of R310 (log 39). A row without a swizzle is the scratchpad's bytes in order from its
start, and a store of it writes no other byte. The order of the checks of an index table and of its rows is the
model's reading (log 16). After R128, R129, R29, R22, R422, R310. -/
def Obligations.VectorLoadsAndStores : Prop :=
  (
  (∀ (s s1 s2 s3 s4 : State) (site slot : Nat) (c : Ctx) (v : VSpec) (a b : Spec) (z : BitVec 3) (base p : Word)
    (rows cols : Nat) (ty : Option VType) (starts : List Word) (chk : List (Nat × List (Word × Nat))) (bs : List Byte)
    (indexed one : Bool) (i : Instr),
    (i = .vld v a b z ∧ indexed = false ∧ one = false) ∨ (i = .vldx v a b z ∧ indexed = true ∧ one = false) ∨
      (i = .vldb v a b z ∧ indexed = false ∧ one = true) →
    (v = 28 ∨ v = 29) → s.issue i = .ok () → s.src .A a = .ok (base, s1) → s1.src .A b = .ok (p, s2) →
    s2.here = .ok (site, slot, c) → (vget [] c.vq (v.toNat - 28)).length < 4 → c.aShape = .ok (rows, cols) →
    base.toNat < 2 ^ 36 → vecWindow ((s2.tile site).window (locWin base)) = .ok ty →
    let size := match ty with | some t => t.size | none => 1
    let len := if one then size else cols * size
    rows * cols * size ≤ 4096 → s2.rowStarts site c.task.msg.launch indexed base p rows = .ok (starts, s3) →
    starts.mapM (fun x => s3.checkRow site (locWin base) z x len) = .ok chk →
    chk.foldlM (fun (acc : List Byte × State) row => do
      let r ← acc.2.readRow c.task.msg.launch row
      .ok (acc.1 ++ (if one then (List.replicate cols r.1).flatten else r.1), r.2)) ([], s3) = .ok (bs, s4) →
    exec i s = .next ((s4.modCtx site slot (fun c =>
      c.pushV (v.toNat - 28) ⟨rows, cols, ty.getD .u8, BitVec.ofNat 32768 (leNat bs), 0⟩)).retire .A)) ∧
  (∀ (s : State) (site w launch : Nat) (a : Word) (n : Nat) (row : Nat × List (Word × Nat)),
    s.checkRow site w 0 a n = .ok row → (s.tile row.1).sound → (s.tile row.1).ranges = [] →
    row.1 = clusterSite site (locTile a) ∧ s.readRow launch row = .ok ((s.tile row.1).spad.readN (locOff a) n, s))) ∧
  (
  (∀ (s s1 s2 s3 : State) (site slot : Nat) (c : Ctx) (v : VSpec) (a b : Spec) (z : BitVec 3) (base p : Word)
    (rows cols : Nat) (ty : Option VType) (e : VEntry) (rest : List VEntry) (starts : List Word)
    (chk : List (Nat × List (Word × Nat))) (indexed : Bool) (i : Instr),
    (i = .vst v a b z ∧ indexed = false) ∨ (i = .vstx v a b z ∧ indexed = true) →
    30 ≤ v.toNat → s.issue i = .ok () → s.src .A a = .ok (base, s1) → s1.src .A b = .ok (p, s2) →
    s2.here = .ok (site, slot, c) → c.aShape = .ok (rows, cols) → vget [] c.vq (v.toNat - 28) = e :: rest →
    e.rows = rows → e.cols = cols → base.toNat < 2 ^ 36 →
    vecWindow ((s2.tile site).window (locWin base)) = .ok ty → (∀ t, ty = some t → t = e.ty) →
    rows * cols * (match ty with | some t => t.size | none => 1) ≤ 4096 →
    s2.rowStarts site c.task.msg.launch indexed base p rows = .ok (starts, s3) →
    (c.task.msg.dom = 0 ∨ ((∀ x ∈ starts, otherTile site x = false) ∧
      (indexed = false → ∀ x ∈ pitchRows base p rows, otherTile site x = false))) →
    starts.mapM (fun x => s3.checkRow site (locWin base) z x (cols * e.ty.size)) = .ok chk →
    (∀ row ∈ chk, (s3.tile row.1).ranges = []) →
    let u := s3.modCtx site slot (fun c => { c.setV (v.toNat - 28) rest with popped := Nat.max c.popped e.mark })
    (u.heldBack = true → exec i s = .next (s.block i .scoreboard)) ∧
    (u.heldBack = false → exec i s = .next (((chk.zipIdx).foldl (fun s p => s.writeRow site p.1
        ((List.range (cols * e.ty.size)).map (fun k => e.data.extractLsb' (8 * (p.2 * (cols * e.ty.size) + k)) 8))) u).retire
      .A))) ∧
  (∀ (s s1 s2 : State) (site slot : Nat) (c : Ctx) (v : VSpec) (a b : Spec) (z : BitVec 3) (base p : Word)
    (rows cols n : Nat) (e : VEntry) (rest : List VEntry) (i : Instr), i = .vst v a b z ∨ i = .vstx v a b z →
    30 ≤ v.toNat → s.issue i = .ok () → s.src .A a = .ok (base, s1) → s1.src .A b = .ok (p, s2) →
    s2.here = .ok (site, slot, c) → c.aShape = .ok (rows, cols) → vget [] c.vq (v.toNat - 28) = e :: rest →
    c.task.msg.dom = 0 → base.toNat < 2 ^ 36 →
    let d := (s2.tile site).window (locWin base)
    (vecWindow d = .ok none ∧ n = 1) ∨ (∃ t, vtypeOf (fld d 0 4) = some t ∧ n = t.size) →
    (4096 < rows * cols * n ∨ e.rows ≠ rows ∨ e.cols ≠ cols) →
    exec i s = .next (s.raise .A { code := .shape })) ∧
  (∀ (s : State) (site w : Nat) (a : Word) (n : Nat) (row : Nat × List (Word × Nat)) (bs : List Byte),
    s.checkRow site w 0 a n = .ok row → bs.length = n → (s.tile row.1).spad.wf = true →
    (∀ k, k < n → ((s.writeRow site row bs).tile row.1).spad.read (locOff a + k) = bs[k]!) ∧
    (∀ k, k < locOff a ∨ locOff a + n ≤ k →
      ((s.writeRow site row bs).tile row.1).spad.read k = (s.tile row.1).spad.read k) ∧
    (∀ k, k ≠ row.1 → (s.writeRow site row bs).tile k = s.tile k)))

/-- On a tile: acq and rel of order t only move on; other acq take every clean line away from the L1 but those that
hold a task's buffered stores, and keep the dirty ones, with memory as before; in an ordered domain rel only moves on,
in domain 0 it leaves no dirty line in the L1; fence waits until every C-stream word fetched before has retired and no
e4 command of the task still has operands to read. qfence: a mask that is 0 or above 7 raises ILLOP, as does a partly
written command in a named queue; else, with the C-stream's words issued when e4 is named and room in the queues, a
fence entry goes into the tile's list, in an ordered domain into the buffer. That room for one word is what it takes
is the model's reading (log 65). acq and fence also let no operand read that was made before them serve the tile (log
78). In an ordered domain the fence entry orders the buffered commands only, the model's choice (log 111). After R131
to R134, R310, R189, R154. -/
def Obligations.FencesOrder : Prop :=
  (
  ∀ (s : State) (site slot : Nat) (m : Stream) (c : Ctx), s.turn = .tile site slot m → s.ctx? site slot = some c →
    (∀ k, (∀ r ∈ ((s.acquired site).tile k).opReads, siteCluster k = siteCluster site → site ∈ r.served) ∧
      { (s.acquired site).tile k with opReads := (s.tile k).opReads } = s.tile k) ∧
    { s.acquired site with tiles := s.tiles } = s ∧
    exec (.acq .t) s = .next ((s.acquired site).retire .A) ∧
    (∀ o, o ≠ .t → ∃ t, exec (.acq o) s = .next t ∧ (t.tile site).l1 =
        (s.tile site).l1.filter (fun l => l.mask != 0 || (s.tile site).specHeld l.line) ∧
      t.mem = s.mem ∧ t.l2 = s.l2 ∧ (∀ k, (t.tile k).spad = (s.tile k).spad)) ∧
    exec (.rel .t) s = .next (s.retire .A) ∧
    (c.task.msg.dom ≠ 0 → ∀ o, exec (.rel o) s = .next (s.retire .A)) ∧
    (c.task.msg.dom = 0 → ∀ o, o ≠ .t → ∃ t, exec (.rel o) s = .next t ∧ (∀ l ∈ (t.tile site).l1, l.mask = 0) ∧
      (∀ k, (t.tile k).spad = (s.tile k).spad ∧ (t.tile k).tags = (s.tile k).tags)) ∧
    let drained : Prop := s.cRetired site slot c = true ∧ (s.tile site).unread c (s.tile site).seq = false
    (drained → exec .fence s = .next ((s.acquired site).retire .A)) ∧
    (¬ drained → exec .fence s = .next (s.block .fence .fence))) ∧
  (
  ∀ (s s1 : State) (site slot : Nat) (c : Ctx) (a : Spec) (v : Word), s.issue (.qfence a) = .ok () →
    s.src .A a = .ok (v, s1) → s1.here = .ok (site, slot, c) →
    (v = 0 ∨ 8 ≤ v.toNat → exec (.qfence a) s = .next (s.raise .A { code := .illop })) ∧
    (v ≠ 0 → v.toNat < 8 → (v.toNat < 4 ∨ c.cIssued = true) →
      (∀ k, k < 3 → v.getLsbD k = true → vget [] c.out k = []) →
      (∀ k, k < 3 → v.getLsbD k = true → portUsed (s1.tile site) slot c k < 16) →
      (c.task.msg.dom = 0 → exec (.qfence a) s = .next ((s1.modTile site (fun t => { t with
        fences := t.fences ++ [⟨v.toNat, t.seq, c.task.id, c.run⟩], seq := t.seq + 1 })).retire .A)) ∧
      (c.task.msg.dom ≠ 0 → exec (.qfence a) s =
        .next ((s1.modCtx site slot (fun e => { e with buf := e.buf ++ [.qfence v.toNat c.pc] })).retire .A))) ∧
    (v ≠ 0 → v.toNat < 4 → (∃ k, k < 3 ∧ v.getLsbD k = true ∧ vget [] c.out k ≠ []) →
      exec (.qfence a) s = .next (s.raise .A { code := .illop })))

/-- cwb leaves no dirty line of the range in this tile's L1 and cinv no line of it, but for speculative lines: the
task's own stay as they are, another task's stay and are clean, the model's reading (log 99); what rel.g, cwb, cinv
and an eviction write back stands at the home slice afterwards, the marked bytes of the line and no others, and
another line goes to HBM only where its set is full (R7; which lines take ways is the model's choice, log 12), and
rel.h's write to a working stack stands in HBM; a local start does nothing; pf and pf2 always complete and leave
scratchpads alone. disc: in an ordered domain it raises ILLDOM; with an aligned global range it discards line by line;
a discarded line is in no L1 and in no home slice, every other home line and HBM stay; that disc of no bytes does
nothing is the model's reading (log 18). pmig of an unbacked page to a field of the launch queues the request, and a
later request of the same page replaces the target; the order of its checks is the model's reading (log 59). After
R135, R137, R120, R131, R7, R136. -/
def Obligations.RangesAndDiscards : Prop :=
  (
  ∀ (s s1 s2 : State) (site slot : Nat) (m : Stream) (c : Ctx) (a b : Spec) (start len : Word),
    s.src .A a = .ok (start, s1) → s1.src .A b = .ok (len, s2) → s2.turn = .tile site slot m →
    s2.ctx? site slot = some c →
    let n := len.toNat % 2 ^ 32
    let inside (l : L1Line) : Prop := l.asid = s2.asidOf site ∧ n ≠ 0 ∧ start.toNat / 64 ≤ l.line ∧
      l.line ≤ (start.toNat + n - 1) / 64
    (s.issue (.cwb a b) = .ok () →
      (start.toNat < 2 ^ 36 → exec (.cwb a b) s = .next (s2.retire .A)) ∧
      (2 ^ 36 ≤ start.toNat → ∃ t : State, exec (.cwb a b) s = .next (t.retire .A) ∧
        ∀ l ∈ (t.tile site).l1, inside l → l.line ∉ c.specLines → l.mask = 0)) ∧
    (s.issue (.cinv a b) = .ok () →
      (start.toNat < 2 ^ 36 → exec (.cinv a b) s = .next (s2.retire .A)) ∧
      (2 ^ 36 ≤ start.toNat → ∃ t : State, exec (.cinv a b) s = .next (t.retire .A) ∧
        ∀ l ∈ (t.tile site).l1, inside l → (s2.tile site).specHeld l.line = true ∧ (l.line ∉ c.specLines → l.mask = 0))) ∧
    (s.issue (.pf a b) = .ok () → ∃ t : State, exec (.pf a b) s = .next (t.retire .A) ∧
      (start.toNat < 2 ^ 36 → t = s2) ∧ ∀ k, (t.tile k).spad = (s2.tile k).spad) ∧
    (s.issue (.pf2 a b) = .ok () → ∃ t : State, exec (.pf2 a b) s = .next (t.retire .A) ∧
      (start.toNat < 2 ^ 36 → t = s2) ∧ ∀ k, (t.tile k).spad = (s2.tile k).spad) ∧
    (s.issue (.disc a b) = .ok () →
      (c.task.msg.dom ≠ 0 → exec (.disc a b) s = .next (s.raise .A { code := .illdom, addr := start })) ∧
      (c.task.msg.dom = 0 → n = 0 → exec (.disc a b) s = .next (s2.retire .A)) ∧
      (c.task.msg.dom = 0 → n ≠ 0 → 2 ^ 36 ≤ start.toNat → start.toNat % 64 = 0 → n % 64 = 0 →
        ∀ t, (List.range (n / 64)).foldlM (fun s k => s.discLine site (start.toNat / 64 + k)) s2 = .ok t →
          exec (.disc a b) s = .next (t.retire .A)))) ∧
  (
  let holds (s t : State) (l : L1Line) : Prop := ∀ o, o < 64 →
    lineBytes (t.lineAt l.key) o 1 = lineBytes (if l.mask.getLsbD o then l.data else s.lineAt l.key) o 1
  let kept (s : State) (k : LineKey) : Prop := k.exists = true ∧ ∀ n, k = .pa n → s.stackOk n = true
  let real (s : State) (k : LineKey) : Prop := kept s k ∧ (k.isUnb = true → (s.l2find k).isSome = true)
  let alone (ls : List L1Line) (l : L1Line) : Prop := ∀ x ∈ ls, x.key = l.key → x.mask ≠ 0 → x = l
  (∀ (s t : State) (site : Nat) (l : L1Line), t = s.writeBack site l ∨ t = s.evictLine site l →
    s.mem.wf = true → (real s l.key → holds s t l) ∧ (∀ k, k ≠ l.key → kept s k → t.lineAt k = s.lineAt k) ∧
      (s.makeRoom (s.lineField l.key) l.key = s → t.mem = s.mem ∧ ∀ k, k ≠ l.key → t.lineAt k = s.lineAt k)) ∧
  (∀ (s : State) (site slot : Nat) (m : Stream) (c : Ctx), s.turn = .tile site slot m → s.ctx? site slot = some c →
    c.task.msg.dom = 0 → s.mem.wf = true → ∃ t, exec (.rel .g) s = .next t ∧
      (∀ k, kept s k → (∀ l ∈ (s.tile site).l1, l.key ≠ k) → t.lineAt k = s.lineAt k) ∧
      ∀ l ∈ (s.tile site).l1, real s l.key → alone (s.tile site).l1 l → holds s t l) ∧
  (∀ (i : Instr) (s s1 s2 : State) (site slot : Nat) (m : Stream) (c : Ctx) (a b : Spec) (start len : Word),
    i = .cwb a b ∨ i = .cinv a b → s.issue i = .ok () → s.src .A a = .ok (start, s1) → s1.src .A b = .ok (len, s2) →
    s2.turn = .tile site slot m → s2.ctx? site slot = some c → 2 ^ 36 ≤ start.toNat → len.toNat % 2 ^ 32 ≠ 0 →
    s2.mem.wf = true → ∃ t, exec i s = .next t ∧
      (∀ k, kept s2 k → (∀ l ∈ (s2.tile site).l1, l.key ≠ k) → t.lineAt k = s2.lineAt k) ∧ ∀ l ∈ (s2.tile site).l1, l.asid = s2.asidOf site →
      start.toNat / 64 ≤ l.line → l.line ≤ (start.toNat + len.toNat % 2 ^ 32 - 1) / 64 → l.line ∉ c.specLines →
      real s2 l.key → alone (s2.tile site).l1 l → holds s2 t l) ∧
  (∀ (s : State) (n : Nat) (x : L2Line) (launch : Option Nat), s.mem.wf = true → s.stackOk n = true →
    (LineKey.pa n).exists = true → s.l2find (.pa n) = some x →
    (s.toHbm (.pa n) launch).mem.readN (64 * n) 64 = lineBytes x.data 0 64 ∧
    (s.toHbm (.pa n) launch).lineAt (.pa n) = x.data)) ∧
  (
  (∀ (s : State) (k : LineKey), (∀ x ∈ (s.discard k).l2, x.key ≠ k) ∧
    (∀ site, ∀ x ∈ ((s.discard k).tile site).l1, x.key ≠ k) ∧ (s.discard k).mem = s.mem ∧
    (∀ x ∈ s.l2, x.key ≠ k → x ∈ (s.discard k).l2)) ∧
  (∀ (s s1 s2 s3 : State) (site slot : Nat) (c : Ctx) (l : Launch) (leaf : Leaf) (a b : Spec) (va f : Word),
    s.issue (.pmig a b) = .ok () → s.src .A a = .ok (va, s1) → s1.src .A b = .ok (f, s2) →
    s2.here = .ok (site, slot, c) → c.task.msg.dom = 0 → 2 ^ 36 ≤ va.toNat →
    s2.translate (s2.spaceOf site) .own va = .ok (leaf, s3) → va.toNat % 4096 = 0 → va.toNat % (4096 * leaf.span) = 0 →
    pteUnb leaf.pte = true → s3.launch? c.task.msg.launch = some l → f.toNat % 128 ∈ l.fields →
    exec (.pmig a b) s = .next ((s3.queueMigration (s3.migField leaf)
      ⟨c.task.msg.vi, leaf.asid, leaf.vpage, f.toNat % 128⟩).retire .A)) ∧
  (∀ (s : State) (f : Nat) (m : Migration),
    (∃ p ∈ s.fields, ∃ x ∈ p.2.migrations, x.vi = m.vi ∧ x.asid = m.asid ∧ x.vpage = m.vpage) →
    ∀ p ∈ (s.queueMigration f m).fields, ∀ x ∈ p.2.migrations, x.vi = m.vi → x.asid = m.asid → x.vpage = m.vpage →
      x.target = m.target))

/-! ## Atomics and synchronisation -/

/-- What each operation writes and returns: 64-bit sums wrap, aadd.w and acas.w act on a word and return it
sign-extended, faadd rounds to nearest even, compare and swap writes only when the contents equal d. Each instruction
takes its address from Src(a), performs its operation and gives what it returns to d; acas takes what it compares from
d, which must be a register; aload has no operand, astore no result. On a scratchpad the operation acts at once and
outside its bytes nothing changes; in domain 0 on a global address the tile's own copies of the line go and the
operation acts on the line's bytes at the home slice, giving what it found there. In an ordered domain on another
tile's scratchpad it raises ILLDOM, and on a global address one other than compare and swap whose result is wanted
does; misaligned in domain 0 it raises ALIGN. A buffered atomic ignores the ordering field; with .acq or .ar of any
other no operand read that was made before it serves the tile afterwards; it changes nothing else, since each access
is performed in program order (logs 8 and 78). After R138, R141, R141 to R143, R139, R140, R121, R123, R142. -/
def Obligations.Atomics : Prop :=
  (
  ∀ (old : Nat) (b cmp : Word), old < 2 ^ 64 →
    AtomOp.run .add b old = (some ((old + b.toNat) % 2 ^ 64), BitVec.ofNat 64 old) ∧
    AtomOp.run .addw b old = (some ((old + b.toNat) % 2 ^ 32), BitVec.ofInt 64 (Int.bmod old (2 ^ 32))) ∧
    AtomOp.run .fadd b old = (some (Fmt.fp32.round Modes.ne
      (FVal.add .rne (Fmt.fp32.unpack old) (Fmt.fp32.unpack (b.toNat % 2 ^ 32))).1).1, BitVec.ofNat 64 old) ∧
    AtomOp.run .and b old = (some (old &&& b.toNat), BitVec.ofNat 64 old) ∧
    AtomOp.run .or b old = (some (old ||| b.toNat), BitVec.ofNat 64 old) ∧
    AtomOp.run .xor b old = (some (old ^^^ b.toNat), BitVec.ofNat 64 old) ∧
    AtomOp.run .min b old =
      (some (if (BitVec.ofNat 64 old).toInt < b.toInt then old else b.toNat), BitVec.ofNat 64 old) ∧
    AtomOp.run .max b old =
      (some (if (BitVec.ofNat 64 old).toInt < b.toInt then b.toNat else old), BitVec.ofNat 64 old) ∧
    AtomOp.run .minu b old = (some (min old b.toNat), BitVec.ofNat 64 old) ∧
    AtomOp.run .maxu b old = (some (max old b.toNat), BitVec.ofNat 64 old) ∧
    AtomOp.run .swap b old = (some b.toNat, BitVec.ofNat 64 old) ∧
    AtomOp.run .load b old = (none, BitVec.ofNat 64 old) ∧
    (AtomOp.run .store b old).1 = some b.toNat ∧
    AtomOp.run (.cas cmp) b old = (if old = cmp.toNat then some b.toNat else none, BitVec.ofNat 64 old) ∧
    AtomOp.run (.casw cmp) b old =
      (if old % 2 ^ 32 = cmp.toNat % 2 ^ 32 then some (b.toNat % 2 ^ 32) else none,
        BitVec.ofInt 64 (Int.bmod old (2 ^ 32)))) ∧
  (
  ∀ (d a b : Spec) (o : MemOrder) (k : BitVec 2),
    ActsAtomically (.aadd d a b o) .add d a b o ∧ ActsAtomically (.aaddW d a b o) .addw d a b o ∧
    ActsAtomically (.faadd d a b o) .fadd d a b o ∧ ActsAtomically (.aand d a b o) .and d a b o ∧
    ActsAtomically (.aor d a b o) .or d a b o ∧ ActsAtomically (.axor d a b o) .xor d a b o ∧
    ActsAtomically (.amin d a b o) .min d a b o ∧ ActsAtomically (.amax d a b o) .max d a b o ∧
    ActsAtomically (.aminu d a b o) .minu d a b o ∧ ActsAtomically (.amaxu d a b o) .maxu d a b o ∧
    ActsAtomically (.aswap d a b o) .swap d a b o ∧ ActsAtomically (.atopk d a b o k) (.topk (k.toNat + 1)) d a b o ∧
    (∀ (s s1 s2 t : State) (ea x : Word), s.issue (.aload d a o) = .ok () → s.src .A a = .ok (ea, s1) →
      s1.atom .load d ea 0 = .ok (some x, s2) → (s2.orderedBy o ea).dst .A d x = .ok t →
      exec (.aload d a o) s = .next (t.retire .A)) ∧
    (∀ (s s1 s2 s3 : State) (ea v : Word) (x : Option Word), s.issue (.astore a b o) = .ok () →
      s.src .A a = .ok (ea, s1) → s1.src .A b = .ok (v, s2) → s2.atom .store 0 ea v = .ok (x, s3) →
      exec (.astore a b o) s = .next ((s3.orderedBy o ea).retire .A)) ∧
    (∀ (s s1 s2 s3 s4 t : State) (ea v cmp : Word) (x : Option Word), d.toNat < 48 → s.src .A a = .ok (ea, s1) →
      s1.src .A b = .ok (v, s2) → s2.src .A d = .ok (cmp, s3) →
      (s.issue (.acas d a b o) = .ok () → s3.atom (.cas cmp) d ea v = .ok (x, s4) →
        (match x with | some y => (s4.orderedBy o ea).dst .A d y | none => .ok (s4.orderedBy o ea)) = .ok t →
        exec (.acas d a b o) s = .next (t.retire .A)) ∧
      (s.issue (.acasW d a b o) = .ok () → s3.atom (.casw cmp) d ea v = .ok (x, s4) →
        (match x with | some y => (s4.orderedBy o ea).dst .A d y | none => .ok (s4.orderedBy o ea)) = .ok t →
        exec (.acasW d a b o) s = .next (t.retire .A))) ∧
    (∀ (s : State) (site slot : Nat) (m : Stream) (c : Ctx) (ea : Word), s.turn = .tile site slot m →
      s.ctx? site slot = some c →
      s.orderedBy o ea =
        if (o = .acq ∨ o = .ar) ∧ ¬ (c.task.msg.dom ≠ 0 ∧ 2 ^ 36 ≤ ea.toNat) then s.acquired site else s)) ∧
  (
  ∀ (s : State) (site slot : Nat) (m : Stream) (c : Ctx) (op : AtomOp) (d : Spec) (ea b : Word),
    s.turn = .tile site slot m → s.ctx? site slot = some c →
    let goal := clusterSite site (locTile ea)
    let off := locOff ea
    let r := op.run b (leNat ((s.tile goal).spad.readN off op.bytes))
    (s.localOk site ea op.bytes → ea.toNat % op.align = 0 → s.heldBack = false → (c.task.msg.dom = 0 ∨ locTile ea = siteIdx site) →
      (s.tile goal).overlaps off op.bytes true = false → (s.tile goal).sound →
      ∃ t, s.atom op d ea b = .ok (some r.2, t) ∧
        (t.tile goal).spad = (match r.1 with
          | some v => (s.tile goal).spad.writeN off (leBytes op.bytes v)
          | none => (s.tile goal).spad) ∧
        ((s.tile goal).spad.wf = true →
          ∀ a, a < off ∨ off + op.bytes ≤ a → (t.tile goal).spad.read a = (s.tile goal).spad.read a) ∧
        (∀ k, k ≠ goal → t.tile k = s.tile k) ∧ { t with tiles := s.tiles } = s) ∧
    (∀ leaf k s1, c.task.msg.dom = 0 → 2 ^ 36 ≤ ea.toNat → ea.toNat % op.align = 0 →
      s.reach (s.spaceOf site) .atomic ea = .ok (leaf, k, s1) →
      let s2 := (s1.dropOwn site k).lineErrors k (s.spaceOf site).launch
      let e := op.run b (leNat (lineBytes (s2.lineAt k) (ea.toNat % 64) op.bytes))
      s2.poisoned k = false → s.atom op d ea b = .ok (some e.2, (match e.1 with
        | some v => s2.lineWrite k (ea.toNat % 64) (leBytes op.bytes v)
        | none => s2).noteHbm site k)) ∧
    (ea.toNat < 2 ^ 36 → c.task.msg.dom ≠ 0 → locTile ea ≠ siteIdx site →
      s.atom op d ea b = .error (.trap { code := .illdom, addr := ea })) ∧
    (2 ^ 36 ≤ ea.toNat → c.task.msg.dom ≠ 0 → op.isCas = false → (d ≠ 0 ∨ op = .load) →
      s.atom op d ea b = .error (.trap { code := .illdom, addr := ea })) ∧
    (c.task.msg.dom = 0 → ea.toNat % op.align ≠ 0 →
      s.atom op d ea b = .error (.trap { code := .align, addr := ea })))

/-- A slot whose score is NaN is worse than every slot whose score is a number; of two numbers the larger score is
better, +0 and -0 being equal, of equal scores the lower id; nothing is better than a slot that is equal to it.
Inserting a candidate keeps the number of slots, brings nothing but the candidate, and keeps slots that are ordered
best first ordered; a NaN changes nothing; the record changes exactly when the candidate is better than one of its
slots. It enters before the first slot that it is better than, the later ones move down and the last leaves. The
atomic's result says whether it entered; on a scratchpad the first k slots of the record become those, and the slots
from k on stay. After R142, R143. -/
def Obligations.TopkKeepsTheOrder : Prop :=
  (∀ p q : BitVec 32,
    let mag (x : BitVec 32) : Nat := x.toNat / 2 ^ 16 % 2 ^ 15
    let nan (x : BitVec 32) : Prop := 0x7F80 < mag x
    let key (x : BitVec 32) : Int := if x.msb = true then - (mag x : Int) else (mag x : Int)
    let id_ (x : BitVec 32) : Nat := x.toNat % 2 ^ 16
    (slotNaN p = true ↔ nan p) ∧
    (better p q = true ↔ (nan q ∧ ¬ nan p) ∨
      (¬ nan p ∧ ¬ nan q ∧ (key q < key p ∨ (key p = key q ∧ id_ p < id_ q))))) ∧
  (∀ (c : BitVec 32) (slots : List (BitVec 32)),
    let ordered (l : List (BitVec 32)) : Prop := l.Pairwise (fun p q => better q p = false)
    let r := insertTop c slots
    r.1.length = slots.length ∧ (∀ p ∈ r.1, p = c ∨ p ∈ slots) ∧ (ordered slots → ordered r.1) ∧
    (slotNaN c = true → r = (slots, false)) ∧
    (slotNaN c = false → (r.2 = true ↔ ∃ p ∈ slots, better c p = true)) ∧ (r.2 = false → r.1 = slots) ∧
    (∀ i p, slotNaN c = false → slots[i]? = some p → better c p = true → (∀ q ∈ slots.take i, better c q = false) →
      r.1 = slots.take i ++ c :: (slots.drop i).dropLast)) ∧
  (∀ (k old : Nat) (b : Word),
    let r := insertTop (b.setWidth 32) (recordSlots old k)
    (AtomOp.topk k).bytes = 4 * k ∧ ((AtomOp.topk k).run b old).2 = (if r.2 = true then 1 else 0) ∧
    (r.2 = false → ((AtomOp.topk k).run b old).1 = none) ∧
    (r.2 = true → ∃ v, ((AtomOp.topk k).run b old).1 = some v ∧ v < 2 ^ (32 * k) ∧ recordSlots v k = r.1)) ∧
  (∀ (s : State) (site slot k : Nat) (m : Stream) (c : Ctx) (d : Spec) (ea b : Word), s.turn = .tile site slot m →
    s.ctx? site slot = some c → k ≤ 4 →
    let goal := clusterSite site (locTile ea)
    let at_ (x : State) (i : Nat) : BitVec 32 := BitVec.ofNat 32 (leNat ((x.tile goal).spad.readN (locOff ea + 4 * i) 4))
    let r := insertTop (b.setWidth 32) ((List.range k).map (at_ s))
    s.localOk site ea (4 * k) → ea.toNat % 16 = 0 → s.heldBack = false →
      (c.task.msg.dom = 0 ∨ locTile ea = siteIdx site) → (s.tile goal).overlaps (locOff ea) (4 * k) true = false →
      (s.tile goal).sound → (s.tile goal).spad.wf = true →
      ∃ t, s.atom (.topk k) d ea b = .ok (some (if r.2 = true then 1 else 0), t) ∧
        ∀ i, at_ t i = if i < k then (r.1[i]?).getD 0 else at_ s i)

/-- Barriers: an arrival is recorded once a phase for a tile that holds a cell; a second arrival, one of another form
and one of a tile without a cell raise BAROVR with details 0, 2 and 3; bwait waits for the phase of the tile's latest
arrival when it began, and goes on once that phase is over, whatever arrives since; in an ordered domain both raise
ILLDOM. Reductions arrive with their value, wait, and give the phase's result: the least value, the sum modulo 2^32 or
the OR. A phase ends when the tile of every cell has arrived, and the next begins with no arrivals; until then the
event changes nothing. Which of details 0 and 2 a second arrival of another form gives is the model's reading (log
64). bwait and bred acquire when they go on: no operand read that was made before serves the tile (log 78). After
R149, R150. -/
def Obligations.Bells : Prop :=
  (
  ∀ (s : State) (site slot : Nat) (m : Stream) (c : Ctx) (l : Launch) (t : BitVec 3), s.turn = .tile site slot m →
    s.ctx? site slot = some c → s.launch? c.task.msg.launch = some l →
    let b := vget {} l.bells t.toNat
    (c.task.msg.dom ≠ 0 → exec (.barr t) s = .next (s.raise .A { code := .illdom }) ∧
      exec (.bwait t) s = .next (s.raise .A { code := .illdom })) ∧
    (c.task.msg.dom = 0 →
      (l.holdsCell site = true → (∀ x ∈ b.arrived, x.1 ≠ site ∧ x.2.1 = 0) →
        ∃ u : State, exec (.barr t) s = .next (u.retire .A) ∧ { u with launches := s.launches } = s ∧
          (u.launch? c.task.msg.launch).map (fun (x : Launch) => (vget {} x.bells t.toNat).arrived) =
            some (b.arrived ++ [(site, 0, 0)])) ∧
      (l.holdsCell site = true → (∃ x ∈ b.arrived, x.1 = site) →
        exec (.barr t) s = .next (s.raise .A { code := .barovr })) ∧
      (l.holdsCell site = true → (∀ x ∈ b.arrived, x.1 ≠ site) → (∃ x ∈ b.arrived, x.2.1 ≠ 0) →
        exec (.barr t) s = .next (s.raise .A { code := .barovr, detail := 2 })) ∧
      (l.holdsCell site = false → exec (.barr t) s = .next (s.raise .A { code := .barovr, detail := 3 })) ∧
      ((∀ w k ph, c.aWait = some w → w.kind ≠ .bell k ph) →
        ((∀ p, sget? site b.latest = some p → p < b.phase) → exec (.bwait t) s = .next ((s.acquired site).retire .A)) ∧
        (∀ p, sget? site b.latest = some p → b.phase ≤ p →
          exec (.bwait t) s = .next (s.block (.bwait t) (.bell t.toNat p)))) ∧
      (∀ w k ph, c.aWait = some w → w.kind = .bell k ph →
        (ph < b.phase → exec (.bwait t) s = .next ((s.acquired site).retire .A)) ∧
        (b.phase ≤ ph → exec (.bwait t) s = .next (s.block (.bwait t) (.bell k ph)))))) ∧
  (
  (∀ d a b : Spec, Reduces (.bredMin d a b) 1 d a b ∧ Reduces (.bredSum d a b) 2 d a b ∧
    Reduces (.bredOr d a b) 3 d a b) ∧
  (∀ (s : State) (n tag : Nat) (l : Launch), s.launch? n = some l → tag < 8 →
    let b := vget {} l.bells tag
    let vs := b.arrived.map (fun x => x.2.2)
    (∃ t, exec (.bellPhaseComplete n tag) s = .next t ∧ { t with launches := s.launches } = s ∧
      (b.arrived ≠ [] → (∀ x ∈ l.cells, ∃ y ∈ b.arrived, y.1 = x.2) → ∃ r,
        (t.launch? n).map (fun (x : Launch) => vget {} x.bells tag) =
          some { b with phase := b.phase + 1, arrived := [], results := b.results ++ [r] } ∧
        ((∀ x ∈ b.arrived, x.2.1 = 1) → r ∈ vs ∧ ∀ v ∈ vs, r.toNat ≤ v.toNat) ∧
        ((∀ x ∈ b.arrived, x.2.1 = 2) → r.toNat = (vs.map BitVec.toNat).sum % 2 ^ 32) ∧
        ((∀ x ∈ b.arrived, x.2.1 = 3) → ∀ j, r.getLsbD j = vs.any (fun v => v.getLsbD j))) ∧
      ((∃ x ∈ l.cells, ∀ y ∈ b.arrived, y.1 ≠ x.2) → t = s))))

/-- At a sound 16-byte place of a scratchpad in canonical form, in domain 0: harm sets EXPECT and PEND, the inbound
and outbound counts, clears OVR and arms; hexp adds to the counts of an armed Hurdle; both give the generation; harr
takes one from PEND, and at a Hurdle that is not armed or expects none sets OVR, changes nothing else of the Hurdle
and raises BAROVR; outside the 16 bytes the scratchpads stay. While an ME.MMA of e4 has yet to read its operands and
the A-stream has popped what its C-stream pushed after it, the three wait like a store, the model's reading of R310
(log 39). CheckPhase: an armed Hurdle whose three counts are 0 goes to its next generation, expects as many again and
stays armed if that is not 0. hwait goes on when the generation is not the one it was given, or when the Hurdle
released it while it waited, and waits otherwise. hwait acquires when it goes on (log 78). After R37, R151 to R153,
R152, R153. -/
def Obligations.Hurdles : Prop :=
  (
  ∀ (s s1 s2 : State) (site slot : Nat) (c : Ctx) (d a b : Spec) (va vb : Word), s.src .A a = .ok (va, s1) →
    s1.src .A b = .ok (vb, s2) → s2.here = .ok (site, slot, c) → c.task.msg.dom = 0 →
    let goal := clusterSite site (locTile va)
    let off := locOff va
    let h := s2.hurdleAt goal off
    let put (g o : Nat) (x : Hurdle) : State :=
      let w := s2.spadWrite g o (leBytes 16 x.check.1.bits.toNat)
      if x.check.2 then w.releaseHurdle g o else w
    (∀ g o x, (s2.tile g).spad.wf = true → (put g o x).hurdleAt g o = x.check.1 ∧
      (∀ k, k < o ∨ o + 16 ≤ k → ((put g o x).tile g).spad.read k = (s2.tile g).spad.read k) ∧
      (∀ k, k ≠ g → ((put g o x).tile k).spad = (s2.tile k).spad)) ∧
    (s2.localOk site va 16 → va.toNat % 16 = 0 → s2.heldBack = true →
      (s.issue (.harm d a b) = .ok () → exec (.harm d a b) s = .next (s.block (.harm d a b) .scoreboard)) ∧
      (s.issue (.hexp d a b) = .ok () → exec (.hexp d a b) s = .next (s.block (.hexp d a b) .scoreboard))) ∧
    (s2.localOk site va 16 → va.toNat % 16 = 0 → s2.heldBack = false → (s2.tile goal).sound →
      (s2.tile goal).spad.wf = true →
      (s.issue (.harm d a b) = .ok () →
        let x : Hurdle := { h with
          expect := fld vb 0 24, pend := fld vb 0 24, inb := (fld vb 24 20).setWidth 32
          outb := (fld vb 44 20).setWidth 32, ovr := false, armed := true }
        ∀ u, (put goal off x).dst .A d (h.gen.setWidth 64) = .ok u →
          exec (.harm d a b) s = .next (u.retire .A)) ∧
      (s.issue (.hexp d a b) = .ok () → h.armed = true →
        h.inb.toNat + vb.toNat % 2 ^ 32 < 2 ^ 32 → h.outb.toNat + vb.toNat / 2 ^ 32 < 2 ^ 32 →
        ∀ u, (put goal off { h with inb := h.inb + fld vb 0 32, outb := h.outb + fld vb 32 32 }).dst .A d
            (h.gen.setWidth 64) = .ok u → exec (.hexp d a b) s = .next (u.retire .A))) ∧
    (∀ g, s.issue (.harr a b) = .ok () → s2.siteOfName (siteField site) c.task.msg.launch (va.setWidth 16) = some g →
      vb.toNat % 16 = 0 → vb.toNat + 16 ≤ spadSize (s2.tile g).l1sz →
      (s2.heldBack = true → exec (.harr a b) s = .next (s.block (.harr a b) .scoreboard)) ∧
      (s2.heldBack = false → (s2.tile g).sound → (s2.tile g).spad.wf = true →
      let x := s2.hurdleAt g vb.toNat
      (x.armed = true → x.pend ≠ 0 →
        exec (.harr a b) s = .next ((put g vb.toNat { x with pend := x.pend - 1 }).retire .A)) ∧
      (x.armed = false ∨ x.pend = 0 → exec (.harr a b) s =
        .next ((s2.spadWrite g vb.toNat (leBytes 16 ({ x with ovr := true } : Hurdle).bits.toNat)).raise .A
          { code := .barovr, addr := vb }))))) ∧
  (
  (∀ h : Hurdle, h.check =
    if h.armed = true ∧ h.pend = 0 ∧ h.inb = 0 ∧ h.outb = 0
    then ({ h with gen := h.gen + 1, pend := h.expect, armed := decide (h.expect ≠ 0) }, true) else (h, false)) ∧
  (∀ h : Hurdle, Hurdle.ofBits h.bits = h) ∧
  (∀ (s s1 s2 : State) (site slot : Nat) (c : Ctx) (a b : Spec) (va seen : Word), s.issue (.hwait a b) = .ok () →
    s.src .A a = .ok (va, s1) → s1.src .A b = .ok (seen, s2) → s2.here = .ok (site, slot, c) → c.task.msg.dom = 0 →
    s2.localOk site va 16 → va.toNat % 16 = 0 →
    let goal := clusterSite site (locTile va)
    (c.aWait = none → (s2.tile goal).sound →
      ((s2.hurdleAt goal (locOff va)).gen ≠ fld seen 0 4 → exec (.hwait a b) s = .next ((s2.acquired site).retire .A)) ∧
      ((s2.hurdleAt goal (locOff va)).gen = fld seen 0 4 →
        exec (.hwait a b) s = .next (s.block (.hwait a b) (.hurdle goal (locOff va) false)))) ∧
    (∀ w x y, c.aWait = some w → w.kind = .hurdle x y true → exec (.hwait a b) s = .next ((s2.acquired site).retire .A))))

/-! ## Vectors -/

/-- For a context without bit errors: a register gives the elements of its first bytes, lowest first, and stays; a
queue gives its oldest entry, which leaves it, or raises SHAPE when its shape or element size is another; a result
goes to a register's first bytes, the bytes beyond keeping their values, or to the tail of a queue with its shape and
type. After R156, R158, R385. -/
def Obligations.VectorOperands : Prop :=
  ∀ (s : State) (site slot : Nat) (c : Ctx) (v : VSpec) (t : Rect) (es : List Nat), s.ctx? site slot = some c →
    c.marks = [] → t.fits →
    let elem (x : VReg) (k : Nat) : Nat := x.toNat / 2 ^ (8 * t.ty.size * k) % 2 ^ (8 * t.ty.size)
    (v.toNat < 28 → s.vsrc site slot v t = .ok ((List.range (t.rows * t.cols)).map (elem (vget 0 c.v v.toNat)), s)) ∧
    (∀ e r, 28 ≤ v.toNat → v.toNat < 30 → vget [] c.vq (v.toNat - 28) = e :: r →
      (e.rows = t.rows → e.cols = t.cols → e.ty.size = t.ty.size →
        ∃ u, s.vsrc site slot v t = .ok ((List.range (t.rows * t.cols)).map (elem e.data), u) ∧ s.keeps u site slot ∧
          u.ctx? site slot = some (c.setV (v.toNat - 28) r)) ∧
      (e.rows ≠ t.rows ∨ e.cols ≠ t.cols ∨ e.ty.size ≠ t.ty.size →
        s.vsrc site slot v t = .error (.trap { code := .shape }))) ∧
    (v.toNat < 28 → es.length = t.rows * t.cols → (∀ e ∈ es, e < 2 ^ (8 * t.ty.size)) →
      ∃ u w, s.vdst site slot v t es = .ok u ∧ s.keeps u site slot ∧
        u.ctx? site slot = some { c with v := vput c.v v.toNat w } ∧
        (∀ k, k < es.length → elem w k = es[k]!) ∧
        (∀ j, 8 * t.rows * t.cols * t.ty.size ≤ j → w.getLsbD j = (vget 0 c.v v.toNat).getLsbD j)) ∧
    (30 ≤ v.toNat → es.length = t.rows * t.cols → (∀ e ∈ es, e < 2 ^ (8 * t.ty.size)) →
      ∃ u w, s.vdst site slot v t es = .ok u ∧ s.keeps u site slot ∧
        u.ctx? site slot = some (c.pushV (v.toNat - 28) ⟨t.rows, t.cols, t.ty, w, (s.tile site).seq⟩) ∧
        (∀ k, k < es.length → elem w k = es[k]!))

/-- Integer types: wrapping and saturating sums and differences, products, multiply-add, the upper half of a product,
shifts whose count may exceed the width, minima and maxima, absolute value and negation, comparisons that give masks,
selection by a mask, and the forms with a scalar. Every type: logic, moves, broadcast and splat. Accumulating forms:
vtacc adds an element times the sign of a weight, vdot4 adds four products, both wrapping at 32 bits. vsplat takes its
constant as a BF16 pattern for a float type and converts it by the modes. After R165 to R169, R177, R178, R185, R186,
R72, R164, R165. -/
def Obligations.VectorIntegersAndLogic : Prop :=
  (
  ∀ (d a b : VSpec) (sc : Spec) (t : VType) (k : VCond), t.isInt = true →
    let n := t.toInt
    let low (v : Word) : Int := n (v.toNat % 2 ^ t.width)
    Vec2 (.vadd d a b t) d a b t t t (fun _ x y => intEl t (n x + n y)) ∧
    Vec2 (.vsub d a b t) d a b t t t (fun _ x y => intEl t (n x - n y)) ∧
    Vec2 (.vmul d a b t) d a b t t t (fun _ x y => intEl t (n x * n y)) ∧
    Vec3 (.vmla d a b t) d a b t t (fun _ x y z => intEl t (n x * n y + n z)) ∧
    Vec2 (.vmin d a b t) d a b t t t (fun _ x y => { p := if n x < n y then x else y }) ∧
    Vec2 (.vmax d a b t) d a b t t t (fun _ x y => { p := if n x < n y then y else x }) ∧
    Vec1 (.vabs d a t) d a t t (fun _ x => intEl t |n x|) ∧
    Vec1 (.vneg d a t) d a t t (fun _ x => intEl t (-n x)) ∧
    Vec2 (.vadds d a b t) d a b t t t (fun _ x y => satEl t (n x + n y)) ∧
    Vec2 (.vsubs d a b t) d a b t t t (fun _ x y => satEl t (n x - n y)) ∧
    Vec2 (.vmulh d a b t) d a b t t t (fun _ x y => intEl t (n x * n y / (2 ^ t.width : Nat))) ∧
    Vec2 (.vshl d a b t) d a b t t t (fun _ x y => { p := if t.width ≤ y then 0 else x * 2 ^ y % 2 ^ t.width }) ∧
    Vec2 (.vshr d a b t) d a b t t t (fun _ x y => intEl t (n x / (2 ^ min y t.width : Nat))) ∧
    Vec2 (.vcmp d a b t k) d a b t t (maskType t) (fun _ x y => { p := if (match k with
      | .eq => decide (n x = n y)
      | .ne => decide (n x ≠ n y)
      | .lt => decide (n x < n y)
      | .le => decide (n x ≤ n y)
      | .gt => decide (n y < n x)
      | .ge => decide (n y ≤ n x)
      | .ord => true
      | .unord => false) = true then 2 ^ t.width - 1 else 0 }) ∧
    Vec3 (.vsel d a b t) d a b t t (fun _ x y m => { p := if m = 0 then y else x }) ∧
    VecS (.vaddS d a sc t) d a sc t (fun _ x v => intEl t (n x + low v)) ∧
    VecS (.vsubS d a sc t) d a sc t (fun _ x v => intEl t (n x - low v)) ∧
    VecS (.vmulS d a sc t) d a sc t (fun _ x v => intEl t (n x * low v)) ∧
    VecS (.vminS d a sc t) d a sc t (fun _ x v => { p := if n x < low v then x else v.toNat % 2 ^ t.width }) ∧
    VecS (.vmaxS d a sc t) d a sc t (fun _ x v => { p := if n x < low v then v.toNat % 2 ^ t.width else x }) ∧
    VecS (.vshlS d a sc t) d a sc t (fun _ x v =>
      { p := if t.width ≤ v.toNat then 0 else x * 2 ^ v.toNat % 2 ^ t.width }) ∧
    VecS (.vshrS d a sc t) d a sc t (fun _ x v => intEl t (n x / (2 ^ min v.toNat t.width : Nat))) ∧
    VecRuns (.vmlaS d a sc t) [d] (some sc) (fun r k => [(a, ⟨r, k, t⟩), (d, ⟨r, k, t⟩)]) (fun r k => (d, ⟨r, k, t⟩))
      (fun _ _ => True) (fun v _ _ _ vs =>
        VRes.ofEls (List.zipWith (fun x y => intEl t (n x * low v + n y)) (srcAt vs 0) (srcAt vs 1)))) ∧
  (
  ∀ (d a b : VSpec) (sc : Spec) (t : VType) (imm : BitVec 16),
    Vec2 (.vand d a b t) d a b t t t (fun _ x y => { p := x &&& y }) ∧
    Vec2 (.vor d a b t) d a b t t t (fun _ x y => { p := x ||| y }) ∧
    Vec2 (.vxor d a b t) d a b t t t (fun _ x y => { p := x ^^^ y }) ∧
    Vec1 (.vnot d a t) d a t t (fun _ x => { p := 2 ^ t.width - 1 - x }) ∧
    Vec1 (.vmov d a t) d a t t (fun _ x => { p := x }) ∧
    VecRuns (.vbcast d sc t) [] (some sc) (fun _ _ => []) (fun r k => (d, ⟨r, k, t⟩)) (fun _ _ => True)
      (fun v r k _ _ => { es := List.replicate (r * k) (v.toNat % 2 ^ t.width) }) ∧
    VecRuns (.vsplat d imm t) [] none (fun _ _ => []) (fun r k => (d, ⟨r, k, t⟩)) (fun _ _ => True)
      (fun _ r k md _ => match fmtOf t with
        | none => { es := List.replicate (r * k) (imm.toInt % (2 ^ t.width : Nat)).toNat }
        | some f =>
          let e := f.convert md (Fmt.bf16.unpack imm.toNat)
          { es := List.replicate (r * k) e.1, flags := e.2 }) ∧
    VecRuns (.vtacc d a b t) [d] none (fun r k => [(a, ⟨r, k, t⟩), (b, ⟨r, k, t⟩), (d, ⟨r, k, .i32⟩)])
      (fun r k => (d, ⟨r, k, .i32⟩)) (fun _ _ => True) (fun _ _ _ _ vs =>
        VRes.ofEls (zip3 (fun w x y => intEl .i32 (VType.i32.toInt y + Int.sign (t.toInt w) * t.toInt x))
          (srcAt vs 0) (srcAt vs 1) (srcAt vs 2))) ∧
    VecRuns (.vdot4 d a b t) [d] none (fun r k => [(a, ⟨r, k, t⟩), (b, ⟨r, k, t⟩), (d, ⟨r, k / 4, .i32⟩)])
      (fun r k => (d, ⟨r, k / 4, .i32⟩)) (fun _ k => k % 4 = 0) (fun _ r k _ vs =>
        { es := tabulate r (k / 4) (fun x j =>
            let m (u : Nat) : Int := t.toInt (at2 (srcAt vs 0) k x (4 * j + u)) * t.toInt (at2 (srcAt vs 1) k x (4 * j + u))
            (intEl .i32 (VType.i32.toInt (at2 (srcAt vs 2) (k / 4) x j) + (m 0 + m 1 + m 2 + m 3))).p) }))

/-- Sums, differences, products and multiply-add, also with a scalar, are exact values rounded once by the modes;
minima, maxima, also with a scalar, absolute value and negation give the canonical NaN for a NaN; vsel takes a pattern
as it is; the eight comparisons give masks, and those other than equality, inequality, ord and unord raise IV on a
NaN; division, roots, reciprocals, vexf, roundings to integral, exponent and mantissa forms and vinse are element
functions of the model applied to each element. Conversions: integer to integer wraps or saturates, integer to float
rounds, float to integer rounds by RM and clamps, float to float rounds once, and a conversion to the same float type
only makes NaNs canonical; with .amax AMAX keeps the largest magnitude and notes a NaN. Of those functions: a quotient
and a square root that the format represents are exact; the special values of division, root, reciprocals and vexf are
those of their tables; vexf of 1, -1 and of zero and subnormal values is 2, 0.5 and 1; every entry of the exponential,
reciprocal and reciprocal-root tables is the nearest integer to what its rule gives. After R165, R168 to R170, R173 to
R175, R177, R45, R64 to R67, R51 to R53, R171, R62, R63, R170. -/
def Obligations.VectorFloatsAndConversions : Prop :=
  (
  ∀ (d a b : VSpec) (sc : Spec) (t : VType) (f : Fmt), fmtOf t = some f →
    let u := f.unpack
    let low (v : Word) : FVal := u (v.toNat % 2 ^ t.width)
    let el (md : Modes) (e : Ex) : El := ⟨(f.roundEx md e).1, (f.roundEx md e).2, false⟩
    let one (g : Modes → Nat → Nat × Flags) (md : Modes) (x : Nat) : El := ⟨(g md x).1, (g md x).2, false⟩
    let mask (b : Bool) (x y : Nat) (quiet : Bool) : El :=
      ⟨if b then 2 ^ t.width - 1 else 0, if !quiet && (f.isNaN x || f.isNaN y) then 16 else 0, false⟩
    Vec2 (.vadd d a b t) d a b t t t (fun md x y => el md (FVal.add md.rm (u x) (u y))) ∧
    Vec2 (.vsub d a b t) d a b t t t (fun md x y => el md (FVal.add md.rm (u x) (u y).neg)) ∧
    Vec2 (.vmul d a b t) d a b t t t (fun md x y => el md (FVal.mul (u x) (u y))) ∧
    Vec3 (.vmla d a b t) d a b t t (fun md x y z => el md (FVal.fma md.rm (u x) (u y) (u z))) ∧
    Vec2 (.vmin d a b t) d a b t t t (fun _ x y => { p := f.min x y }) ∧
    Vec2 (.vmax d a b t) d a b t t t (fun _ x y => { p := f.max x y }) ∧
    Vec1 (.vabs d a t) d a t t (fun _ x => { p := if f.isNaN x then f.nan else x % f.signBit true }) ∧
    Vec1 (.vneg d a t) d a t t (fun _ x => { p := if f.isNaN x then f.nan else (x + f.signBit true) % 2 ^ t.width }) ∧
    Vec2 (.vcmp d a b t .eq) d a b t t (maskType t) (fun _ x y => mask ((u x).eqv (u y)) x y true) ∧
    Vec2 (.vcmp d a b t .ne) d a b t t (maskType t) (fun _ x y => mask (!(u x).eqv (u y)) x y true) ∧
    Vec2 (.vcmp d a b t .lt) d a b t t (maskType t) (fun _ x y => mask ((u x).lt (u y)) x y false) ∧
    Vec2 (.vcmp d a b t .le) d a b t t (maskType t)
      (fun _ x y => mask ((u x).lt (u y) || (u x).eqv (u y)) x y false) ∧
    Vec2 (.vcmp d a b t .gt) d a b t t (maskType t) (fun _ x y => mask ((u y).lt (u x)) x y false) ∧
    Vec2 (.vcmp d a b t .ge) d a b t t (maskType t)
      (fun _ x y => mask ((u y).lt (u x) || (u x).eqv (u y)) x y false) ∧
    Vec2 (.vcmp d a b t .ord) d a b t t (maskType t) (fun _ x y => mask (!(f.isNaN x || f.isNaN y)) x y true) ∧
    Vec3 (.vsel d a b t) d a b t t (fun _ x y m => { p := if m = 0 then y else x }) ∧
    VecS (.vminS d a sc t) d a sc t (fun _ x v => { p := f.min x (v.toNat % 2 ^ t.width) }) ∧
    VecS (.vmaxS d a sc t) d a sc t (fun _ x v => { p := f.max x (v.toNat % 2 ^ t.width) }) ∧
    VecRuns (.vmlaS d a sc t) [d] (some sc) (fun r k => [(a, ⟨r, k, t⟩), (d, ⟨r, k, t⟩)]) (fun r k => (d, ⟨r, k, t⟩))
      (fun _ _ => True) (fun v _ _ md vs => VRes.ofEls (List.zipWith
        (fun x y => el md (FVal.fma md.rm (u x) (low v) (u y))) (srcAt vs 0) (srcAt vs 1))) ∧
    Vec2 (.vcmp d a b t .unord) d a b t t (maskType t) (fun _ x y => mask (f.isNaN x || f.isNaN y) x y true) ∧
    VecS (.vaddS d a sc t) d a sc t (fun md x v => el md (FVal.add md.rm (u x) (low v))) ∧
    VecS (.vsubS d a sc t) d a sc t (fun md x v => el md (FVal.add md.rm (u x) (low v).neg)) ∧
    VecS (.vmulS d a sc t) d a sc t (fun md x v => el md (FVal.mul (u x) (low v))) ∧
    Vec2 (.vdiv d a b t) d a b t t t (fun md x y => ⟨(f.div md (u x) (u y)).1, (f.div md (u x) (u y)).2, false⟩) ∧
    Vec1 (.vsqrt d a t) d a t t (one (fun md x => f.sqrt md (u x))) ∧
    Vec1 (.vrcp d a t) d a t t (one (vrcpEl f)) ∧ Vec1 (.vrsq d a t) d a t t (one (vrsqEl f)) ∧
    Vec1 (.vexf d a t) d a t t (one (fun _ => vexfEl)) ∧
    Vec1 (.vrint d a t) d a t t (one (fun md => integral md.rm true f)) ∧
    Vec1 (.vfloor d a t) d a t t (one (fun _ => integral .rd false f)) ∧
    Vec1 (.vceil d a t) d a t t (one (fun _ => integral .ru false f)) ∧
    Vec1 (.vtrunc d a t) d a t t (one (fun _ => integral .rz false f)) ∧
    Vec1 (.vrne d a t) d a t t (one (fun _ => integral .rne false f)) ∧
    Vec1 (.vgetexp d a t) d a t .i32 (one (fun _ => getexpEl f)) ∧
    Vec1 (.vgetman d a t) d a t t (one (fun _ => getmanEl f)) ∧
    Vec2 (.vinse d a b t) d a b t .i32 t (fun md x e => ⟨(vinseEl md x e).1, (vinseEl md x e).2, false⟩)) ∧
  (
  (∀ (d a : VSpec) (src dst : VType) (sat am : Bool),
    VecRuns (.vcvt d a src sat am dst) [] none (fun r k => [(a, ⟨r, k, src⟩)]) (fun r k => (d, ⟨r, k, dst⟩))
      (fun _ _ => True) (fun _ _ _ md vs =>
        let r := VRes.ofEls ((srcAt vs 0).map (fun x => match fmtOf src, fmtOf dst with
          | none, none => if sat then satEl dst (src.toInt x) else intEl dst (src.toInt x)
          | none, some g => ⟨(g.ofInt md (src.toInt x)).1, (g.ofInt md (src.toInt x)).2, false⟩
          | some f, none => ⟨(intEl dst (toInt md.rm dst.lo dst.hi (f.unpack x)).1).p,
              (toInt md.rm dst.lo dst.hi (f.unpack x)).2, false⟩
          | some f, some g => if src = dst then { p := if f.isNaN x then f.nan else x }
              else ⟨(g.convert md (f.unpack x)).1, (g.convert md (f.unpack x)).2, false⟩))
        { r with amax := fun w => match fmtOf src with
            | some f => if am then (srcAt vs 0).foldl (amaxStep f) w else w
            | none => w })) ∧
  (∀ (f : Fmt) (w : Word) (x : Nat), w.toNat < 2 ^ 33 →
    (magOf f x = none → (amaxStep f w x).toNat = w.toNat % 2 ^ 32 + 2 ^ 32) ∧
    (∀ m, magOf f x = some m → m < 2 ^ 32 →
      (amaxStep f w x).toNat = w.toNat / 2 ^ 32 * 2 ^ 32 + max (w.toNat % 2 ^ 32) m))) ∧
  (
  (∀ (f : Fmt) (md : Modes) (p : Nat), p < 2 ^ f.bits → f.isNaN p = false →
    (md.fz = false ∨ p / 2 ^ f.mbits % 2 ^ f.ebits ≠ 0 ∨ p % 2 ^ f.mbits = 0) →
    (∀ n m e, m ≠ 0 → f.div md (FVal.mul (f.unpack p) (.fin n m e)).1 (.fin n m e) = (p, 0)) ∧
    (p < f.signBit true → f.sqrt md (FVal.mul (f.unpack p) (f.unpack p)).1 = (p, 0))) ∧
  (∀ (f : Fmt) (md : Modes) (v : FVal) (n u : Bool) (m : Nat) (e e' : Int), m ≠ 0 →
    f.div md .nan v = (f.nan, 0) ∧ f.div md v .nan = (f.nan, 0) ∧ f.div md (.inf n) (.inf u) = (f.nan, flagIV) ∧
    f.div md (.fin n 0 e) (.fin u 0 e') = (f.nan, flagIV) ∧
    f.div md (.fin n m e) (.fin u 0 e') = (f.exactInf md.sat8 (n != u), flagDZ) ∧
    f.div md (.inf n) (.fin u m e) = (f.exactInf md.sat8 (n != u), 0) ∧
    f.div md (.fin n m e) (.inf u) = (f.signBit (n != u), 0) ∧
    f.sqrt md .nan = (f.nan, 0) ∧ f.sqrt md (.fin n 0 e) = (f.signBit n, 0) ∧ f.sqrt md (.fin true m e) = (f.nan, flagIV) ∧
    f.sqrt md (.inf true) = (f.nan, flagIV) ∧ f.sqrt md (.inf false) = (f.exactInf md.sat8 false, 0)) ∧
  (∀ n : Bool, Fmt.e4m3.exactInf false n = 0x7F ∧ Fmt.e4m3.exactInf true n = Fmt.e4m3.signBit n + 0x7E ∧
    (∀ (f : Fmt) (sat : Bool), f ≠ .e4m3 → f.exactInf sat n = f.signBit n + f.infPat)) ∧
  (∀ (f : Fmt) (md : Modes) (p : Nat),
    (f.unpack p = .nan → vrcpEl f md p = (f.nan, 0) ∧ vrsqEl f md p = (f.nan, 0)) ∧
    (∀ n, f.unpack p = .inf n → vrcpEl f md p = (f.signBit n, 0) ∧
      vrsqEl f md p = if n then (f.nan, flagIV) else (0, 0)) ∧
    (∀ n e, f.unpack p = .fin n 0 e → vrcpEl f md p = (f.exactInf false n, flagDZ) ∧
      vrsqEl f md p = (f.exactInf false n, flagDZ)) ∧
    (∀ m e, m ≠ 0 → f.unpack p = .fin true m e → vrsqEl f md p = (f.nan, flagIV))) ∧
  (∀ p : Nat, (Fmt.fp32.unpack p = .nan → vexfEl p = (Fmt.fp32.nan, 0)) ∧
    (∀ n, Fmt.fp32.unpack p = .inf n → vexfEl p = (Fmt.fp32.nan, flagIV)) ∧
    (0x3F800000 < p % 2 ^ 31 → p % 2 ^ 31 < 0x7F800000 → vexfEl p = (Fmt.fp32.nan, flagIV)) ∧
    (p % 2 ^ 31 < 0x00800000 → vexfEl p = (0x3F800000, 0))) ∧
  vexfEl 0x3F800000 = (0x40000000, 0) ∧ vexfEl 0xBF800000 = (0x3F000000, 0) ∧
  (∀ i, i < 64 → (2 * expTab i - 1) ^ 64 ≤ 2 ^ (1984 + i) ∧ 2 ^ (1984 + i) < (2 * expTab i + 1) ^ 64) ∧
  (∀ i, i < 4096 → (2 * rcpTab i - 1) * (8193 + 2 * i) ≤ 2 ^ 38 ∧ 2 ^ 38 < (2 * rcpTab i + 1) * (8193 + 2 * i)) ∧
  (∀ i p, i < 4096 → p < 2 → (2 * rsqTab i p - 1) ^ 2 * ((4097 + 2 * (i % 2048)) * 2 ^ p) ≤ 2 ^ 62 ∧
    2 ^ 62 < (2 * rsqTab i p + 1) ^ 2 * ((4097 + 2 * (i % 2048)) * 2 ^ p)))

/-- Reductions give one result a row, a column or for all; an integer sum wraps, an integer maximum and minimum are
the largest and the least element, a float sum is that of the summation function; a float maximum and minimum are the
largest and the least element that is no NaN, -0 below +0, without flags, and the canonical NaN when all are NaN.
Transposition, rotation and permutation of each row by a register of u16 (both modulo the number of columns),
interleaving, and separation of even and odd elements, element by element. vunp3 takes five trits from a byte, zeros
from a byte of 243 or more, which it notes; vunp4 and vunp3i take signed fields of 4 and 3 bits of each row; vpack4
and vpack3 put clamped fields together and note a clamp; a field unpacks to its element or to the end of the range
that the element lies beyond; a trit of a byte below 243 is 0, 1 or -1 for a base-3 digit of 0, 1 or 2. After R179,
R180, R181, R54, R55, R57, R182 to R184. -/
def Obligations.ReductionsAndRearrangements : Prop :=
  (
  (∀ (d a : VSpec) (t : VType) (k : RedDir),
    let shape (r c : Nat) : VSpec × Rect := (d, match k with
      | .rows => ⟨r, 1, t⟩
      | .cols => ⟨1, c, t⟩
      | .all => ⟨1, 1, t⟩)
    let res (op : Nat) (r c : Nat) (md : Modes) (es : List Nat) : VRes := VRes.ofEls (match k with
      | .rows => (List.range r).map (fun j => reduceEls t op md ((List.range c).map (fun x => at2 es c j x)))
      | .cols => (List.range c).map (fun j => reduceEls t op md ((List.range r).map (fun x => at2 es c x j)))
      | .all => [reduceEls t op md es])
    let runs (i : Instr) (op : Nat) : Prop :=
      ∀ (s : State) (site slot : Nat) (m : Stream) (c : Ctx) (es : List Nat) (s1 s2 : State), s.issue i = .ok () →
        s.turn = .tile site slot m → s.ctx? site slot = some c →
        let rows := c.vshape.toNat % 64 + 1
        let cols := c.vshape.toNat / 256 % 256 + 1
        (⟨rows, cols, t⟩ : Rect).fits → s.vsrcs site slot [(a, ⟨rows, cols, t⟩)] = .ok ([es], s1) →
        es.length = rows * cols → s1.vdst site slot d (shape rows cols).2 (res op rows cols c.modes es).es = .ok s2 →
        exec i s = .next (((s2.modCtx site slot (·.stickRes (res op rows cols c.modes es))).holdVector site slot c
          (Nat.max (shape rows cols).2.bytes (rows * cols * t.size))).retire .C)
    runs (.vredsum d a t k) 0 ∧ runs (.vredmax d a t k) 1 ∧ runs (.vredmin d a t k) 2) ∧
  (∀ (t : VType) (md : Modes) (es : List Nat), t.isInt = true → es ≠ [] → (∀ e ∈ es, e < 2 ^ t.width) →
    reduceEls t 0 md es = intEl t (es.map t.toInt).sum ∧
    ((reduceEls t 1 md es).p ∈ es ∧ ∀ e ∈ es, t.toInt e ≤ t.toInt (reduceEls t 1 md es).p) ∧
    ((reduceEls t 2 md es).p ∈ es ∧ ∀ e ∈ es, t.toInt (reduceEls t 2 md es).p ≤ t.toInt e)) ∧
  (∀ (t : VType) (f : Fmt) (md : Modes) (es : List Nat), fmtOf t = some f → es ≠ [] → (∀ e ∈ es, e < 2 ^ f.bits) →
    let rank (p : Nat) : Int := if p < 2 ^ (f.bits - 1) then (p : Int) else 2 ^ (f.bits - 1) - 1 - (p : Int)
    let hi := reduceEls t 1 md es
    let lo := reduceEls t 2 md es
    reduceEls t 0 md es = sumEl f md es ∧ hi.flags = 0 ∧ lo.flags = 0 ∧ hi.sat = false ∧ lo.sat = false ∧
    ((∀ e ∈ es, f.isNaN e = true) → hi.p = f.nan ∧ lo.p = f.nan) ∧
    ((∃ e ∈ es, f.isNaN e = false) → hi.p ∈ es ∧ f.isNaN hi.p = false ∧ lo.p ∈ es ∧ f.isNaN lo.p = false ∧
      ∀ e ∈ es, f.isNaN e = false → rank lo.p ≤ rank e ∧ rank e ≤ rank hi.p))) ∧
  (
  (∀ (d a b : VSpec) (t : VType),
    VecRuns (.vtrans d a t) [] none (fun r k => [(a, ⟨r, k, t⟩)]) (fun r k => (d, ⟨k, r, t⟩)) (fun _ k => k ≤ 64)
      (fun _ r k _ vs => { es := tabulate k r (fun x y => at2 (srcAt vs 0) k y x) }) ∧
    VecRuns (.vrot d a b t) [b] none (fun r k => [(a, ⟨r, k, t⟩), (b, ⟨r, 1, .u16⟩)]) (fun r k => (d, ⟨r, k, t⟩))
      (fun _ _ => True) (fun _ r k _ vs =>
        { es := tabulate r k (fun x y => at2 (srcAt vs 0) k x ((y + at2 (srcAt vs 1) 1 x 0) % k)) }) ∧
    VecRuns (.vperm d a b t) [b] none (fun r k => [(a, ⟨r, k, t⟩), (b, ⟨r, k, .u16⟩)]) (fun r k => (d, ⟨r, k, t⟩))
      (fun _ _ => True) (fun _ r k _ vs =>
        { es := tabulate r k (fun x y => at2 (srcAt vs 0) k x (at2 (srcAt vs 1) k x y % k)) }) ∧
    VecRuns (.vzip d a b t) [] none (fun r k => [(a, ⟨r, k, t⟩), (b, ⟨r, k, t⟩)]) (fun r k => (d, ⟨r, 2 * k, t⟩))
      (fun _ k => 2 * k ≤ 256) (fun _ r k _ vs =>
        { es := tabulate r (2 * k) (fun x y => at2 (srcAt vs (y % 2)) k x (y / 2)) }) ∧
    VecRuns (.vunzip d a t) [] none (fun r k => [(a, ⟨r, k, t⟩)]) (fun r k => (d, ⟨r, k, t⟩)) (fun _ k => k % 2 = 0)
      (fun _ r k _ vs => { es := tabulate r k (fun x y =>
        at2 (srcAt vs 0) k x (if y < k / 2 then 2 * y else 2 * (y - k / 2) + 1)) })) ∧
  (∀ (rows cols r c : Nat) (g : Nat → Nat → Nat), r < rows → c < cols →
    (tabulate rows cols g).length = rows * cols ∧ at2 (tabulate rows cols g) cols r c = g r c)) ∧
  (
  (∀ d a : VSpec,
    VecRuns (.vunp3 d a) [] none (fun r k => [(a, ⟨r, k / 5, .u8⟩)]) (fun r k => (d, ⟨r, k, .i8⟩)) (fun _ k => k % 5 = 0)
      (fun _ r k _ vs =>
        { es := tabulate r k (fun x y =>
            (intEl .i8 (tritWeight (at2 (srcAt vs 0) (k / 5) x (y / 5)) (y % 5))).p),
          tern := (srcAt vs 0).any (fun b => decide (243 ≤ b)) }) ∧
    VecRuns (.vunp4 d a) [] none (fun r k => [(a, ⟨r, k * 4 / 8, .u8⟩)]) (fun r k => (d, ⟨r, k, .i8⟩))
      (fun _ k => k % 2 = 0) (fun _ r k _ vs => { es := tabulate r k (fun x y =>
        (intEl .i8 (signedOf 4 (rowBits (rowOf (srcAt vs 0) (k * 4 / 8) x) (4 * y) 4))).p) }) ∧
    VecRuns (.vunp3i d a) [] none (fun r k => [(a, ⟨r, k * 3 / 8, .u8⟩)]) (fun r k => (d, ⟨r, k, .i8⟩))
      (fun _ k => k % 16 = 0) (fun _ r k _ vs => { es := tabulate r k (fun x y =>
        (intEl .i8 (signedOf 3 (rowBits (rowOf (srcAt vs 0) (k * 3 / 8) x) (3 * y) 3))).p) }) ∧
    VecRuns (.vpack4 d a) [] none (fun r k => [(a, ⟨r, k, .i8⟩)]) (fun r k => (d, ⟨r, k * 4 / 8, .u8⟩))
      (fun _ k => k % 2 = 0) (fun _ r k _ vs =>
        let zs := (srcAt vs 0).map VType.i8.toInt
        { es := ((List.range r).map (fun x =>
            (leBytes (k * 4 / 8) (packRow 4 ((zs.drop (x * k)).take k))).map (·.toNat))).flatten,
          sat := zs.any (fun z => decide (z < -8 ∨ 7 < z)) }) ∧
    VecRuns (.vpack3 d a) [] none (fun r k => [(a, ⟨r, k, .i8⟩)]) (fun r k => (d, ⟨r, k * 3 / 8, .u8⟩))
      (fun _ k => k % 16 = 0) (fun _ r k _ vs =>
        let zs := (srcAt vs 0).map VType.i8.toInt
        { es := ((List.range r).map (fun x =>
            (leBytes (k * 3 / 8) (packRow 3 ((zs.drop (x * k)).take k))).map (·.toNat))).flatten,
          sat := zs.any (fun z => decide (z < -4 ∨ 3 < z)) })) ∧
  (∀ (w : Nat) (zs : List Int) (y : Nat), 0 < w → y < zs.length →
    signedOf w (packRow w zs / 2 ^ (w * y) % 2 ^ w) =
      max (-((2 ^ (w - 1) : Nat) : Int)) (min (((2 ^ (w - 1) : Nat) : Int) - 1) (zs[y]!))) ∧
  (∀ b i : Nat, i < 5 → (243 ≤ b → tritWeight b i = 0) ∧
    (b < 243 → (b / 3 ^ i % 3 = 0 → tritWeight b i = 0) ∧ (b / 3 ^ i % 3 = 1 → tritWeight b i = 1) ∧
      (b / 3 ^ i % 3 = 2 → tritWeight b i = -1))))

/-- When it has answered a next state in which its task is still in its context: every vector register but its
destination, every scalar register, the accumulators, FPC, VSHAPE, the output ports, the queues and input ports it
does not name, the tile's commands, all of memory and every other context are as before; VSTAT only gains bits, and
AMAX stays but for vcvt. Besides the tile's vector unit is held, for ceil(B / (W x f)) ticks: B is the bytes of the
largest tile, W 512 on a VT and 128 elsewhere, f the issue fraction of the task's available holding over the larger of
its class's need and the tile's draw, at least 2/8. After R162, R299. -/
def Obligations.VectorFrame : Prop :=
  (∀ (s : State) (site slot bytes : Nat) (c : Ctx), s.ctx? site slot = some c → bytes ≠ 0 →
    let vt : Bool := decide (siteClass site = .vt)
    let need := max (([0, 16, 32, 48, 64, 96, 112, 128][c.task.msg.ec.toNat]?).getD 0) (if vt then 64 else 32)
    let f := max 2 (min 8 (8 * (c.tok.held - c.tok.notice) / need))
    let w := if vt then 512 else 128
    ∃ n, ((s.holdVector site slot c bytes).tile site).vecHold = n ∧
      (s.holdVector site slot c bytes).ctx? site slot = some { c with vecBusy := n } ∧
      8 * bytes ≤ n * (w * f) ∧ n * (w * f) < 8 * bytes + w * f) ∧
  (∀ (i : Instr) (s t : State) (site slot : Nat) (n : Stream) (c d : Ctx), i.isVector = true →
    s.turn = .tile site slot n → s.ctx? site slot = some c → exec i s = .next t → t.ctx? site slot = some d →
    s.keeps (t.modTile site (fun x => { x with vecHold := (s.tile site).vecHold })) site slot ∧
    (t.tile site).cmds = (s.tile site).cmds ∧
    { d with v := c.v, vq := c.vq, q := c.q, inp := c.inp, vstat := c.vstat, amax := c.amax, vecBusy := c.vecBusy, front := c.front,
             frame := c.frame, cWait := c.cWait, marks := c.marks } = c ∧
    (∀ v : VSpec, v.toNat < 28 → v ∉ i.vdest → vget 0 d.v v.toNat = vget 0 c.v v.toNat) ∧
    (∀ k, k < 4 → BitVec.ofNat 5 (28 + k) ∉ i.uses.vsrc → BitVec.ofNat 5 (28 + k) ∉ i.uses.vdst →
      vget [] d.vq k = vget [] c.vq k) ∧
    (∀ k, k < 8 → BitVec.ofNat 6 (48 + k) ∉ i.uses.src → vget [] d.q k = vget [] c.q k) ∧
    (∀ k, k < 4 → BitVec.ofNat 6 (57 + 2 * k) ∉ i.uses.src → vget [] d.inp k = vget [] c.inp k) ∧
    (∃ b, d.vstat = c.vstat ||| b) ∧ ((∀ x y z u w k, i ≠ .vcvt x y z u w k) → d.amax = c.amax))

/-! ## The matrix array -/

/-- The operands are read in the order configuration, A, B, as R193's pseudocode reads them (log 92 where they name
one queue), the checks give the work, and the work starts on the array; a configuration word with reserved bits or a K
that is not a multiple of 16 up to 4,096 makes mma raise ILLOP with the word in the detail, before the checks of
windows and addresses, the model's choice (log 79). Work that may start runs on the context's banks, its flags go to
VSTAT, the array is held for the item's ticks at the context's issue fraction, and no byte of memory and no other
context changes (a read of another tile's scratchpad stays noted there for 64 ticks, log 78); a held array and a
fraction of 0 make the stream wait; the ticks are the least number that covers T at the fraction. That operands are
read and results written when the item starts is the model's reading (log 39), as are the order of reading P in
attn.pv and where V starts in a TERN5 attn.step (logs 81 and 82). After R187, R193, R197 to R204, R85, R190 to R192,
R189. -/
def Obligations.MatrixWork : Prop :=
  (
  ∀ (k : BitVec 3) (a b c : Spec),
    let runs (i : Instr) (f : State → Nat → Ctx → Word → Word → Word → Try MatWork) : Prop :=
      ∀ (s s1 s2 s3 t : State) (va vb cfg : Word) (site slot : Nat) (x : Ctx) (w : MatWork), s.issue i = .ok () →
        s.src .C c = .ok (cfg, s1) → s1.src .C a = .ok (va, s2) → s2.src .C b = .ok (vb, s3) →
        s3.here = .ok (site, slot, x) → f s3 site x va vb cfg = .ok w → s3.runItem site slot w = .ok t →
        exec i s = .next (t.retire .C)
    let mat (op : MatOp) (z : Bool) (s : State) (site : Nat) (x : Ctx) (va vb cfg : Word) : Try MatWork :=
      s.matWork site op z k.toNat va vb cfg x.modes.fz
    let bare (i : Instr) (f : Word → Modes → Try MatWork) : Prop :=
      ∀ (s s1 t : State) (cfg : Word) (site slot : Nat) (x : Ctx) (w : MatWork), s.issue i = .ok () →
        s.src .C c = .ok (cfg, s1) → s1.here = .ok (site, slot, x) → f cfg x.modes = .ok w → s1.runItem site slot w = .ok t → exec i s = .next (t.retire .C)
    runs (.mma k a b c) (mat .mma false) ∧ runs (.mmaZ k a b c) (mat .mma true) ∧
    runs (.mmaT k a b c) (mat .mmaT false) ∧ runs (.mmaTz k a b c) (mat .mmaT true) ∧
    runs (.smma k a b c) (mat .smma false) ∧ runs (.smmaZ k a b c) (mat .smma true) ∧
    runs (.smmaB k a b c) (mat .smmaB false) ∧
    runs (.attnQk k a b c) (fun s site x va vb cfg => s.qkWork site k.toNat va vb cfg x.modes) ∧
    runs (.attnStep k a b c) (fun s site x va vb cfg => s.stepWork site k.toNat va vb cfg x.modes) ∧
    bare (.attnSm k c) (smWork k.toNat) ∧ bare (.attnFin k c) (finWork k.toNat) ∧
    (∀ (s s1 s2 t : State) (va cfg : Word) (site slot : Nat) (x : Ctx) (w : MatWork), s.issue (.attnPv k a c) = .ok () →
      s.src .C c = .ok (cfg, s1) → s1.src .C a = .ok (va, s2) → s2.here = .ok (site, slot, x) →
      s2.pvWork site k.toNat va cfg x.modes = .ok w → s2.runItem site slot w = .ok t →
      exec (.attnPv k a c) s = .next (t.retire .C)) ∧
    (∀ (s s1 s2 s3 : State) (va vb cfg : Word) (site slot : Nat) (x : Ctx), s.issue (.mma k a b c) = .ok () →
      s.src .C c = .ok (cfg, s1) → s1.src .C a = .ok (va, s2) → s2.src .C b = .ok (vb, s3) →
      s3.here = .ok (site, slot, x) →
      cfg.toNat / 2 ^ 40 ≠ 0 ∨ cfg.toNat / 2 ^ 20 % 4 = 3 ∨ cfg.toNat % 2 ^ 16 = 0 ∨ cfg.toNat % 16 ≠ 0 ∨
        4096 < cfg.toNat % 2 ^ 16 →
      exec (.mma k a b c) s = .next (s.raise .C { code := .illop, detail := cfg }))) ∧
  (
  ∀ (s : State) (site slot : Nat) (c : Ctx) (w : MatWork), s.ctx? site slot = some c →
    ((s.tile site).array.isSome = true → s.runItem site slot w = .error (.wait .array)) ∧
    ((s.tile site).arrayFree slot = true → c.matFraction (siteClass site) = 0 →
      s.runItem site slot w = .error (.wait .token)) ∧
    ((s.tile site).arrayFree slot = true → c.matFraction (siteClass site) ≠ 0 → c.marks = [] →
      (∀ r ∈ w.ranges, (s.tile r.1).overlaps r.2.1 r.2.2 false = false ∧ (s.tile r.1).sound) →
      ∃ t, s.runItem site slot w = .ok t ∧
        t.ctx? site slot = some (c.putBanks (w.run c.banks).1 (w.run c.banks).2 w.tern) ∧
        (t.tile site).array = some ⟨itemTicks w.ts (c.matFraction (siteClass site)), some slot, none, false, false⟩ ∧
        t.mem = s.mem ∧ (∀ k, (t.tile k).spad = (s.tile k).spad) ∧ (∀ k, k ≠ site → { t.tile k with opReads := (s.tile k).opReads } = s.tile k) ∧
        (∀ k, k ≠ slot → t.ctx? site k = s.ctx? site k)) ∧
    (∀ ts f, 0 < f → f * (32 * itemTicks ts f) ≥ 8 * ts ∧ (0 < ts → f * (32 * (itemTicks ts f - 1)) < 8 * ts)))

/-- A masked element becomes the mask constant, or stays; any other adds one group of 16 products after another in
increasing order, each group's exact scaled sum rounded once to FP32, and the sum with the element rounded again; a
NaN among elements or scales makes the group NaN and raises nothing. The mask takes the elements above or below the
shifted diagonal. The work of a product (mma and its forms): its operands are those located at A and B, and it puts
into the bank the product of their elements in decode order, K-major for mma.t, with their group scales, from the
bank's contents or from zeros; a sparse A gives each logical element from the values whose position it is, and a
position without a value is a +0 product whatever B holds there, a NaN apart, the model's reading (log 98). attn.qk is
the product into a zeroed bank; attn.sm gives each row the powers of two of its scaled elements less the new maximum,
with the new sum and correction, and zeros where there is no maximum; attn.pv corrects each output element and adds P
times V, P being read first (log 81); attn.fin divides by the sums; attn.step is these one after another, with V
behind the keys (log 82). The powers of two give the eight results of R176's table. After R60, R61, R193, R28, R30,
R187, R188, R197, R198, R176, R199 to R204. -/
def Obligations.MatrixProduct : Prop :=
  (
  (∀ (md : Modes) (cfg : Word) (n : Nat) (a sa sb : Nat → Nat → FVal) (b : Nat → Nat → Nat → FVal) (c : Acc)
      (i j : Nat), i < 128 → j < 64 → accEl (product md cfg n a sa b sb c).1 i j =
      if maskedAt cfg i j = true then (maskConst cfg).getD (accEl c i j)
      else (dotInto md n (a i) (fun x => b i x j) (sa i) (sb j) (accEl c i j)).1) ∧
  (∀ (cfg : Word) (i j : Nat),
    (cfgTri cfg = 0 → maskedAt cfg i j = false) ∧
    (cfgTri cfg = 1 → (maskedAt cfg i j = true ↔ (j : Int) > i + cfgDiag cfg)) ∧
    (cfgTri cfg = 2 → (maskedAt cfg i j = true ↔ (j : Int) < i + cfgDiag cfg))) ∧
  (∀ (md : Modes) (a b sa sb : Nat → FVal) (c n : Nat), dotInto md 0 a b sa sb c = (c, 0) ∧
    (n % 16 = 0 → dotInto md (n + 16) a b sa sb c =
      addGroup md (dotInto md n a b sa sb c) (groupSum md ((List.range 16).map (fun x => (a (n + x), b (n + x)))) (sa n)
        (sb n)))) ∧
  (∀ (md : Modes) (ps : List (FVal × FVal)) (sa sb : FVal),
    (sa = .nan ∨ sb = .nan ∨ (∃ p ∈ ps, p.1 = .nan ∨ p.2 = .nan) → groupSum md ps sa sb = (Fmt.fp32.nan, 0)) ∧
    ((∀ p ∈ ps, ∃ u m e v n f, p = (FVal.fin u m e, FVal.fin v n f)) → sa ≠ .nan → sb ≠ .nan →
      groupSum md ps sa sb =
        Fmt.fp32.roundEx md (scaled (exactSum (ps.map (fun p => (p.1.mul p.2).1))) sa sb))) ∧
  (∀ (md : Modes) (c v : Nat × Flags),
    (addGroup md c v).1 = (Fmt.fp32.roundEx md (FVal.add .rne (Fmt.fp32.unpack c.1) (Fmt.fp32.unpack v.1))).1)) ∧
  (
  (∀ (s : State) (site : Nat) (op : MatOp) (z : Bool) (bank : Nat) (a b cfg : Word) (fz : Bool) (w : MatWork),
    s.matWork site op z bank a b cfg fz = .ok w → s.productWork site op z bank a b cfg fz = .ok w ∧
      cfgCheck false cfg = .ok () ∧ (op = .smma → cfgTri cfg = 0)) ∧
  (∀ (s : State) (site : Nat) (op : MatOp) (z : Bool) (bank : Nat) (a b cfg : Word) (fz : Bool) (w : MatWork),
    s.productWork site op z bank a b cfg fz = .ok w →
    let k := cfgK cfg
    let start (x : Banks) : Acc := if z then 0 else x.bank bank
    ∃ oa ob : Opd, w.opds = [oa, ob] ∧ s.operand site false b k k (cfgGB cfg) false (liveCols cfg) 0 = .ok ob ∧
      w.ts = baseTime oa.fmt ob.fmt k * (if op = .smmaB then 2 else 1) * liveCount cfg ∧
      w.tern = s.ternBad site ob ∧
      let vb := s.opdElems site ob (64 * k)
      let sb := ob.scaleAt (s.opdScales site ob 64)
      let sa := oa.scaleAt (s.opdScales site oa 128)
      (op ≠ .smma → s.operand site true a k k (cfgGA cfg) (op == .mmaT) (liveRows cfg) 0 = .ok oa ∧ ∀ x : Banks,
        let va := s.opdElems site oa (128 * k)
        let r := product { fz := fz } cfg k (fun i y => valAt va (if op = .mmaT then y * 128 + i else i * k + y)) sa
          (fun _ y j => valAt vb (j * k + y)) sb (start x)
        w.run x = ({ x with acc := vput x.acc bank r.1 }, r.2)) ∧
      (op = .smma → ∃ (o : Opd) (goal at_ : Nat), s.operand site true a (k / 2) k (cfgGA cfg) false (liveRows cfg) 0 = .ok o ∧
        s.localCheck site (a + BitVec.ofNat 64 (fmtBytes o.fmt (64 * k))) (16 * k) = .ok (goal, at_) ∧
        oa = { o with extra := o.extra ++ [(at_, 16 * k)] } ∧ ∀ x : Banks,
        let va := s.opdElems site oa (64 * k)
        let marks := byteAt (s.opdBytes site oa at_ (16 * k))
        let el (i y : Nat) : Ex := sparseA k (valAt va) marks i y
        let r := product { fz := fz } cfg k (fun i y => (el i y).1) sa (fun i y j =>
          if sparseEmpty k marks i y then holeB (valAt vb (j * k + y)) else valAt vb (j * k + y)) sb (start x)
        (w.run x).1 = { x with acc := vput x.acc bank r.1 } ∧
        ((∃ i y, i < 128 ∧ y < k ∧ (el i y).2 ≠ 0) → (w.run x).2 = r.2 ||| flagIV) ∧
        ((∀ i y, i < 128 → y < k → (el i y).2 = 0) → (w.run x).2 = r.2))) ∧
  (∀ (s : State) (site n e : Nat) (o : Opd), e < n →
    valAt (s.opdElems site o n) e = elemVal o.fmt (fun i => ((s.opdSource site o).read (o.off + i)).toNat) e) ∧
  (∀ (s : State) (site : Nat) (o : Opd), o.target = site ∨ (s.tile o.target).opReads = [] →
    s.opdSource site o = (s.tile o.target).spad) ∧
  (∀ (v0 v1 : FVal) (p0 p1 x : Nat),
    (p0 ≠ x → p1 ≠ x → sparseEl v0 v1 p0 p1 x = (.fin false 0 0, 0)) ∧ (p1 ≠ x → sparseEl v0 v1 x p1 x = (v0, 0)) ∧
    (p0 ≠ x → sparseEl v0 v1 p0 x x = (v1, 0)) ∧
    (v0 = .nan ∨ v1 = .nan → sparseEl v0 v1 x x x = (.nan, 0)) ∧
    (∀ n, sparseEl (.inf n) (.inf !n) x x x = (.nan, flagIV)) ∧
    (v0 ≠ .nan → v1 ≠ .nan → sparseEl v0 v1 x x x = FVal.add .rne v0 v1)) ∧
  (∀ (k i x : Nat) (val : Nat → FVal) (marks : Nat → Nat) (b : FVal), sparseEmpty k marks i x = true → b ≠ .nan →
    FVal.mul (sparseA k val marks i x).1 (holeB b) = (.fin false 0 0, 0))) ∧
  (
  (∀ (s : State) (site bank : Nat) (a b cfg : Word) (md : Modes) (w : MatWork),
    (s.qkWork site bank a b cfg md = .ok w → cfgCheck true cfg = .ok () ∧ bank ≤ 3 ∧ cfgK cfg ≤ 128 ∧
      s.productWork site .mma true bank a b cfg md.fz = .ok w) ∧
    (smWork bank cfg md = .ok w → w.opds = [] ∧ w.ts = 64 * 32 ∧ bank ≤ 3 ∧ cfgTau cfg / 128 % 256 ≠ 255 ∧
      ∀ (x : Banks) (i j : Nat), i < 128 → j < 64 →
        let r := smRow md.mat (cfgTau cfg * 65536) (accRow (x.bank bank) i) (mrow (x.stat bank) i)
        accEl ((w.run x).1.bank bank) i j = (r.1[j]?).getD 0 % 2 ^ 32 ∧
        (mrow ((w.run x).1.stat bank) i).nat = r.2.1.nat % 2 ^ 96 ∧
        (∀ n, n ≠ bank → (w.run x).1.bank n = x.bank n ∧ (w.run x).1.stat n = x.stat n)) ∧
    (s.pvWork site bank a cfg md = .ok w → cfgK cfg = 64 ∧ cfgTri cfg = 0 ∧ cfgPbank cfg ≤ 3 ∧
      s.vWork site bank (cfgPbank cfg) a cfg 0 md = .ok w) ∧
    (finWork bank cfg md = .ok w → w.opds = [] ∧ cfgPbank cfg ≤ 3 ∧ ∀ (x : Banks) (i j : Nat), bank < 8 → i < 128 → j < 64 →
      let sum := (mrow (x.stat (cfgPbank cfg)) i).sum
      accEl ((w.run x).1.bank bank) i j = if sum = 0 then 0
        else (Fmt.fp32.div md.mat (Fmt.fp32.unpack (accEl (x.bank bank) i j)) (Fmt.fp32.unpack sum)).1) ∧
    (s.stepWork site bank a b cfg md = .ok w → (cfgK cfg = 64 ∨ cfgK cfg = 128) ∧ bank + cfgK cfg / 64 ≤ 3 ∧
      let d := cfgK cfg
      let groups (n : Nat) : Nat := 64 * ((n + cfgGB cfg - 1) / cfgGB cfg)
      let place (h : Nat) : Word := b + BitVec.ofNat 64 (fmtBytes (wdFmt ((s.tile site).window (locWin b))) (64 * d) +
        h * fmtBytes (wdFmt ((s.tile site).window (locWin b))) 4096)
      ∃ qk sm v0 : MatWork, s.productWork site .mma true bank a b cfg md.fz = .ok qk ∧ smWork bank cfg md = .ok sm ∧
        s.vWork site (bank + 1) bank (place 0) cfg (groups d) md = .ok v0 ∧
        let run3 (x : Banks) : Banks × Flags :=
          ((v0.run (sm.run (qk.run x).1).1).1,
            (qk.run x).2 ||| (sm.run (qk.run x).1).2 ||| (v0.run (sm.run (qk.run x).1).1).2)
        (d = 64 → (∀ x, w.run x = run3 x) ∧ w.ts = qk.ts + sm.ts + v0.ts) ∧
        (d = 128 → ∃ v1, s.vWork site (bank + 2) bank (place 1) cfg (groups d + groups 64) md = .ok v1 ∧
          (∀ x, w.run x = ((v1.run (run3 x).1).1, (run3 x).2 ||| (v1.run (run3 x).1).2)) ∧
          w.ts = qk.ts + sm.ts + v0.ts + v1.ts))) ∧
  (∀ (s : State) (site o p first : Nat) (a cfg : Word) (md : Modes) (w : MatWork), s.vWork site o p a cfg first md = .ok w →
    o < 8 → ∃ ov, w.opds = [ov] ∧ s.operand site false a 64 64 (cfgGB cfg) false [0, 1, 2, 3] first = .ok ov ∧
      w.ts = 32 * baseTime (pCode ov.fmt) ov.fmt 64 ∧ w.tern = s.ternBad site ov ∧
      ∀ (x : Banks) (i j : Nat), i < 128 → j < 64 → accEl ((w.run x).1.bank o) i j =
        (dotInto md.mat 64
          (fun k => (pFormat ov.fmt).unpack ((pFormat ov.fmt).convert md.mat (Fmt.fp32.unpack (accEl (x.bank p) i k))).1)
          (fun k => valAt (s.opdElems site ov 4096) (j * 64 + k)) (fun _ => .fin false 1 0)
          (ov.scaleAt (s.opdScales site ov 64) j) (mulPat md.mat (accEl (x.bank o) i j) (mrow (x.stat p) i).corr).1).1) ∧
  (∀ (md : Modes) (tau : Nat) (row : List Nat) (m : MRow),
    let r := smRow md tau row m
    let xs := row.map (fun e => (mulPat md e tau).1)
    let sumOf (corr : Nat) (ps : List Nat) : Nat :=
      (sumVals .fp32 md ((FVal.mul (Fmt.fp32.unpack corr) (Fmt.fp32.unpack m.sum)).1 :: ps.map Fmt.fp32.unpack)).p
    r.2.1.max = Fmt.fp32.max m.max (largest xs) ∧ r.2.1.sum = sumOf r.2.1.corr r.1 ∧
    (r.2.1.max = negInf → r.1 = row.map (fun _ => 0) ∧ r.2.1.corr = 0x3F800000) ∧
    (r.2.1.max ≠ negInf → r.1 = xs.map (fun v => (pow2 md (subPat md v r.2.1.max).1).1) ∧
      r.2.1.corr = (pow2 md (subPat md m.max r.2.1.max).1).1)) ∧
  ([0x40A00000, 0xC30C0000, 0xC3150000, 0xC3160000, 0x43000000, 0x7F800000, 0xFF800000, 0x7FC00000].map (pow2 {}) =
    [(0x42000000, 0), (0x00000200, 0), (0x00000001, 0), (0, flagUF ||| flagIX), (0x7F800000, flagOF ||| flagIX),
      (0x7F800000, flagIV), (0, flagIV), (0x7FC00000, flagIV)]))

/-- With the array free: every element of the bank becomes +0; on an AT the bank's mstat rows become MAX minus
infinity, SUM +0 and CORR 1.0, on another tile mstat stays; every other bank and its mstat, and every byte of memory,
stay. After R194. -/
def Obligations.MzeroClearsABank : Prop :=
  ∀ (k : BitVec 3) (s : State) (site slot : Nat) (c : Ctx), s.issue (.mzero k) = .ok () → s.here = .ok (site, slot, c) →
    (s.tile site).arrayFree slot = true → ∃ t d, exec (.mzero k) s = .next t ∧ t.ctx? site slot = some d ∧
      (∀ i j, i < 128 → j < 64 → accEl (vget 0 d.acc k.toNat) i j = 0) ∧
      (∀ n, n ≠ k.toNat → vget 0 d.acc n = vget 0 c.acc n) ∧
      (siteClass site = .at → k.toNat < 4 → ∀ i, i < 128 → mrow (vget 0 d.mstat k.toNat) i = ⟨0xFF800000, 0, 0x3F800000⟩) ∧
      (siteClass site ≠ .at → d.mstat = c.mstat) ∧ (∀ n, n ≠ k.toNat → vget 0 d.mstat n = vget 0 c.mstat n) ∧
      t.mem = s.mem ∧ (∀ n, (t.tile n).spad = (s.tile n).spad)

/-- Element (i, j) lies at the address + i x pitch + j x size. With the array free and the place allowed: mrd encodes
each element by the window's format and the modes and changes no other byte, mwr decodes each element exactly and sets
no flag, through an FP32 window too, which is the model's reading (log 80); both hold the array for 64 ticks; mscl
multiplies each element exactly by the selected row and column scales and rounds once to nearest even (a NaN among
them gives the canonical NaN, log 71), and holds it for 32; the other banks and every mstat stay. The address pops
before the pitch and a, b, selector in this order when they name one queue (log 92). After R195, R196, R423. -/
def Obligations.AccumulatorTransfers : Prop :=
  ∀ (k : BitVec 3) (a b c : Spec) (s s1 s2 : State) (va pw : Word) (site slot : Nat) (x : Ctx),
    s.src .C a = .ok (va, s1) →
    (s1.src .C c = .ok (pw, s2) → s2.here = .ok (site, slot, x) → (s2.tile site).arrayFree slot = true → x.marks = [] →
      ∀ (f : Option Fmt) (pitch goal off : Nat),
      let z := accSize f
      let place (i j : Nat) : Nat := off + i * pitch + z * j
      (∀ i, i < 128 → (s2.tile goal).overlaps (off + i * pitch) (64 * z) true = false) → (s2.tile goal).sound →
      (s.issue (.mrd k a c) = .ok () → s2.heldBack = false → s2.accPlace site true va pw = .ok (f, pitch, goal, off) → 64 * z ≤ pitch →
        (s2.tile goal).spad.wf = true →
        ∃ t, exec (.mrd k a c) s = .next t ∧
          (∀ i j, i < 128 → j < 64 → (t.tile goal).spad.readN (place i j) z = leBytes z (match f with
            | none => accEl (vget 0 x.acc k.toNat) i j
            | some g => (g.convert x.modes (Fmt.fp32.unpack (accEl (vget 0 x.acc k.toNat) i j))).1)) ∧
          (∀ n, (∀ i, i < 128 → n < place i 0 ∨ place i 64 ≤ n) → (t.tile goal).spad.read n = (s2.tile goal).spad.read n) ∧
          (∀ n, n ≠ goal → (t.tile n).spad = (s.tile n).spad) ∧ t.mem = s.mem ∧
          (t.tile site).array = some ⟨64, some slot, none, false, false⟩) ∧
      (s.issue (.mwr k a c) = .ok () → s2.accPlace site false va pw = .ok (f, pitch, goal, off) →
        ∃ t d, exec (.mwr k a c) s = .next t ∧ t.ctx? site slot = some d ∧
          (∀ i j, i < 128 → j < 64 → accEl (vget 0 d.acc k.toNat) i j =
            (let e := leNat ((s2.tile goal).spad.readN (place i j) z)
             match f with
             | none => e
             | some g => (Fmt.fp32.round Modes.ne (g.unpack e)).1)) ∧
          d.vstat = x.vstat ∧ (∀ n, n ≠ k.toNat → vget 0 d.acc n = vget 0 x.acc n) ∧ d.mstat = x.mstat ∧ t.mem = s.mem ∧
          (∀ n, (t.tile n).spad = (s.tile n).spad) ∧ (t.tile site).array = some ⟨64, some slot, none, false, false⟩)) ∧
    (∀ (vb sel : Word) (s3 : State) (ga oa gb ob : Nat), s1.src .C b = .ok (vb, s2) → s2.src .C c = .ok (sel, s3) →
      s3.here = .ok (site, slot, x) → (s3.tile site).arrayFree slot = true → x.marks = [] → sel.toNat < 4 →
      s.issue (.mscl k a b c) = .ok () →
      (sel.getLsbD 0 = true → isLocal va = true ∧ s3.localCheck site va 512 = .ok (ga, oa) ∧
        (s3.tile ga).overlaps oa 512 false = false ∧ (s3.tile ga).sound) →
      (sel.getLsbD 1 = true → isLocal vb = true ∧ s3.localCheck site vb 256 = .ok (gb, ob) ∧
        (s3.tile gb).overlaps ob 256 false = false ∧ (s3.tile gb).sound) →
      let scale (use : Bool) (g o i : Nat) : FVal :=
        if use then Fmt.fp32.unpack (leNat ((s3.tile g).spad.readN (o + 4 * i) 4)) else .fin false 1 0
      ∃ t d, exec (.mscl k a b c) s = .next t ∧ t.ctx? site slot = some d ∧
        (∀ i j, i < 128 → j < 64 → accEl (vget 0 d.acc k.toNat) i j =
          (Fmt.fp32.roundEx { fz := x.modes.fz } (scaled3 (Fmt.fp32.unpack (accEl (vget 0 x.acc k.toNat) i j))
            (scale (sel.getLsbD 0) ga oa i) (scale (sel.getLsbD 1) gb ob j))).1) ∧
        (∀ n, n ≠ k.toNat → vget 0 d.acc n = vget 0 x.acc n) ∧ d.mstat = x.mstat ∧ t.mem = s.mem ∧
        (∀ n, (t.tile n).spad = (s.tile n).spad) ∧ (t.tile site).array = some ⟨32, some slot, none, false, false⟩)

/-- When one of the matrix words but mrd has answered a next state in which its task is still in its context: HBM,
home slices, every scratchpad and tag, and every other context of the tile are as before, and of its own context all
but the bank it names (with the two after it for attn.step), its mstat for the softmax words, attn.qk and mzero,
VSTAT, which only gains bits, the queues it reads, its input ports, bit-error marks and token record, and the stream's
place. -/
def Obligations.MatrixFrame : Prop :=
  ∀ (i : Instr) (k : BitVec 3) (a b x : Spec) (s t : State) (site slot : Nat) (m : Stream) (c d : Ctx),
    let products : List Instr := [.mma k a b x, .mmaZ k a b x, .mmaT k a b x, .mmaTz k a b x, .smma k a b x, .smmaZ k a b x,
      .smmaB k a b x, .mscl k a b x, .mwr k a x, .attnPv k a x, .attnFin k x]
    let soft : List Instr := [.attnSm k x, .attnQk k a b x, .mzero k]
    i ∈ products ∨ i ∈ soft ∨ i = .attnStep k a b x →
    s.turn = .tile site slot m → s.ctx? site slot = some c → exec i s = .next t → t.ctx? site slot = some d →
    t.mem = s.mem ∧ t.l2 = s.l2 ∧ (∀ n, (t.tile n).spad = (s.tile n).spad ∧ (t.tile n).tags = (s.tile n).tags) ∧
    (∀ n, n ≠ slot → t.ctx? site n = s.ctx? site n) ∧
    { d with acc := c.acc, mstat := c.mstat, vstat := c.vstat, q := c.q, inp := c.inp, front := c.front,
             frame := c.frame, cWait := c.cWait, marks := c.marks, tok := c.tok } = c ∧
    (∀ n, n ≠ k.toNat → i ≠ .attnStep k a b x → vget 0 d.acc n = vget 0 c.acc n) ∧
    (∀ n, n < k.toNat ∨ k.toNat + 2 < n → vget 0 d.acc n = vget 0 c.acc n) ∧
    (i ∈ products → d.mstat = c.mstat) ∧ (∀ n, n ≠ k.toNat → vget 0 d.mstat n = vget 0 c.mstat n) ∧
    (∃ u, d.vstat = c.vstat ||| u) ∧
    (∀ n, n < 8 → BitVec.ofNat 6 (48 + n) ∉ i.uses.src → vget [] d.q n = vget [] c.q n)

/-! ## Nets -/

/-- In domain 0, when its checks pass, alink replaces the word at T by L, gives the old word to d and sends the pairs
that the replacement forms; in an ordered domain it is buffered. At the word itself, without a redirection: exactly
that word of the line changes (another line goes to HBM where its set is full, log 12), and a pair is formed when the
first link takes a principal port of a lower line; a header that names no node raises LINKERR with detail 2. That a
link word which names port 7 passes as a word, and which detail a malformed word has, are the model's readings (log
60). A redirection is followed to its target over at most 16 hops, beyond which LINKERR has detail 3; the write lands
where the last leads; a redirection put on a redirection raises detail 4, a link to its own word detail 5. After R144
to R147. -/
def Obligations.AlinkReplacesALink : Prop :=
  (∀ (d a b : Spec) (s s1 s2 s3 : State) (tv l : Word) (site slot : Nat) (c : Ctx), s.issue (.alink d a b) = .ok () →
    s.src .A a = .ok (tv, s1) → s1.src .A b = .ok (l, s2) → s2.here = .ok (site, slot, c) →
    s2.alinkChecks (s2.actor site c) d tv l = .ok s3 →
    (∀ old ps s4 t, c.task.msg.dom = 0 → (s3.dropVA (s2.actor site c) tv).alinkAt (s2.actor site c) tv l
        (c.task.msg.ts + c.task.msg.delta.signExtend 32) = .ok (old, ps, s4) → s4.roomFor ps = true →
      (s4.sendPairs ps).dst .A d old = .ok t → exec (.alink d a b) s = .next (t.retire .A)) ∧
    (c.task.msg.dom ≠ 0 → exec (.alink d a b) s = .next ((s3.buffer site slot (.alink tv l c.pc)).retire .A))) ∧
  (∀ (s s1 : State) (x : Actor) (t l : Word) (ts : BitVec 32) (k : LineKey), s.netLine x .atomic t = .ok (k, s1) →
    let h := s1.slot k 0
    let w := t.toNat / 8 % 8
    let c := s1.slot k w
    (nodeType h = 0 ∨ nodeArity h = 7 ∨ h.getLsbD 48 = true →
      s.alinkAt x t l ts = .error (.trap { code := .linkerr, detail := 2, addr := t })) ∧
    (nodeOk h = true → 1 ≤ w → w ≤ 1 + nodeArity h → linkOk c = true → linkKind c ≠ .redir →
      (linkKind l = .port ∨ linkKind l = .redir → linkTarget l ≠ t) → t.toNat % 8 = 0 →
      let u := (s1.lineWrite k (t.toNat % 64) (wordBytes l)).wroteLine x k
      (¬ (w = 1 ∧ linkKind l = .port ∧ linkPort l = 0 ∧ linkLine l < nodeLine t) → s.alinkAt x t l ts = .ok (c, [], u)) ∧
      (∀ f v, w = 1 → linkKind l = .port → linkPort l = 0 → linkLine l < nodeLine t →
        u.nodeField x (linkLine l) = .ok (f, v) → s.alinkAt x t l ts =
          .ok (c, [(f, { a := linkLine l, b := nodeLine t, ts := ts, dom := x.dom, launch := x.launch })], v)) ∧
      (x.commit = none → k.exists = true → u.slot k w = l ∧
        (s1.mem.wf = true → ∀ j, j < 8 → j ≠ w → u.slot k j = s1.slot k j)))) ∧
  (∀ (s s1 : State) (x : Actor) (t l : Word) (n : Nat) (k : LineKey), s.netLine x .atomic t = .ok (k, s1) →
    nodeOk (s1.slot k 0) = true → 1 ≤ t.toNat / 8 % 8 → t.toNat / 8 % 8 ≤ 1 + nodeArity (s1.slot k 0) →
    linkOk (s1.slot k (t.toNat / 8 % 8)) = true →
    let c := s1.slot k (t.toNat / 8 % 8)
    (linkKind c = .redir → linkKind l ≠ .redir → s.follow x l (n + 1) t = s1.follow x l n (linkTarget c) ∧
      s.follow x l 0 t = .error (.trap { code := .linkerr, detail := 3, addr := t })) ∧
    (linkKind c ≠ .redir ∨ linkKind l = .redir → s.follow x l n t = .ok (t, k, c, s1))) ∧
  (∀ w : Word, (linkTarget w).toNat = 64 * (w.toNat % 2 ^ 51) + 8 * (1 + w.toNat / 2 ^ 58 % 8)) ∧
  (∀ (s : State) (x : Actor) (t l : Word) (ts : BitVec 32) (e : Stop), s.follow x l 16 t = .error e →
    s.alinkAt x t l ts = .error e) ∧
  (∀ (s s1 : State) (x : Actor) (t goal l c : Word) (ts : BitVec 32) (k : LineKey), s.follow x l 16 t = .ok (goal, k, c, s1) →
    (linkKind l = .redir → linkKind c = .redir →
      s.alinkAt x t l ts = .error (.trap { code := .linkerr, detail := 4, addr := goal })) ∧
    (linkKind l = .port ∨ (linkKind l = .redir ∧ linkKind c ≠ .redir) → linkTarget l = goal →
      s.alinkAt x t l ts = .error (.trap { code := .linkerr, detail := 5, addr := goal })) ∧
    ((linkKind l = .redir → linkKind c ≠ .redir) → (linkKind l = .port ∨ linkKind l = .redir → linkTarget l ≠ goal) →
      let u := (s1.lineWrite k (goal.toNat % 64) (wordBytes l)).wroteLine x k
      let forms : Prop := goal.toNat / 8 % 8 = 1 ∧ linkKind l = .port ∧ linkPort l = 0 ∧ linkLine l < nodeLine goal
      (¬ forms → s.alinkAt x t l ts = .ok (c, [], u)) ∧
      (∀ f v, forms → u.nodeField x (linkLine l) = .ok (f, v) → s.alinkAt x t l ts =
        .ok (c, [(f, { a := linkLine l, b := nodeLine goal, ts := ts, dom := x.dom, launch := x.launch })], v))))

/-- A popped pair is one of the lowest band among the launch's unreserved pairs of the Fold, and joins the pairs that
the task holds; d gets the address of its first line, a that of its second, b its domain in [63:32] and its timestamp
in [31:0], or nothing when b is x0; ppop waits on an empty Fold, ppop.nb and steal then write 0 to d and a; with eight
held pairs ppop and ppop.nb raise FOLDSPILL with detail 2, before they look at the Fold, which is the model's choice
(log 91); steal from a field that is not an adjacent one of the launch raises PROT with detail 1, before it counts the
held pairs, which is the model's choice too (log 59). ppush: the two nodes form a pair, the lower line first, for the
Fold of that line's home field; in an ordered domain it is buffered, and a timestamp below the task's own raises
ILLDOM; a node paired with itself raises LINKERR with detail 6, after the translation of the node. That a pop sees
only its own launch's pairs is the model's reading (log 62). After R222 to R224, R254, R225, R252, R271. -/
def Obligations.PairsOfAFold : Prop :=
  (
  (∀ (d a b : Spec) (s : State) (site slot : Nat) (c : Ctx), s.here = .ok (site, slot, c) →
    let pop := s.popPair (siteField site) c.task.msg.launch
    (∀ i : Instr, (i = .ppop d a b ∨ i = .ppopNb d a b) → s.issue i = .ok () →
      (8 ≤ c.heldPairs.length → exec i s = .next (s.raise .A { code := .foldspill, detail := 2 })) ∧
      (∀ h s1 t, c.heldPairs.length < 8 → pop = some (h, s1) → s1.givePair site slot d a b h = .ok t →
        exec i s = .next (t.retire .A))) ∧
    (s.issue (.ppop d a b) = .ok () → c.heldPairs.length < 8 → pop = none →
      exec (.ppop d a b) s = .next (s.block (.ppop d a b) .queue)) ∧
    (∀ s1 t, s.issue (.ppopNb d a b) = .ok () → c.heldPairs.length < 8 → pop = none → s.dst .A d 0 = .ok s1 →
      s1.dst .A a 0 = .ok t → exec (.ppopNb d a b) s = .next (t.retire .A)) ∧
    (∀ v s1 l e, s.issue (.steal d a b) = .ok () → s.src .A b = .ok (v, s1) → s1.here = .ok (site, slot, e) →
      s1.launch? e.task.msg.launch = some l →
      let f := v.toNat % 128
      let may : Prop := f ∈ l.fields ∧ f < Config.fields ∧ adjacentFields f (siteField site) = true
      (¬ may → exec (.steal d a b) s = .next (s.raise .A { code := .prot, detail := 1 })) ∧
      (∀ h s2 t, may → e.heldPairs.length < 8 → s1.popPair f e.task.msg.launch = some (h, s2) →
        s2.givePair site slot d a b h = .ok t → exec (.steal d a b) s = .next (t.retire .A)) ∧
      (∀ s2 t, may → e.heldPairs.length < 8 → s1.popPair f e.task.msg.launch = none → s1.dst .A d 0 = .ok s2 →
        s2.dst .A a 0 = .ok t → exec (.steal d a b) s = .next (t.retire .A)))) ∧
  (∀ (s t : State) (f launch : Nat) (l : Launch) (h : Held), s.launch? launch = some l →
    let d := (s.field f).fold
    let may (e : FoldEntry) : Prop := e ∈ d.entries ∧ e.reserved = false ∧ e.pair.launch = launch
    (s.popPair f launch = none ↔ ∀ e, ¬ may e) ∧
    (s.popPair f launch = some (h, t) → h.field = f ∧ h.spent = false ∧ ∃ e, may e ∧ e.pair = h.pair ∧
      ∀ x, may x → bandOf d.base e.pair.ts l.bandsh ≤ bandOf d.base x.pair.ts l.bandsh)) ∧
  (∀ (s s1 s2 t : State) (site slot : Nat) (c : Ctx) (d a b : Spec) (h : Held), s.ctx? site slot = some c →
    let u := (s.setCtx site slot { c with pairs := c.pairs ++ [h] }).reband h.pair.launch
    u.dst .A d (BitVec.ofNat 64 (64 * h.pair.a.toNat)) = .ok s1 →
    s1.dst .A a (BitVec.ofNat 64 (64 * h.pair.b.toNat)) = .ok s2 →
    (b = 0 → s.givePair site slot d a b h = .ok s2) ∧
    (b ≠ 0 → s2.dst .A b (BitVec.ofNat 64 (2 ^ 32 * h.pair.dom.toNat + h.pair.ts.toNat)) = .ok t →
      s.givePair site slot d a b h = .ok t))) ∧
  (
  ∀ (d a b : Spec) (s s1 s2 s3 s4 : State) (va vb vd : Word) (site slot f : Nat) (c : Ctx),
    s.issue (.ppush d a b) = .ok () → d.toNat < 48 → s.src .A a = .ok (va, s1) → s1.src .A b = .ok (vb, s2) →
    s2.src .A d = .ok (vd, s3) → s3.here = .ok (site, slot, c) →
    let lo := if va.toNat < vb.toNat then va else vb
    let hi := if va.toNat < vb.toNat then vb else va
    let early : Prop := c.task.msg.dom ≠ 0 ∧ ts32lt (vd.setWidth 32) c.task.msg.ts = true
    let form : Prop := 2 ^ 36 ≤ va.toNat ∧ 2 ^ 36 ≤ vb.toNat ∧ nodeForm va = true ∧ nodeForm vb = true
    let p : Pair := ⟨nodeLine lo, nodeLine hi, vd.setWidth 32, c.task.msg.dom, c.task.msg.launch⟩
    (early → exec (.ppush d a b) s = .next (s.raise .A { code := .illdom })) ∧
    (¬ early → form → s3.nodeField (s3.actor site c) (nodeLine lo) = .ok (f, s4) →
      (va = vb → exec (.ppush d a b) s = .next (s.raise .A { code := .linkerr, detail := 6 })) ∧
      (va ≠ vb → c.task.msg.dom = 0 → s4.roomFor [(f, p)] = true →
        exec (.ppush d a b) s = .next ((s4.sendPairs [(f, p)]).retire .A)) ∧
      (va ≠ vb → c.task.msg.dom ≠ 0 → exec (.ppush d a b) s = .next ((s4.buffer site slot (.push p c.pc)).retire .A))))

/-- rule: the table is probed from the slot ((HI x 2^12 + LO) x 0x9E3779B1 mod 2^32) >> (32 - LOGN), 0 when LOGN is 0,
over at most eight slots, and the address of the entry found goes to d; that entry is well formed, with KIND at most
5, LO at most HI, PRIO at most 11, no reserved bit set, for a GROUP a sub-grid that is not empty and lies within the
grid of the launch record, which grid is the model's choice (log 101), and is for exactly that pair of types; its
words are read at their home slices past the tile's L1, the model's choice (log 103). rewr without the right to write
its nodes raises PROT at once in every domain. rewr of an entry that applies, with the link words of both nodes
checked, the principal ones included, and its lines allocated: in domain 0 its template runs, its pairs are sent and
the pair is consumed; in an ordered domain it is buffered with its fresh lines. rcall and rgroup of an entry that
applies and whose messages can be sent: the messages go out, or are buffered in an ordered domain, and the pair is
consumed. Operands are read in the order d, a, b, the model's reading where they name one queue (log 92); that these
three register as readers of the headers, too (log 61). The templates: a FREE or malformed word raises LINKERR with
detail 2, arities that do not fit detail 8, an output slot that the launch lacks, on a word that Out is run for, past
redirections where a Join finds it so, detail 9, in this order, the model's reading (log 60); Out writes its
doubleword at OUTA + 8k, also where it crosses a line; Join, Attach and Out act on the words that their links give
back; ANNIH joins port by port, ERASE goes link by link, COMM makes the copies and attaches them; both nodes are then
freed. After R35, R36, R226, R222, R227 to R230, R228, R229, R356. -/
def Obligations.RulesOfANet : Prop :=
  (
  (∀ (d a b : Spec) (s s1 s2 s3 s4 s5 s6 t : State) (va vb ha hb r : Word) (ka kb : LineKey) (site slot : Nat) (c : Ctx),
    s.issue (.rule d a b) = .ok () → s.src .A a = .ok (va, s1) → s1.src .A b = .ok (vb, s2) →
    s2.here = .ok (site, slot, c) → s2.nodeAddrs (s2.actor site c) .load va vb = .ok s3 →
    s3.nodeHeader (s2.actor site c) slot c va = .ok (ha, ka, s4) →
    s4.nodeHeader (s2.actor site c) slot c vb = .ok (hb, kb, s5) →
    let base := rulebBase (s5.tile site).ruleb
    let logn := rulebLog (s5.tile site).ruleb
    let lo := min (nodeType ha) (nodeType hb)
    let hi := max (nodeType ha) (nodeType hb)
    s5.probe (s2.actor site c) base lo hi logn (firstSlot lo hi logn) 8 = .ok (r, s6) → s6.dst .A d r = .ok t →
    exec (.rule d a b) s = .next (t.retire .A)) ∧
  (∀ (n : Nat) (s t : State) (x : Actor) (base va : Word) (lo hi logn slot : Nat),
    s.probe x base lo hi logn slot n = .ok (va, t) → ∃ (j : Nat) (e : Entry) (u : State), j < n ∧
      va = base + BitVec.ofNat 64 (32 * ((slot + j) % 2 ^ logn)) ∧ u.readEntry x.sp va = .ok (e, t) ∧ e.w0 ≠ 0 ∧
      e.lo = lo ∧ e.hi = hi ∧ e.ok (s.gridOf x.launch).1 (s.gridOf x.launch).2 = true) ∧
  (∀ lo hi logn, logn < 32 → firstSlot lo hi logn < 2 ^ logn ∧
    firstSlot lo hi logn = if logn = 0 then 0 else (hi * 2 ^ 12 + lo) * 0x9E3779B1 % 2 ^ 32 / 2 ^ (32 - logn)) ∧
  (∀ (e : Entry) (gw gh : Nat),
    let bits (w : Word) (lo n : Nat) : Nat := w.toNat / 2 ^ lo % 2 ^ n
    e.lo = bits e.w0 52 12 ∧ e.hi = bits e.w0 40 12 ∧
    (e.ok gw gh = true ↔ bits e.w0 36 4 ≤ 5 ∧ e.lo ≤ e.hi ∧ bits e.w2 4 4 ≤ 11 ∧ e.w2.toNat < 2 ^ 8 ∧ e.w3 = 0 ∧
      (bits e.w0 36 4 = 4 → e.w1.toNat < 2 ^ 48 ∧ bits e.w1 24 12 ≠ 0 ∧ bits e.w1 36 12 ≠ 0 ∧
        bits e.w1 0 12 + bits e.w1 24 12 ≤ gw ∧ bits e.w1 12 12 + bits e.w1 36 12 ≤ gh) ∧
      (bits e.w0 36 4 ≠ 4 → e.w1.toNat < 2 ^ 57 ∧ e.w1.toNat % 64 = 0)))) ∧
  (
  ∀ (d a b : Spec) (s s1 s2 s3 : State) (vd va vb : Word) (site slot : Nat) (c : Ctx), s.src .A d = .ok (vd, s1) →
    s1.src .A a = .ok (va, s2) → s2.src .A b = .ok (vb, s3) → s3.here = .ok (site, slot, c) →
    let x := s3.actor site c
    (∀ tr, s.issue (.rewr d a b) = .ok () → s3.nodeAddrs x .atomic va vb = .error (.trap tr) →
      exec (.rewr d a b) s = .next (s.raise .A tr)) ∧
    (∀ (e : Entry) (ka kb : LineKey) (s4 : State) (fresh : List Word) (s5 : State), s.issue (.rewr d a b) = .ok () →
      s3.applied x slot c .atomic [0, 1, 2] vd va vb = .ok (e, ka, kb, s4) →
      let visited := if nodeArity (s4.slot ka 0) = 0 then s4.auxLinks kb else s4.auxLinks ka
      let outn := ((s4.launch? x.launch).map (fun l => (fld (l.word 10) 32 16).toNat)).getD 0
      let ts := c.pairTs va vb + (entryDelta e.w0).signExtend 32
      templateChecks (entryKind e.w0) outn (s4.slot ka 0) (s4.slot kb 0) (s4.slot ka 1) (s4.slot kb 1)
        (s4.auxLinks ka) (s4.auxLinks kb) (s4.joinLinks x kb (nodeLine vb)) = .ok () →
      s4.allocLines x (freshNeeded (entryKind e.w0) (nodeArity (s4.slot ka 0)) (nodeArity (s4.slot kb 0)) visited)
        = .ok (fresh, s5) →
      (∀ ps s6, c.task.msg.dom = 0 → s5.template x e.w0 va vb ts fresh = .ok (ps, s6) → s6.roomFor ps = true →
        exec (.rewr d a b) s = .next (((((s6.sendPairs ps).modCtx site slot (·.disown [va, vb])).consume site slot va vb
          ).reband x.launch).retire .A)) ∧
      (c.task.msg.dom ≠ 0 → exec (.rewr d a b) s =
        .next ((((s5.modCtx site slot (fun k => { k with lines := k.lines ++ fresh })).buffer site slot
          (.rewr e.w0 va vb ts fresh c.pc)).consume site slot va vb).retire .A))) ∧
    (∀ (i : Instr) (kinds : List Nat) (e : Entry) (ka kb : LineKey) (s4 s5 : State), (i = .rcall d a b ∧ kinds = [3, 4, 5]) ∨
        (i = .rgroup d a b ∧ kinds = [4]) → s.issue i = .ok () →
      s3.applied x slot c .load kinds vd va vb = .ok (e, ka, kb, s4) →
      s4.dispatch x e.w0 e.w1 e.w2 va vb (c.pairTs va vb) = .ok s5 →
      let sent := if c.task.msg.dom = 0 then s5
        else s4.buffer site slot (.dispatch e.w0 e.w1 e.w2 va vb (c.pairTs va vb) c.pc)
      exec i s = .next (((sent.consume site slot va vb).reband x.launch).retire .A))) ∧
  (
  (∀ (kind outn : Nat) (ha hb pa pb : Word) (la lb jb : List Word),
    let ws := pa :: la ++ pb :: lb
    let m := nodeArity ha
    let n := nodeArity hb
    let checks := templateChecks kind outn ha hb pa pb la lb jb
    let outs := outWords kind la (if kind = 0 then jb else lb)
    let fits : Prop := (kind = 0 ∧ m = n) ∨ (kind = 1 ∧ m + n ≤ 12) ∨ (2 ≤ kind ∧ (m = 0 ∨ n = 0))
    let past (w : Word) : Prop := linkKind w = .out ∧ outn ≤ w.toNat % 2 ^ 16
    ((∃ w ∈ ws, w = 0 ∨ linkOk w = false) → checks = .error (.trap { code := .linkerr, detail := 2 })) ∧
    ((∀ w ∈ ws, w ≠ 0 ∧ linkOk w = true) →
      (¬ fits → checks = .error (.trap { code := .linkerr, detail := 8 })) ∧
      (fits → (∃ w ∈ outs, past w) → checks = .error (.trap { code := .linkerr, detail := 9 })) ∧
      (fits → (∀ w ∈ outs, ¬ past w) → checks = .ok ())) ∧
    (kind ≠ 0 → outWords kind la lb = la ++ lb) ∧
    (∀ w, w ∈ outWords 0 la jb ↔ ∃ p ∈ la.zip jb, linkKind p.1 ≠ .port ∧ linkKind p.2 ≠ .port ∧ (w = p.1 ∨ w = p.2))) ∧
  (∀ (s : State) (x : Actor) (k : LineKey) (line : BitVec 51), (s.joinLinks x k line).length = nodeArity (s.slot k 0) ∧
    ∀ p, p < nodeArity (s.slot k 0) →
      (∀ t key c u, s.follow x 0 16 (portAddr line (p + 1)) = .ok (t, key, c, u) → (s.joinLinks x k line)[p]? = some c) ∧
      (∀ e, s.follow x 0 16 (portAddr line (p + 1)) = .error e →
        ∃ w, (s.joinLinks x k line)[p]? = some w ∧ linkKind w = .port)) ∧
  (∀ (w w1 w2 : Work) (x : Actor) (ts : BitVec 32) (p q : PortRef) (u v : Word),
    (∀ t l c ps s, (w.2.dropVA x t).alinkAt x t l ts = .ok (c, ps, s) → w.link x ts t l = .ok (c, (w.1 ++ ps, s))) ∧
    (w.link x ts p.addr (mkLink 2 q.line q.p) = .ok (u, w1) → w1.link x ts q.addr u = .ok (v, w2) →
      (∀ z w3, linkKind u = .port → linkKind v ≠ .port → w2.link x ts (linkTarget u) v = .ok (z, w3) →
        w.join x ts p q = .ok w3) ∧
      (∀ z w3, linkKind u ≠ .port → linkKind v = .port → w2.link x ts (linkTarget v) u = .ok (z, w3) →
        w.join x ts p q = .ok w3) ∧
      (∀ z w3 y w4, linkKind u = .port → linkKind v = .port → w2.link x ts (linkTarget u) v = .ok (z, w3) →
        w3.link x ts (linkTarget v) u = .ok (y, w4) → w.join x ts p q = .ok w4) ∧
      (∀ w3 w4, linkKind u ≠ .port → linkKind v ≠ .port → w2.out x u v = .ok w3 → w3.out x v u = .ok w4 →
        w.join x ts p q = .ok w4) ∧
      (linkKind u ≠ .port → linkKind u ≠ .out → w.attach x ts p q = .ok w2) ∧
      (∀ z w3, linkKind u = .port → w2.link x ts (linkTarget u) (mkLink 1 q.line q.p) = .ok (z, w3) →
        w.attach x ts p q = .ok w3) ∧
      (linkKind u = .out → w.attach x ts p q = w2.out x u (mkLink 1 q.line q.p)))) ∧
  (∀ (w : Work) (x : Actor) (u y : Word), (linkKind u ≠ .out → w.out x u y = .ok w) ∧
    (∀ l leaf key s, linkKind u = .out → w.2.launch? x.launch = some l →
      let va : Word := (fld (l.word 11) 0 57).setWidth 64 + BitVec.ofNat 64 (8 * (u.toNat % 2 ^ 16))
      u.toNat % 2 ^ 16 < (fld (l.word 10) 32 16).toNat → w.2.reach x.sp .store va = .ok (leaf, key, s) →
      (va.toNat % 64 ≤ 56 → ∃ w1, w.out x u y = .ok w1 ∧ w1.1 = w.1 ∧
        (x.commit = none → key.exists = true → s.mem.wf = true →
          lineBytes (w1.2.lineAt key) (va.toNat % 64) 8 = wordBytes y)) ∧
      (∀ leaf2 key2 s2, 56 < va.toNat % 64 →
        s.reach x.sp .store (va + BitVec.ofNat 64 (64 - va.toNat % 64)) = .ok (leaf2, key2, s2) →
        let n := 64 - va.toNat % 64
        ∃ w1, w.out x u y = .ok w1 ∧ w1.1 = w.1 ∧
          (x.commit = none → key.exists = true → key2.exists = true → key ≠ key2 → s2.mem.wf = true →
            (∀ k, key = .pa k → s2.stackOk k = true) →
            lineBytes (w1.2.lineAt key) (va.toNat % 64) n = (wordBytes y).take n ∧
            lineBytes (w1.2.lineAt key2) 0 (8 - n) = (wordBytes y).drop n)))) ∧
  (∀ (w : Work) (x : Actor) (va h : Word) (links : List Word) (leaf : Leaf) (key : LineKey) (s : State),
    w.2.reach x.sp .store va = .ok (leaf, key, s) → links.length ≤ 7 → ∃ w1, w.make x va h links = .ok w1 ∧ w1.1 = w.1 ∧
      (x.commit = none → key.exists = true → w1.2.slot key 0 = h &&& 0xFFFEFFFFFFFFFFFF ∧
        ∀ j, j < 7 → w1.2.slot key (1 + j) = (links[j]?).getD 0)) ∧
  (∀ (w w1 : Work) (x : Actor) (ts : BitVec 32) (a b : BitVec 51) (m : Nat), w.annih x ts a b 0 = .ok w ∧
    (w.annih x ts a b m = .ok w1 → w.annih x ts a b (m + 1) = w1.join x ts ⟨a, m + 1⟩ ⟨b, m + 1⟩)) ∧
  (∀ (w w1 w2 : Work) (x : Actor) (ts : BitVec 32) (he f l : Word) (o : BitVec 51) (p : Nat) (ls fs : List Word),
    w.erase x ts he o p [] fs = .ok w ∧
    (linkKind l = .port ∨ linkKind l = .redir → w.make x f he [0] = .ok w1 →
      w1.attach x ts ⟨o, p⟩ ⟨nodeLine f, 0⟩ = .ok w2 →
      w.erase x ts he o p (l :: ls) (f :: fs) = w2.erase x ts he o (p + 1) ls fs) ∧
    (linkKind l = .out → w.out x l 0 = .ok w1 → w.erase x ts he o p (l :: ls) fs = w1.erase x ts he o (p + 1) ls fs) ∧
    (linkKind l = .value → w.erase x ts he o p (l :: ls) fs = w.erase x ts he o (p + 1) ls fs)) ∧
  (∀ (w w1 w2 w3 w4 : Work) (x : Actor) (ts : BitVec 32) (a b : BitVec 51) (ha hb : Word) (fa fb : List Word),
    fa.length = nodeArity hb →
    let links (l : List Word) (j : Nat) : List Word := 0 :: l.map (fun f => mkLink 1 (nodeLine f) (j + 1))
    fa.zipIdx.foldlM (fun w q => w.make x q.1 ha (links fb q.2)) w = .ok w1 →
    fb.zipIdx.foldlM (fun w q => w.make x q.1 hb (links fa q.2)) w1 = .ok w2 →
    fa.zipIdx.foldlM (fun w q => w.attach x ts ⟨b, q.2 + 1⟩ ⟨nodeLine q.1, 0⟩) w2 = .ok w3 →
    fb.zipIdx.foldlM (fun w q => w.attach x ts ⟨a, q.2 + 1⟩ ⟨nodeLine q.1, 0⟩) w3 = .ok w4 →
    w.comm x ts a b ha hb (fa ++ fb) = .ok w4) ∧
  (∀ (s s1 s2 : State) (x : Actor) (w0 a b : Word) (ts : BitVec 32) (fresh : List Word) (ka kb : LineKey) (w w1 w2 : Work),
    s.netLine x .atomic a = .ok (ka, s1) → s1.netLine x .atomic b = .ok (kb, s2) →
    let ha := s2.slot ka 0
    let hb := s2.slot kb 0
    let kind := w0.toNat / 2 ^ 36 % 16
    let z : Work := ([], s2)
    ((kind = 0 ∧ z.annih x ts (nodeLine a) (nodeLine b) (nodeArity ha) = .ok w) ∨
      (kind = 1 ∧ z.comm x ts (nodeLine a) (nodeLine b) ha hb fresh = .ok w) ∨
      (2 ≤ kind ∧ nodeArity ha = 0 ∧ z.erase x ts ha (nodeLine b) 1 (s2.auxLinks kb) fresh = .ok w) ∨
      (2 ≤ kind ∧ nodeArity ha ≠ 0 ∧ z.erase x ts hb (nodeLine a) 1 (s2.auxLinks ka) fresh = .ok w)) →
    w.free x a = .ok w1 → w1.free x b = .ok w2 → s.template x w0 a b ts fresh = .ok w2))

/-- nalloc takes n lines of the field's flock, zeroes them, records them as the task's, writes their addresses to the
array and gives n, or raises NODEEXH; nfree reads the addresses from the array, and in domain 0 each line is zeroed
and joins the flock of this field, in an ordered domain the lines are buffered. That nalloc zeroes the lines at their
home slices is the model's reading (log 63). After R228, R231. -/
def Obligations.NodeLines : Prop :=
  (∀ (d a b : Spec) (s s1 s2 : State) (nv arr : Word) (site slot n goal off : Nat) (c : Ctx), s.src .A a = .ok (nv, s1) →
    s1.src .A b = .ok (arr, s2) → s2.here = .ok (site, slot, c) → s2.lineArray site nv arr = .ok (n, goal, off) →
    (s.issue (.nalloc d a b) = .ok () → (c.task.msg.dom = 0 ∨ locTile arr = siteIdx site) →
      (s2.tile goal).overlaps off (8 * n) true = false →
      (∀ ls s3 t, s2.takeLines (siteField site) c.task.msg.launch n = some (ls, s3) →
        (((ls.foldl (fun s va => s.zeroLine (s2.actor site c) va) s3).modCtx site slot
          (fun k => { k with lines := k.lines ++ ls })).writeBy site goal off (wordsBytes ls)).dst .A d (BitVec.ofNat 64 n) = .ok t →
        exec (.nalloc d a b) s = .next (t.retire .A)) ∧
      (s2.takeLines (siteField site) c.task.msg.launch n = none →
        exec (.nalloc d a b) s = .next (s.raise .A { code := .nodeexh }))) ∧
    (s.issue (.nfree a b) = .ok () → (s2.tile goal).overlaps off (8 * n) false = false → (s2.tile goal).sound →
      let ls := (List.range n).map (fun i => leWord ((s2.tile goal).spad.readN (off + 8 * i) 8))
      ∀ s3, s2.freeChecks (s2.actor site c) ls = .ok s3 →
        (c.task.msg.dom ≠ 0 → exec (.nfree a b) s = .next ((s3.buffer site slot (.free ls c.pc)).retire .A)) ∧
        (∀ s4, c.task.msg.dom = 0 → ls.foldlM (fun s va => s.freeLine (s2.actor site c) va) s3 = .ok s4 →
          exec (.nfree a b) s = .next ((s4.modCtx site slot (·.disown ls)).retire .A)))) ∧
  (∀ (s u : State) (x : Actor) (va : Word) (l : Leaf) (k : LineKey), x.commit = none →
    (s.dropVA x va).reach x.sp .store va = .ok (l, k, u) →
    ∃ t, s.freeLine x va = .ok t ∧ (k.exists = true → t.lineAt k = 0) ∧
      sget [] x.launch (t.field (siteField x.site)).flock = sget [] x.launch (u.field (siteField x.site)).flock ++ [va]) ∧
  (∀ (s t : State) (f launch n : Nat) (ls : List Word), s.takeLines f launch n = some (ls, t) → ls.length = n)

/-! ## Engines -/

/-- The moves that copies, two-dimensional copies, fills, gathers and scatters make, the element updates of GE.SCATW,
the item that ME.MMA and the copy that CE.COPYMMA brings, the group that a collective joins, the message that MSG.CALL
and MSG.REPLY send, QFENCE that ends when the commands before it have, and NET.PAIR that sends a pair to the Fold of
its tile's field; each that has done its work ends with STATUS 0 where the command ends here; poisoned sources of
GE.SCATW taint the launch. A poisoned entry of an index or weight table taints it too and marks what its row writes,
which is the model's reading (log 41). A part joins its group or raises LOCALRANGE or PROT; parts that disagree all
end with ILLOP and detail 2; the last part of a group makes it act: CL.REDUCE writes to every DST, element by element
in order, the reduction of all parts' elements and gives the flags, CL.BCAST writes the bytes of its one root, and
with another number of roots all end with ILLOP and detail 3; each part ends after its own write. How parts and
results of other modules come is the model's choice (log 123). That a command moves all its bytes when it starts, and
that rows are written in order, so that the last of overlapping rows of a copy stays, are the model's choices (logs 67
and 113); the order of GE.SCATW's checks, that a group is known by its launch and number, and that a fence counts the
ports of the run that set it are its readings (logs 59, 69 and 68). After R205, R208 to R221, R213, R214, R386, R216
to R218, R180. -/
def Obligations.EngineCommands : Prop :=
  (
  let rowAt (base pitch : Word) (k : Nat) : Word := base + BitVec.ofNat 64 k * pitch
  let ends (site : Nat) (m : Cmd) (r : Try State) : Try State := r.bind (fun s => .ok (s.endCmd site m.seq 0 0))
  Engine .ceCopy 0x01 (fun site m s => ends site m (s.runMoves site m
    [⟨m.word 1, m.len, false, 0⟩, ⟨m.word 2, m.len, true, 1⟩] [.copy (m.word 1) (m.word 2) m.len])) ∧
  Engine .ceCopy2d 0x02 (fun site m s =>
    let rows := List.range (fld (m.word 3) 32 32).toNat
    ends site m (s.runMoves site m
      ((rows.map (fun r => [⟨rowAt (m.word 1) (m.word 4) r, m.len, false, 0⟩,
        ⟨rowAt (m.word 2) (m.word 5) r, m.len, true, 1⟩])).flatten)
      (rows.map (fun r => .copy (rowAt (m.word 1) (m.word 4) r) (rowAt (m.word 2) (m.word 5) r) m.len)))) ∧
  Engine .ceFill 0x03 (fun site m s => ends site m (s.runMoves site m [⟨m.word 1, m.len, true, 1⟩]
    [.give ((List.range m.len).map (fun p => fld (m.word 2) (8 * (p % 8)) 8)) (m.word 1)])) ∧
  Engine .ceCopymma 0x04 (fun site m s => (s.runMoves site m
    [⟨m.word 1, m.len, false, 0⟩, ⟨m.word 2, m.len, true, 1⟩] [.copy (m.word 1) (m.word 2) m.len]).bind
      (fun s => .ok (s.modTile site (fun t => { t with
        cmds := t.cmds.map (fun x => if x.seq = m.seq then { x with copied := true } else x) })))) ∧
  Engine .geGather 0x10 (fun site m s => (s.indexTable site m).bind (fun x =>
    let n := m.rowLen
    let dst (k : Nat) : Word := m.word 2 + BitVec.ofNat 64 (k * n)
    let src (i : Nat) : Word := rowAt (m.word 1) (m.word 5) i
    ends site m (x.2.runMoves site m (⟨m.word 3, 4 * m.count, false, 2⟩ :: (x.1.map (fun r =>
        (if r.index = 0xFFFFFFFF then [] else [⟨src r.index, n, false, 0⟩]) ++ [⟨dst r.k, n, true, 1⟩])).flatten)
      (x.1.map (fun r => if r.index = 0xFFFFFFFF then .give (List.replicate n 0) (dst r.k) r.hurt
        else .copy (src r.index) (dst r.k) n r.hurt))))) ∧
  Engine .geScatter 0x11 (fun site m s => (s.indexTable site m).bind (fun x =>
    let n := m.rowLen
    let src (k : Nat) : Word := m.word 1 + BitVec.ofNat 64 (k * n)
    let dst (i : Nat) : Word := rowAt (m.word 2) (m.word 5) i
    let live := x.1.filter (fun r => r.index != 0xFFFFFFFF)
    ends site m (x.2.runMoves site m (⟨m.word 3, 4 * m.count, false, 2⟩ ::
        (live.map (fun r => [⟨src r.k, n, false, 0⟩, ⟨dst r.index, n, true, 1⟩])).flatten)
      (live.map (fun r => .copy (src r.k) (dst r.index) n r.hurt))))) ∧
  (∀ (s s1 s2 s3 s4 t : State) (site idx : Nat) (m : Cmd) (rows : List TableRow) (ws : List (Nat × Bool)) (hs : List Hull)
      (data : List (List (Byte × Bool))) (fl : Flags), s.starts 0x12 site idx m →
    let u := s.startCmd site idx m
    let sp := u.spaceOf site
    let n := m.rowLen
    let size := if fld (m.word 6) 60 4 = 6 then 2 else 4
    let wtab : Word := (fld (m.word 6) 0 57).setWidth 64
    let src (k : Nat) : Word := m.word 1 + BitVec.ofNat 64 (k * n)
    let dst (i : Nat) : Word := rowAt (m.word 2) (m.word 5) i
    let live := rows.filter (fun r => r.index != 0xFFFFFFFF)
    u.indexTable site m = .ok (rows, s1) → n % size = 0 → s1.table32 sp site wtab m.count = .ok (ws, s2) →
    (∀ r ∈ live, (dst r.index).toNat % 4 = 0) →
    s2.hulls site (⟨m.word 3, 4 * m.count, false, 2⟩ :: ⟨wtab, 4 * m.count, false, 3⟩ ::
      (live.map (fun r => [⟨src r.k, n, false, 0⟩, ⟨dst r.index, n / size * 4, true, 1⟩])).flatten) = .ok hs →
    s2.takeRanges site m.seq hs = .ok s3 →
    live.foldlM (fun (acc : List (List (Byte × Bool)) × State) r =>
      (acc.2.engRead sp site (src r.k) n).map (fun x => (acc.1 ++ [x.1], x.2))) ([], s3) = .ok (data, s4) →
    (live.zip data).foldlM (fun (acc : Flags × State) r =>
      let w := (ws[r.1.k]?).getD (0, false)
      (acc.2.scatRow sp site m.modes (Fmt.fp32.unpack w.1) (w.2 || r.1.hurt) size (dst r.1.index) r.2).map
        (fun x => (acc.1 ||| x.1, x.2)))
        (0, if data.any (fun d => d.any Prod.snd) then s4.taint m.msg.launch else s4) = .ok (fl, t) →
    exec (.geScatw site idx) s = .next (t.endCmd site m.seq 0 (fl.setWidth 16))) ∧
  Engine .meMma 0x20 (fun site m s => .ok (s.modTile site (fun t => { t with
    items := t.items ++ [m.item (m.word 1) (m.word 2) (m.word 3) (m.word 4)] }))) ∧
  Engine .clReduce 0x30 (fun site m s => s.joinGroup site m) ∧
  Engine .clBcast 0x31 (fun site m s => s.joinGroup site m) ∧
  (∀ (i : Nat → Nat → Instr) (opc : Nat), (i = .msgCall ∧ opc = 0x40) ∨ (i = .msgReply ∧ opc = 0x41) →
    Engine i opc (fun site m s =>
      if hdrDest m.hdr = 0xFFFF ∧ opc = 0x40 then
        .ok { s.depart site m with mesh := s.mesh ++ [.request (m.message site) m.away (s.tick site)] }
      else match s.siteOfName (siteField site) m.msg.launch (hdrDest m.hdr) with
        | none => .error (.trap { code := .localrange, detail := 2 })
        | some t => .ok { s.depart site m with mesh := s.mesh ++ [.message t (m.message site)
            (if hdrReply m.hdr || hdrFollow m.hdr then some m.away else none) none] })) ∧
  Engine .qfenceCommand 0x50 (fun site m s => if (s.tile site).fenceOpen ⟨m.fenceMask, m.seq, m.task, m.run⟩ = true then
    .ok (s.endCmd site m.seq 0 0) else .error (.wait .queue)) ∧
  (∀ (s : State) (site idx goal : Nat) (m : Cmd) (l : Launch), s.starts 0x60 site idx m →
    let u := s.startCmd site idx m
    u.siteOfName (siteField site) m.msg.launch (hdrDest m.hdr) = some goal → u.launch? m.msg.launch = some l →
    let a : BitVec 51 := fld (m.word 1) 0 51
    let b : BitVec 51 := fld (m.word 2) 0 51
    let p : Pair := ⟨if a.toNat < b.toNat then a else b, if a.toNat < b.toNat then b else a, fld (m.word 3) 0 32, l.dom,
      m.msg.launch⟩
    l.dom = fld (m.word 3) 32 8 → a ≠ b → u.roomFor [(siteField goal, p)] = true →
    exec (.netPair site idx) s = .next ((u.sendPairs [(siteField goal, p)]).endCmd site m.seq 0 0))) ∧
  (
  (∀ (s s1 : State) (sp : Space) (site n : Nat) (a : Word) (bs : List (Byte × Bool)),
    s.engRead sp site a (4 * n) = .ok (bs, s1) →
    let ws := (List.range n).map (fun k => (leNat (((bs.drop (4 * k)).take 4).map Prod.fst),
      ((bs.drop (4 * k)).take 4).any Prod.snd))
    s.table32 sp site a n = .ok (ws, match sp.launch with
      | some l => if ws.any Prod.snd then s1.taint l else s1
      | none => s1)) ∧
  (∀ (s s1 s2 : State) (site : Nat) (m : Cmd) (ws : List (Nat × Bool)), s.hurdCheck site m = .ok () →
    (m.word 3).toNat % 4 = 0 → s.registerReads site m [(m.word 3, 4 * m.count)] = .ok s1 →
    s1.table32 (s1.spaceOf site) site (m.word 3) m.count = .ok (ws, s2) →
    ∃ rows : List TableRow, s.indexTable site m = .ok (rows, s2) ∧ rows.map (fun r => (r.index, r.hurt)) = ws ∧
      rows.map (·.k) = List.range ws.length)) ∧
  (
  let group (m : Cmd) : Word := m.word (if hdrOpc m.hdr = 0x30 then 4 else 3)
  let reads (m : Cmd) : Prop := hdrOpc m.hdr = 0x30 ∨ m.word 1 ≠ 0xFFFFFFFFFFFFFFFF
  let ty (m : Cmd) : VType := match (fld (m.word 3) 32 4).toNat with
    | 4 => .i32
    | 5 => .u32
    | 6 => .bf16
    | _ => .fp32
  let count (m : Cmd) : Nat := (fld (m.word 3) 0 32).toNat
  let agree (a b : Cmd) : Prop := hdrOpc a.hdr = hdrOpc b.hdr ∧ hdrDest a.hdr = hdrDest b.hdr ∧ group a = group b ∧
    hdrFpcf a.hdr = hdrFpcf b.hdr ∧ a.modes = b.modes ∧
    (hdrOpc a.hdr = 0x30 → fld (a.word 3) 0 38 = fld (b.word 3) 0 38)
  let leaves (s : State) (ps : List ClPart) : State := { s with parts := s.parts.filter (fun p => decide (p ∉ ps)) }
  (∀ (s : State) (site : Nat) (m : Cmd),
    let there := s.siteOfName (siteField site) m.msg.launch (hdrDest m.hdr)
    (there = none → s.joinGroup site m = .error (.trap { code := .localrange, detail := 2 })) ∧
    (there ≠ none → reads m → (m.word 1).toNat < 2 ^ 36 →
      s.joinGroup site m = .error (.trap { code := .localrange, detail := 1, addr := m.word 1 })) ∧
    (there ≠ none → (reads m → 2 ^ 36 ≤ (m.word 1).toNat) → (m.word 2).toNat < 2 ^ 36 →
      s.joinGroup site m = .error (.trap { code := .localrange, detail := 1, addr := m.word 2 })) ∧
    (there ≠ none → (reads m → 2 ^ 36 ≤ (m.word 1).toNat) → 2 ^ 36 ≤ (m.word 2).toNat →
      (fld (group m) 43 21 : BitVec 21) ≠ s.moduleNumber →
      (∀ p ∈ s.links, p.2.up = true → (fld (group m) 43 21 : BitVec 21) ∉ p.2.routes) →
      s.joinGroup site m = .error (.trap { code := .prot, detail := 3 })) ∧
    (there ≠ none → (reads m → 2 ^ 36 ≤ (m.word 1).toNat) → 2 ^ 36 ≤ (m.word 2).toNat →
      ((fld (group m) 43 21 : BitVec 21) = s.moduleNumber ∨
        ∃ p ∈ s.links, p.2.up = true ∧ (fld (group m) 43 21 : BitVec 21) ∈ p.2.routes) →
      (∀ bs s1, reads m → s.engRead (s.spaceOf site) site (m.word 1) m.clBytes = .ok (bs, s1) →
        s.joinGroup site m = s1.joinPart { cmd := m, site := site, since := s1.tick site }) ∧
      (¬ reads m → s.joinGroup site m = s.joinPart { cmd := m, site := site, since := s.tick site }))) ∧
  (∀ m : Cmd, m.clBytes = if hdrOpc m.hdr = 0x30 then count m * (ty m).size else 64 * (fld (group m) 0 19).toNat) ∧
  (∀ (s : State) (me : ClPart),
    let old := s.parts.filter (fun p => p.cmd.msg.launch = me.cmd.msg.launch ∧
      (fld (group p.cmd) 19 16 : BitVec 16) = fld (group me.cmd) 19 16)
    let full : Prop := (fld (group me.cmd) 43 21 : BitVec 21) = s.moduleNumber ∧
      (fld (group me.cmd) 35 8 : BitVec 8).toNat ≤ old.length
    ((∃ p ∈ old, ¬ agree p.cmd me.cmd) → s.joinPart me =
      .ok ((old ++ [me]).foldl (fun s p => s.endPart p 0x01 2) (leaves s old))) ∧
    ((∀ p ∈ old, agree p.cmd me.cmd) → ¬ full → s.joinPart me = .ok { s with parts := s.parts ++ [me] }) ∧
    ((∀ p ∈ old, agree p.cmd me.cmd) → full →
      s.joinPart me = ({ s with parts := s.parts ++ [me] } : State).runGroup me.cmd (old ++ [me]))) ∧
  (∀ (s s1 t : State) (m : Cmd) (ps : List ClPart) (srcs : List (List (Byte × Bool))), hdrOpc m.hdr = 0x30 →
    (∀ p ∈ ps, hdrOpc p.cmd.hdr = 0x30) → s.partSources ps = .ok (srcs, s1) →
    let row (k : Nat) : List (List (Byte × Bool)) := srcs.map (fun b => (b.drop ((ty m).size * k)).take (ty m).size)
    let el (k : Nat) : El := reduceEls (ty m) (fld (m.word 3) 36 2 : BitVec 2).toNat m.modes
      ((row k).map (fun e => leNat (e.map Prod.fst)))
    let bs := ((List.range (count m)).map (fun k => (leBytes (ty m).size (el k).p).map
      (fun b => (b, (row k).any (fun e => e.any Prod.snd))))).flatten
    let fl : Flags := ((List.range (count m)).map (fun k => (el k).flags)).foldl (· ||| ·) 0
    ps.foldlM (fun s p => s.partResult p bs fl) (if bs.any Prod.snd then s1.taint m.msg.launch else s1) = .ok t →
    s.runGroup m ps = .ok (leaves t ps)) ∧
  (∀ (s : State) (m : Cmd) (ps : List ClPart), hdrOpc m.hdr = 0x31 → (∀ p ∈ ps, hdrOpc p.cmd.hdr = 0x31) →
    let roots := ps.filter (fun p => p.cmd.word 1 ≠ 0xFFFFFFFFFFFFFFFF)
    (roots.length ≠ 1 → s.runGroup m ps = .ok (leaves (ps.foldl (fun s p => s.endPart p 0x01 3) s) ps)) ∧
    (∀ r bs s1 t, roots = [r] → s.partSource r = .ok (bs, s1) →
      ps.foldlM (fun s p => s.partResult p bs 0) (if bs.any Prod.snd then s1.taint m.msg.launch else s1) = .ok t →
      s.runGroup m ps = .ok (leaves t ps))) ∧
  (∀ (s s1 s2 : State) (p : ClPart) (r : List ClPart) (bs : List (Byte × Bool)) (l : List (List (Byte × Bool))),
    s.partSources [] = .ok ([], s) ∧
    (s.partSource p = .ok (bs, s1) → s1.partSources r = .ok (l, s2) → s.partSources (p :: r) = .ok (bs :: l, s2)) ∧
    (p.far = some bs → s.partSource p = .ok (bs, s)) ∧
    (p.far = none → s.partSource p = s.engRead (s.spaceOf p.site) p.site (p.cmd.word 1) p.cmd.clBytes)) ∧
  (∀ (s t : State) (p : ClPart) (bs : List (Byte × Bool)) (fl : Flags) (status : BitVec 8) (detail : BitVec 16),
    (p.far = none → s.writeLoad (s.spaceOf p.site) p.site (p.cmd.word 2, bs) = (t, none) →
      s.partResult p bs fl = .ok (t.endCmd p.site p.cmd.seq 0 (fl.setWidth 16))) ∧
    (p.far = none → s.endPart p status detail = s.endCmd p.site p.cmd.seq status detail) ∧
    (p.far ≠ none → s.partResult p bs fl = .ok s ∧ s.endPart p status detail = s)) ∧
  (∀ (s s1 : State) (sp : Space) (site : Nat) (a : Word) (bs : List (Byte × Bool)), s.writeLoad sp site (a, []) = (s, none) ∧
    (bs ≠ [] → s.engPut sp site a (bs.take (64 - a.toNat % 64)) = .ok s1 →
      s.writeLoad sp site (a, bs) = s1.writeLoad sp site (a + BitVec.ofNat 64 (64 - a.toNat % 64), bs.drop (64 - a.toNat % 64))) ∧
    (∀ leaf k, 2 ^ 36 ≤ a.toNat → s.reach sp .store a = .ok (leaf, k, s1) →
      let w := (s1.lineWrite k (a.toNat % 64) (bs.map Prod.fst)).noteHbm site k
      s.engPut sp site a bs = .ok (if bs.any Prod.snd then w.poisonLine k else w))) ∧
  (∀ (s t : State) (site : Nat) (m : Cmd) (bs : List (Byte × Bool)), hdrOpc m.hdr = 0x30 ∨ hdrOpc m.hdr = 0x31 →
    m.bad = false → (fld (group m) 43 21 : BitVec 21) = s.moduleNumber → (∃ p ∈ s.links, p.2.up = true) →
    s.siteOfName (siteField site) m.msg.launch (hdrDest m.hdr) = some site →
    (reads m → bs.length = m.clBytes) → (¬ reads m → bs = []) →
    s.joinPart { cmd := m, site := site, since := s.tick site, far := some bs } = .ok t → s.farPart site m bs = .next t) ∧
  (∀ (s t : State) (idx : Nat) (p : ClPart) (detail : BitVec 16) (bs : List (Byte × Bool)), s.parts[idx]? = some p →
    (fld (group p.cmd) 43 21 : BitVec 21) ≠ s.moduleNumber → p.far = none →
    let u : State := { s with parts := s.parts.filter (fun q => decide (q ≠ p)) }
    (detail = 2 ∨ detail = 3 → s.farResult idx 0x01 detail bs = .next (u.endCmd p.site p.cmd.seq 0x01 detail)) ∧
    (s.farResult idx 0x31 0 bs = .next (u.endCmd p.site p.cmd.seq 0x31 0)) ∧
    (bs.length = p.cmd.clBytes → detail.toNat < (if hdrOpc p.cmd.hdr = 0x30 then 32 else 1) →
      ¬ (hdrOpc p.cmd.hdr = 0x31 ∧ reads p.cmd) →
      (if bs.any Prod.snd then u.taint p.cmd.msg.launch else u).partResult p bs (detail.setWidth 5) = .ok t →
      s.farResult idx 0 detail bs = .next t)))

/-- A copy within the cluster reads every source byte before it writes any, so that overlapping ranges copy right; a
fill writes its bytes; the bytes of the destination take those values, and no other byte of that scratchpad, no other
tile and nothing else of the machine changes. After R205, R210. -/
def Obligations.CopiesMoveBytes : Prop :=
  ∀ (s : State) (sp : Space) (site launch n : Nat) (a b : Word) (bs : List Byte), s.localOk site b n →
    let to_ := clusterSite site (locTile b)
    let from_ := clusterSite site (locTile a)
    (s.tile to_).spad.wf = true →
    (s.localOk site a n → (s.tile from_).sound → ∃ t, s.moveAll sp site launch [.copy a b n] = .ok t ∧
      (∀ k, k < n → (t.tile to_).spad.read (locOff b + k) = (s.tile from_).spad.read (locOff a + k)) ∧
      (∀ k, k < locOff b ∨ locOff b + n ≤ k → (t.tile to_).spad.read k = (s.tile to_).spad.read k) ∧
      (∀ k, k ≠ to_ → t.tile k = s.tile k) ∧ { t with tiles := s.tiles } = s) ∧
    (bs.length = n → ∃ t, s.moveAll sp site launch [.give bs b] = .ok t ∧
      (∀ k, k < n → (t.tile to_).spad.read (locOff b + k) = bs[k]!) ∧
      (∀ k, k < locOff b ∨ locOff b + n ≤ k → (t.tile to_).spad.read k = (s.tile to_).spad.read k) ∧
      (∀ k, k ≠ to_ → t.tile k = s.tile k) ∧ { t with tiles := s.tiles } = s)

/-- A command that may not start changes nothing; a failed FOLLOW predecessor ends it with STATUS 0xF1 and that STATUS
in DETAIL; a malformed one ends with STATUS 1; one below 0x30 that e6 has for a name that no tile of the launch holds
ends with LOCALRANGE and detail 2. A command whose work is done sends its completion word to its port's partner, of
the run that wrote it, when REPLY asks for it or its STATUS is not 0; the word has STATUS in [63:56], CHAN in [55:50],
the tile's name in [39:24], DETAIL in [23:8], TAG in [7:0] and zero elsewhere. COPYMMA's item is placed after its
copy, whose ranges retire; an item that starts runs on the banks of the task that wrote it and holds the array, one
whose issue fraction is 0 waits; when its time is over the array is free and its command has ended. Which banks an
item of a task that has left uses, that an item acts when it starts, when its ranges retire and which commands FOLLOW
names are the model's readings and choices (logs 17, 39, 67 and 68). After R90 to R92, R205, R206, R191, R192, R212,
R215. -/
def Obligations.EngineItemsAndCompletions : Prop :=
  (
  (∀ (opc : Nat) (e : Nat → Nat → Instr) (s : State) (site idx : Nat) (m : Cmd), EngineCmd opc e →
    s.cmdAt site idx = some m → hdrOpc m.hdr = opc →
    let t := s.tile site
    let u := s.startCmd site idx m
    (t.mayStart m = false → exec (e site idx) s = .next s) ∧
    (∀ i : Instr, i = e site idx ∨ (i = .engineCompletion site idx ∧ m.finished = false ∧ m.ended = false) →
      t.mayStart m = true →
      (∀ st, t.cancelled m = some st → exec i s = .next (u.endCmd site m.seq 0xF1 (st.setWidth 16))) ∧
      (t.cancelled m = none → m.bad = true → exec i s = .next (u.endCmd site m.seq 0x01 0))) ∧
    (t.mayStart m = true → t.cancelled m = none → m.bad = false → m.port = 6 → m.remote = false → opc < 0x30 →
      u.siteOfName (siteField site) m.msg.launch (hdrDest m.hdr) = none →
      exec (e site idx) s = .next (u.endCmd site m.seq Code.localrange.num 2))) ∧
  (∀ (s : State) (site idx slot : Nat) (m : Cmd) (c : Ctx), s.cmdAt site idx = some m → m.ended = true →
    m.finished = false → m.port = 0 ∨ m.port = 2 ∨ m.port = 4 → s.writerOf site m = some slot →
    s.ctx? site slot = some c → hdrHurd m.hdr = false → (vget [] c.inp (m.port / 2)).length < 16 →
    let w := completionWord m.status (fld m.hdr 50 6) (s.nameOf site) m.detail (hdrTag m.hdr)
    let due := vget [] c.inp (m.port / 2) ++ [w]
    ∃ t d, exec (.engineCompletion site idx) s = .next t ∧ t.ctx? site slot = some d ∧
      (hdrReply m.hdr = true ∨ m.status ≠ 0 → d = { c with inp := vput c.inp (m.port / 2) due }) ∧
      (hdrReply m.hdr = false → m.status = 0 → d = c) ∧
      t.mem = s.mem ∧ (∀ k, (t.tile k).spad = (s.tile k).spad)) ∧
  (∀ (status : BitVec 8) (chan : BitVec 6) (src detail : BitVec 16) (tag : BitVec 8),
    (completionWord status chan src detail tag).toNat =
      2 ^ 56 * status.toNat + 2 ^ 50 * chan.toNat + 2 ^ 24 * src.toNat + 2 ^ 8 * detail.toNat + tag.toNat)) ∧
  (
  (∀ (s : State) (site idx : Nat) (m : Cmd), s.cmdAt site idx = some m → m.copied = true → m.ended = false →
    ∃ t, exec (.copymmaMatrixWork site idx) s = .next t ∧
      (t.tile site).items = (s.tile site).items ++ [m.item (m.word 4) (m.word 5) (m.word 6) (m.word 7)] ∧
      ∀ k, k < 16 → ∀ r ∈ (t.tile (clusterSite site k)).ranges, ¬ (r.site = site ∧ r.seq = m.seq)) ∧
  (∀ (s t : State) (site : Nat) (m : Cmd) (i : MatItem) (l : List Nat), (s.tile site).array = none →
    (s.tile site).nextItems = l → l ≠ [] →
    (s.tile site).items[(l[(s.choose l.length).1]?).getD 0]? = some i → (s.tile site).cmdOf i.seq = some m →
    (s.choose l.length).2.startItem site m i = .ok t → exec (.matrixItemStart site) s = .next t) ∧
  (∀ (s : State) (site slot : Nat) (m : Cmd) (i : MatItem) (c : Ctx) (w : MatWork),
    opClass (siteClass site) (ctlOp i.ctl) (ctlBank i.ctl) = true →
    s.matWork site (ctlOp i.ctl) (ctlZero i.ctl) (ctlBank i.ctl) i.a i.b i.cfg i.fz = .ok w →
    s.writerOf site m = some slot → s.ctx? site slot = some c →
    (c.matFraction (siteClass site) = 0 → s.startItem site m i = .ok (s.itemWaits site i.seq)) ∧
    (c.matFraction (siteClass site) ≠ 0 → (∀ r ∈ w.ranges, (s.tile r.1).sound) →
    ∃ t, s.startItem site m i = .ok t ∧
      t.ctx? site slot = some { c with acc := (w.run c.banks).1.acc, mstat := (w.run c.banks).1.mstat } ∧
      (t.tile site).array =
        some ⟨itemTicks w.ts (c.matFraction (siteClass site)), some slot, some i.seq, false, false⟩ ∧
      (∀ x ∈ (t.tile site).items, x.seq ≠ i.seq) ∧ t.mem = s.mem ∧ (∀ k, (t.tile k).spad = (s.tile k).spad))) ∧
  (∀ (s : State) (site : Nat) (a : ArrayItem), (s.tile site).array = some a →
    (a.ticks ≠ 0 → exec (.matrixItemRetire site) s = .next s) ∧
    (a.ticks = 0 → ∃ t, exec (.matrixItemRetire site) s = .next t ∧ (t.tile site).array = none ∧
      ∀ q, a.seq = some q → ∀ m ∈ (t.tile site).cmds, m.seq = q → m.ended = true)))

/-! ## Events of tasks, tokens and launches -/

/-- A message for a tile that the launch does not hold is turned back with LOCALRANGE and detail 2, one for a handler
without an address with ILLOP and detail 4; else it becomes the last task of the inbox with the next TASKID. An idle
tile whose one candidate is a message starts its task at the handler's address, cut to the 57 bits and zero low bits
of a pc, which is the model's choice (log 84), with zero registers and the message in e7. A snapshot is written to its
slot of the launch's area (log 45), and its ranges end; an idle tile arrives at the running step phase. A pair in
flight enters its Fold on chip while no pair is in the spill area and an entry is free, else the spill area, where its
32 bytes are written (log 57), while that has room, and else stays. The finished task of a domain that equals the
horizon, on whatever tile: its buffered effects are checked in program order; when they pass and their pairs have room
it commits: what they wrote stands, a store's bytes and no others of its line, later tasks of the domain that
registered on a written line are aborted, running or finished, then pairs, commands and messages leave in the order
written, its TSTAMP becomes that of the last committed task and it leaves the tile; a check that fails, or pairs
without room (FOLDSPILL with detail 1), fails the commit; a conversion that the checks need is made first and they
begin anew (log 38). A counted wait that has lasted WDOG ticks and is not over ends in WAITTMO at the word that waits;
before that nothing happens; which waits count is the model's choice (log 42). After R23, R109, R219, R250 to R253,
R258, R259, R261, R274, R33, R42, R266, R267, R271. -/
def Obligations.TasksComeAndCommit : Prop :=
  (
  (∀ (s : State) (idx site : Nat) (m : Message) (l : Launch), s.mesh[idx]? = some (.message site m none none) →
    s.launch? m.launch = some l → l.cancelled = false →
    ((s.tile site).launch ≠ some m.launch → exec (.messageAccept idx) s =
      .next ((({ s with mesh := s.mesh.eraseIdx idx } : State).turnBack m none .localrange 2).reband m.launch)) ∧
    ((s.tile site).launch = some m.launch → s.overtakes idx site m = false → (s.tile site).awake = true →
      (s.tile site).inbox.length < 32 →
      (vget 0 ((s.tile site).handler m.chan) 0 = 0 → exec (.messageAccept idx) s =
        .next ((({ s with mesh := s.mesh.eraseIdx idx } : State).turnBack m none .illop 4).reband m.launch)) ∧
      (vget 0 ((s.tile site).handler m.chan) 0 ≠ 0 → ∃ t, exec (.messageAccept idx) s = .next t ∧
        (t.tile site).inbox = (s.tile site).inbox ++ [{ msg := m, id := sget 0 m.dom.toNat (s.vi m.vi).taskids }] ∧
        sget 0 m.dom.toNat (t.vi m.vi).taskids = sget 0 m.dom.toNat (s.vi m.vi).taskids + 1 ∧
        t.mesh = s.mesh.eraseIdx idx ∧ t.mem = s.mem ∧ t.l2 = s.l2))) ∧
  (∀ (s : State) (site : Nat) (k : Task) (l : Launch), (s.tile site).awake = true → (s.tile site).launch.isSome = true →
    (∀ j, s.ctx? site j = none) → (s.tile site).preempt = none → (s.tile site).inbox = [k] → s.luTasks = [] →
    (s.tile site).open_ k.msg.chan = true → s.snapRoom site k = true → s.launch? k.msg.launch = some l →
    ∃ t c, exec (.taskSelect site) s = .next t ∧ (t.tile site).cur = some 0 ∧ t.ctx? site 0 = some c ∧
      (t.tile site).inbox = [] ∧ c.task.msg = k.msg ∧ c.task.id = k.id ∧
      c.pc = pcCut (vget 0 ((s.tile site).handler k.msg.chan) 0) ∧ c.x = Vector.replicate 48 0 ∧
      c.s = Vector.replicate 48 0 ∧ vget [] c.inp 3 = k.msg.words ∧ c.front = [] ∧ c.buf = []) ∧
  (∀ (s : State) (site slot : Nat),
    let free (u : State) : State := u.modTile site (fun t => { t with
      ranges := t.ranges.filter (fun r => r.seq != snapSeq slot) })
    let held : Prop := ∃ r ∈ (s.tile site).ranges, r.seq = snapSeq slot
    (∀ c x, s.ctx? site slot = some c → c.task.snap = some x → held ∨ x.ranges = [] →
      exec (.snapshotLog site slot) s = .next (free (s.logSnap c.task))) ∧
    ((∀ c, s.ctx? site slot = some c → c.task.snap = none ∨ (¬ held ∧ ∀ x, c.task.snap = some x → x.ranges ≠ [])) →
      exec (.snapshotLog site slot) s = .next (free s))) ∧
  (∀ (s : State) (k : Task) (x : Snapshot) (l : Launch), k.snap = some x → s.launch? k.msg.launch = some l →
    let sp : Space := { cluster := none, vi := l.vi, asid := l.asid, launch := some k.msg.launch }
    let place : Word := (fld (l.word 12) 0 57).setWidth 64 + BitVec.ofNat 64 x.slot
    s.logSnap k = x.hurtAt.foldl (fun s o => s.areaPoison sp (place + BitVec.ofNat 64 o))
      (s.areaWrite sp place (x.image k.msg.words)) ∧ (x.poison = [] → x.hurtAt = [])) ∧
  (∀ (s : State) (site id : Nat) (l : Launch), (s.tile site).launch = some id → s.launch? id = some l →
    ((s.tile site).resident = [] → (s.tile site).runnable = false → l.holdsCell site = true →
      ∃ t x, exec (.stepIdleArrival site) s = .next t ∧ t.launch? id = some x ∧ site ∈ x.stepArr) ∧
    ((s.tile site).resident ≠ [] ∨ (s.tile site).runnable = true → exec (.stepIdleArrival site) s = .next s)) ∧
  (∀ (s : State) (idx f : Nat) (p : Pair), s.mesh[idx]? = some (.pair f p) →
    let d := (s.field f).fold
    let e := s.enteredPair p
    (d.spilled = 0 → d.onChip < 8192 → ∃ t, exec (.foldPush idx) s = .next t ∧ t.mesh = s.mesh.eraseIdx idx ∧
      (t.field f).fold.entries = d.entries ++ [⟨e, false, false, 0⟩]) ∧
    (d.spilled ≠ 0 ∨ 8192 ≤ d.onChip → d.spilled < s.spillOf p.launch → ∃ t, exec (.foldPush idx) s = .next t ∧
      t.mesh = s.mesh.eraseIdx idx ∧ (t.field f).fold.entries = d.entries ++ [⟨e, true, false, d.freeSlot⟩]) ∧
    (d.spilled ≠ 0 ∨ 8192 ≤ d.onChip → s.spillOf p.launch ≤ d.spilled → exec (.foldPush idx) s = .next s)) ∧
  (∀ (s : State) (f k : Nat) (p : Pair) (l : Launch), s.launch? p.launch = some l →
    s.spillPair f p k = s.areaWrite { cluster := none, vi := l.vi, asid := l.asid, launch := some p.launch }
      ((fld (l.word 9) 0 57).setWidth 64 + BitVec.ofNat 64 (32 * (l.spillN * sget 0 f l.shares + k)))
      (wordsBytes [p.a.setWidth 64, p.b.setWidth 64, (p.dom ++ p.ts).setWidth 64, 0]))) ∧
  (
  (∀ (s : State) (site : Nat) (c : Ctx) (la : Launch) (h : Place),
    let dom := c.task.msg.dom
    let vi := c.task.msg.vi
    let sp : Space := { s.spaceOf site with vi := vi, asid := la.asid, launch := some c.task.msg.launch, base := some s }
    let x : Actor := { s.actor site c with sp := sp, commit := some c.task.key }
    let finished := (s.tiles.map (fun p => (p.2.done.filter (fun d => d.task.inDom vi dom)).map (fun d => (p.1, d)))).flatten
    dom ≠ 0 → s.launch? c.task.msg.launch = some la → s.horizon vi dom = some h →
    finished.find? (fun p => (p.2.task.msg.ts, some p.2.task.id) == h) = some (site, c) →
    (∀ (l : List (Effect × List (Nat × Pair))) (u : State), s.commitAll x c c.buf = .ok (l, u) →
      (s.roomFor (l.map Prod.snd).flatten = true →
        let sent := l.foldl (fun t e => t.commitSend x c e) u
        let left := ((sent.releaseReaders vi dom c.task.id).dropDone site c).consumeSpent c
        let t := ((left.modVI vi (fun v => { v with lastCommit := sset dom.toNat c.task.msg.ts v.lastCommit })).taskEnded c
          ).reband c.task.msg.launch
        exec (.commit vi dom.toNat) s = .next t ∧ sget? dom.toNat (t.vi vi).lastCommit = some c.task.msg.ts ∧
          (t.tile site).done = (u.tile site).done.erase c) ∧
      (s.roomFor (l.map Prod.snd).flatten = false → ∃ pc, exec (.commit vi dom.toNat) s =
        .next (s.commitFails x c { code := .foldspill, detail := 1 } pc))) ∧
    (∀ (k : Trap) (pc : Word), s.commitAll x c c.buf = .error (.trap k, pc) →
      exec (.commit vi dom.toNat) s = .next (s.commitFails x c k pc)) ∧
    (∀ (u : State) (pc : Word), s.commitAll x c c.buf = .error (.goto u, pc) → s.framesLeft ≠ 0 →
      exec (.commit vi dom.toNat) s = u.commitFrom site c (s.framesLeft - 1))) ∧
  (∀ (s s1 u : State) (x : Actor) (c : Ctx) (e : Effect) (r : List Effect) (ps : List (Nat × Pair))
      (l : List (Effect × List (Nat × Pair))) (k : Stop), s.commitAll x c [] = .ok ([], s) ∧
    (s.commitOne x c e = .ok (ps, s1) → s1.commitAll x c r = .ok (l, u) → s.commitAll x c (e :: r) = .ok ((e, ps) :: l, u)) ∧
    (s.commitOne x c e = .error k → s.commitAll x c (e :: r) = .error (k, e.pc))) ∧
  (∀ (s s1 : State) (x : Actor) (c : Ctx) (va pc : Word) (bs : List Byte) (leaf : Leaf) (k : LineKey),
    s.reach x.sp .store va = .ok (leaf, k, s1) → k.exists = true → s1.mem.wf = true → va.toNat % 64 + bs.length ≤ 64 →
    ∃ t, s.commitOne x c (.store va bs pc) = .ok ([], t) ∧ lineBytes (t.lineAt k) (va.toNat % 64) bs.length = bs ∧
      ∀ o, o < 64 → o < va.toNat % 64 ∨ va.toNat % 64 + bs.length ≤ o →
        lineBytes (t.lineAt k) o 1 = lineBytes (s1.lineAt k) o 1) ∧
  (∀ (s : State) (x : Actor) (k : LineKey) (me : BitVec 32 × BitVec 32) (id : BitVec 32) (task : Task)
      (rs : List (Nat × BitVec 8 × BitVec 32)), x.commit = some me → s.readers.find? (·.1 == k) = some (k, rs) →
    rs.filter (fun r => r.1 == x.vi && r.2.1 == x.dom) = [(x.vi, x.dom, id)] →
    (s.noteHbm x.site k).allTasks.find? (fun t => t.inDom x.vi x.dom && t.id == id) = some task →
    s.wroteLine x k = (if taskLt me task.key then (s.noteHbm x.site k).abortTask x.vi x.dom id else s.noteHbm x.site k)) ∧
  (∀ (s : State) (vi site slot : Nat) (dom : BitVec 8) (id : BitVec 32) (c : Ctx),
    let mine (d : Ctx) : Prop := d.task.msg.vi = vi ∧ d.task.msg.dom = dom ∧ d.task.id = id
    let t := s.abortTask vi dom id
    (s.tile site).launch = some c.task.msg.launch → mine c →
    (s.ctx? site slot = some c → (∀ j d, j < slot → s.ctx? site j = some d → ¬ mine d) →
      t.ctx? site slot = none ∧ c.task ∈ (t.tile site).inbox) ∧
    ((s.tile site).done.find? (fun d => d.task.msg.vi == vi && d.task.msg.dom == dom && d.task.id == id) = some c →
      c.task ∈ (t.tile site).inbox) ∧ (∀ d ∈ (t.tile site).done, ¬ mine d) ∧ t.mem = s.mem ∧ t.l2 = s.l2) ∧
  (∀ (s : State) (site slot : Nat) (m : Stream) (c : Ctx) (w : Wait), s.ctx? site slot = some c → c.waitOf m = some w →
    let late : Prop := w.kind.counted = true ∧ s.waitOver site slot c w ≠ some true ∧ w.since + (s.tile site).wdog.toNat ≤ s.tick site
    (late → exec (.waitWatchdogExpiry (.ctx site slot m)) s =
      .next (s.abortFault site slot { code := .waittmo } (c.pcOf m))) ∧
    (¬ late → exec (.waitWatchdogExpiry (.ctx site slot m)) s = .next s)))

/-- The open requests of a field stand by priority, then age. A grant fills the one open request from the free tokens
within the tile's and the interface's room, an engine holding counting within its tile's 128, which is the model's
choice (log 105); loans are whole multiples of 16 between adjacent fields, keep the borrower's pool in its limit, and
are made when the lender can spare them; a loan that arrives counts as borrowed and serves the open requests, and
where none lacks tokens what nobody recalled goes back at once, the model's choice (log 87); a recall is paid from
free tokens first; a revocation puts tokens of a target under notice for 2,048 ticks, and a request open for 100
reference ticks revokes from a holder of lower priority what neither free tokens nor notices give it after those
before it in that order, which is the model's reading (log 106); a notice that ends is gone; tokens lent to a task,
named by interface, domain and TASKID, arrive in its holding; a power cut takes one eighth of every share, as far as a
share stays within its limit (log 86). That a loan is settled in one act is the model's reading (log 54). After R118,
R302 to R305, R408. -/
def Obligations.TokensMove : Prop :=
  (∀ (s : State) (f : Nat), (s.openRequests f).Pairwise (fun p q => s.holdPrio q.1 q.2 < s.holdPrio p.1 p.2 ∨
    (s.holdPrio p.1 p.2 = s.holdPrio q.1 q.2 ∧
      ((s.holding? p.1 p.2).map (·.ord)).getD 0 ≤ ((s.holding? q.1 q.2).map (·.ord)).getD 0))) ∧
  (∀ (s : State) (f : Nat) (p : Nat × Nat) (h : Holding), s.requests f = [p] → s.holding? p.1 p.2 = some h →
    let g := min (min h.want (s.field f).drover.free)
      (min (s.tileRoom p.1) (((s.holdVI p.1).map s.capRoom).getD 0))
    ∃ t, exec (.droverGrant f) s = .next t ∧ (t.field f).drover.free + g = (s.field f).drover.free ∧
      t.holding? p.1 p.2 = some (if g = 0 then h
        else { h with own := h.own + g, want := h.want - g, opened := decide (h.want ≠ g) })) ∧
  (∀ (s : State) (f g : Nat), ∃ t n, exec (.loanRequest f g) s = .next t ∧ n % 16 = 0 ∧
    t.mesh = s.mesh ++ (if n = 0 then [] else [.loan g f n]) ∧
    (t.field g).drover.free + n = (s.field g).drover.free ∧
    sget 0 f (t.field g).drover.lent = sget 0 f (s.field g).drover.lent + n ∧
    (n ≠ 0 → adjacentFields f g = true ∧ (s.field f).drover.pool + s.loansTo f + n ≤ 3072 ∧
      n ≤ (s.field g).drover.free - s.lacking g) ∧
    (adjacentFields f g = true → f < 84 → g < 84 → (s.field f).drover.free + s.loansTo f < s.lacking f →
      16 ≤ (s.field g).drover.free - s.lacking g → 16 ≤ (s.field g).drover.share - sumCounts (s.field g).drover.lent →
      (s.field f).drover.share + sumCounts (s.field f).drover.borrowed + s.loansTo f + 16 ≤ 3072 → n ≠ 0)) ∧
  (∀ (s : State) (idx l b n : Nat), s.mesh[idx]? = some (.loan l b n) → 
    let u := ({ s with mesh := s.mesh.eraseIdx idx } : State).modField b (fun x => ({ x with drover := { x.drover with
      free := x.drover.free + n, borrowed := sset l (sget 0 l x.drover.borrowed + n) x.drover.borrowed } } : Field).count 2 1)
    exec (.loanComplete idx) s = .next (if u.lacking b = 0 then u.repay b else u.grant b)) ∧
  (∀ (s : State) (g b : Nat),
    let asked := (((s.field b).drover.recalls.filter (fun r => r.lender == g)).map (·.n)).foldl (· + ·) 0
    let n := min (s.lacking g - (s.field g).drover.free) (sget 0 g (s.field b).drover.borrowed - asked)
    let paid := min n (s.field b).drover.free
    exec (.loanRecall g b) s = .next (if n = 0 then s else (s.modField b (fun x => { x with drover := { x.drover with
      free := x.drover.free - paid, recalls := x.drover.recalls ++ [⟨g, n⟩] } })).gainTokens b paid)) ∧
  (∀ (s : State) (f site slot n : Nat) (h : Holding), s.debt f ≠ 0 → (site, slot) ∈ s.targets f s.holdings →
    s.holding? site slot = some h → h.notice = 0 → n ≠ 0 →
    ∃ t w, exec (.revocation f site slot n) s = .next t ∧ t.holding? site slot =
      some { h with notice := min (min n (s.debt f)) (h.countedIn site f), left := 2048, why := w, by_ := f }) ∧
  (∀ (s : State) (site slot k : Nat) (h : Holding) (q : Nat × Nat), s.holding? site slot = some h → h.isOpen = true →
    h.since + 100 ≤ s.refTicks →
    let f := siteField site
    let n := min h.want (s.lackingTo f (site, slot) - (s.underNotice f false + (s.field f).drover.free))
    let l := s.holdings.filter (fun q => decide (s.holdPrio q.1 q.2 < s.holdPrio site slot))
    n ≠ 0 → k = (s.choose (s.targets f l).length).1 → (s.targets f l)[k]? = some q →
    exec (.openRequestTimeout site slot) s =
      .next ((s.choose (s.targets f l).length).2.revoke f l q.1 q.2 n .request)) ∧
  (∀ (s : State) (site slot : Nat) (h : Holding), s.holding? site slot = some h →
    (h.notice ≠ 0 → h.left = 0 → (s.tile site).array = none →
      ∃ t x, exec (.noticeEnd site slot) s = .next t ∧ t.holding? site slot = some x ∧ x.notice = 0 ∧
        x.own ≤ h.own ∧ x.want = h.want) ∧
    (h.notice = 0 ∨ h.left ≠ 0 → exec (.noticeEnd site slot) s = .next s)) ∧
  (∀ (s : State) (idx site slot : Nat) (task : TaskKey) (loan : Loan) (c : Ctx),
    s.mesh[idx]? = some (.tokens site task loan) → (s.tile site).slotOf task = some slot → s.ctx? site slot = some c →
    loan.n ≠ 0 → loan.n ≤ s.tileRoom site → ∃ t, exec (.lentTokensArrive idx) s = .next t ∧
      t.ctx? site slot = some { c with tok := { c.tok with loans := c.tok.loans ++ [loan] } } ∧
      t.mesh = s.mesh.eraseIdx idx) ∧
  (∀ s : State, (∀ f, f < 84 → (s.field f).drover.share - (s.field f).drover.share / 8 ≤ s.shareMax f) →
    ∃ t, exec .powerLimitCut s = .next t ∧ ∀ f, f < 84 → (t.field f).drover.share = (s.field f).drover.share - (s.field f).drover.share / 8)

/-- A slot store sets its doubleword and no other; a full slot's record enters the queue with the next QSEQ and the
slot is empty; a store to a disabled queue is a violation. A malformed record completes with STATUS 1 and the first
bad doubleword; a good one is valid. A valid head whose dependencies are met and that is not held starts on a grant
that fits: the launch has the granted fields, placed cells and the queue's identity; its initial pairs enter their
Folds with TS 0 and its domain, or it fails with FOLDSPILL and detail 1, and each tile with a handler at the start
channel gets a start message. A launch completes when nothing of it is under way, and not before, with STATUS, DETAIL,
VERD, QUEUE, SEQ, COOKIE, TSTART, TEND, TASKS, ABORTS, LEFTPAIRS and FIELDS in its record, which goes to ring entry
CQTAIL mod 2^CQLOG with PH in word 7; CQTAIL rises and IRQ raises IVEC; while the ring is full it waits in QSEQ order;
a tile is cleared when its time is over. A task's request enters a queue that takes requests, or is turned back with
PROT; at a full queue it waits, and after WDOG ticks is turned back with WAITTMO. Release marks the held head of that
QSEQ; a release of any other head, of one that is not held or of an empty queue is a violation. Cancel completes the
waiting record named with STATUS 0xF0, or cancels the running launch, whose pairs are gone; one that names neither is
a violation. A standing reservation within a field's pages is kept, and one for an ASID outside the interface's range
is a violation; CQHEAD takes what is written. Which bits validation checks, when tables are read and what a full ring
does are the model's readings (logs 47, 48, 49 and 76). After R249, R353 to R365. -/
def Obligations.LaunchesRun : Prop :=
  (∀ (s : State) (vi q slot : Nat) (off : BitVec 8) (val : Word),
    let old := (s.vi vi).queue q
    (old.en = true → off.toNat % 8 = 0 → sget? (32 * slot + 31) old.slots = none →
      ∃ t, exec (.windowSlotStore vi q slot off val) s = .next t ∧
        sget? (32 * slot + off.toNat / 8) ((t.vi vi).queue q).slots = some val ∧
        (∀ k, k ≠ 32 * slot + off.toNat / 8 → sget? k ((t.vi vi).queue q).slots = sget? k old.slots) ∧
        ((t.vi vi).queue q).recs = old.recs) ∧
    (old.en = false → exec (.windowSlotStore vi q slot off val) s =
      .next (s.modVI vi (·.violate (windowAddr vi q slot off.toNat) 1 q))) ∧
    ((sget? (32 * slot + 31) old.slots).isSome = true → (old.recs.filter (fun r => !r.gone)).length < 64 →
      ∃ t, exec (.recordEnqueue vi q slot) s = .next t ∧ ((t.vi vi).queue q).recs = old.recs ++
          [{ seq := old.qseq, words := (List.range 32).map (fun k => sget 0 (32 * slot + k) old.slots) }] ∧
        ((t.vi vi).queue q).qseq = old.qseq + 1 ∧ ∀ k, k / 32 = slot → sget? k ((t.vi vi).queue q).slots = none)) ∧
  (∀ (s : State) (vi q : Nat) (r : QRec) (rest : List QRec), ((s.vi vi).queue q).recs = r :: rest → r.valid = false →
    (∀ k, firstBad r.words = some k →
      exec (.recordValidation vi q) s = .next (s.completeRecord vi q r 0x01 (BitVec.ofNat 32 k))) ∧
    (∀ t s1, firstBad r.words = none →
      s.luTables (luSpace vi ((s.vi vi).queue q).asid.toNat) (wordAt r.words 7) = .ok (t, s1) → tablesBad t = false →
      ∃ u, exec (.recordValidation vi q) s = .next u ∧
        ∀ x ∈ ((u.vi vi).queue q).recs, x.seq = r.seq → x.valid = true)) ∧
  (∀ (s s1 : State) (vi q : Nat) (r : QRec) (rest : List QRec) (grant : List Nat)
      (tb : Vector (Sparse (Vector Word 4)) 4) (wd fr ps : List Word) (cells : Sparse Nat),
    ((s.vi vi).queue q).recs = r :: rest → r.valid = true → s.depsMet vi q r = true → s.headHeld vi q = false →
    let asid := ((s.vi vi).queue q).asid.toNat
    grantOk (s.freeFields vi asid (fld (wordAt r.words 10) 48 11).toNat) grant (fld (wordAt r.words 1) 0 8).toNat
      (fld (wordAt r.words 1) 8 8).toNat = true →
    s.luLists (luSpace vi asid) r.words = .ok (tb, wd, fr, ps, s1) →
    placeCells (newLaunch vi q r asid grant tb wd fr) grant (fun x => (s1.tile x).grantable) = some cells →
    (∃ t l, exec (.launchStart vi q grant) s = .next t ∧ t.launch? s1.nextLaunch = some l ∧ l.fields = grant ∧
      l.cells = cells ∧ l.vi = vi ∧ l.queue = q ∧ l.seq = r.seq ∧ l.asid = asid ∧ t.nextLaunch = s1.nextLaunch + 1) ∧
    ∃ (u : State) (l : Launch), exec (.launchStart vi q grant) s = .next (u.startNet s1.nextLaunch l ps) ∧ l.rec_ = r.words ∧ l.cells = cells ∧
      l.vi = vi ∧ l.asid = asid ∧ l.tables = tb ∧ u.launch? s1.nextLaunch = some l) ∧
  (∀ (s s1 : State) (id : Nat) (l : Launch) (ps : List Word) (fs : List (Nat × Pair)),
    let x : Actor := { site := 0, sp := { luSpace l.vi l.asid with launch := some id }, launch := id, vi := l.vi, dom := l.dom }
    s.pairFolds x (pairsOf id l.dom ps) = .ok (fs, s1) →
    (s1.roomFor fs = true → s.startNet id l ps =
      ((fs.foldl (fun s p => (s.enterPair p.1 p.2).getD s) s1).reband id).startMessages id l) ∧
    (s1.roomFor fs = false → s.startNet id l ps = s1.modLaunch id (fun l => { l with failed := some (Code.foldspill.num, 1) }))) ∧
  (∀ (id : Nat) (dom : BitVec 8) (w0 w1 w2 w3 : Word) (r : List Word) (s s1 s2 : State) (x : Actor) (p : Pair) (ps : List Pair)
      (f : Nat) (l : List (Nat × Pair)), pairsOf id dom [] = [] ∧
    pairsOf id dom (w0 :: w1 :: w2 :: w3 :: r) = ⟨fld w0 0 51, fld w1 0 51, 0, dom, id⟩ :: pairsOf id dom r ∧
    s.pairFolds x [] = .ok ([], s) ∧
    (s.nodeField x p.a = .ok (f, s1) → s1.pairFolds x ps = .ok (l, s2) → s.pairFolds x (p :: ps) = .ok ((f, p) :: l, s2)) ∧
    ((s.field f).fold.spilled = 0 → (s.field f).fold.onChip < 8192 → ∃ t, s.enterPair f p = some t ∧
      (t.field f).fold.entries = (s.field f).fold.entries ++ [⟨s.enteredPair p, false, false, 0⟩])) ∧
  (∀ (s : State) (id : Nat) (l : Launch), ∃ ms : List Flight,
    s.startMessages id l = { s with mesh := s.mesh ++ ms } ∧
    ∀ m, m ∈ ms ↔ ∃ k site, (k, site) ∈ l.cells ∧
      vget 0 (sget (Vector.replicate 4 (0 : Word)) (fld (l.word 0) 23 6 : BitVec 6).toNat
        (vget [] l.tables (siteClass site).code)) 0 ≠ 0 ∧
      m = .message site { words := [BitVec.ofNat 64 (0x40 * 2 ^ 56 + 2 ^ 50 * (fld (l.word 0) 23 6 : BitVec 6).toNat +
        2 ^ 24 * (s.nameOf site).toNat)], vi := l.vi, launch := id, dom := 0, ts := 0, ec := fld (l.word 0) 40 3, sender := 0xFFFF }
        none none) ∧
  (∀ (s : State) (id : Nat) (l : Launch), s.launch? id = some l →
    (s.launchBusy id = true → exec (.launchCompletion id) s = .next s) ∧
    (s.launchBusy id = false → (∃ t, exec (.launchCompletion id) s = .next t ∧ t.launch? id = none) ∧
      let left := (s.fields.map (fun p => (p.2.fold.entries.filter (fun e => e.pair.launch = id)).length)).sum
      let r := l.result left
      let u := ((({ s.giveBack id l (r.verd == 2) with
          launches := sdel id (s.giveBack id l (r.verd == 2)).launches } : State).rebandDom l.vi l.dom).modQueue l.vi l.queue
        (fun q => { q with tainted := q.tainted || r.verd == 2 }))
      exec (.launchCompletion id) s = .next (u.complete l.vi l.queue l.seq l.rec_ r))) ∧
  (∀ (l : Launch) (left : Nat),
    let r := l.result left
    (∀ p, l.failed = some p → r.status = p.1 ∧ r.detail = p.2) ∧
    (l.failed = none → r.status = (if l.cancelled = true then 0xF0 else 0) ∧ r.detail = 0) ∧
    (r.status ≠ 0 ∨ l.tainted = true → r.verd = 2) ∧
    (r.status = 0 → l.tainted = false → r.verd = if l.corrected = true then 1 else 0) ∧
    r.start = (if l.ran = true then l.started else 0) ∧ r.tasks = l.tasks ∧ r.aborts = l.aborts ∧ r.left = left ∧
    r.fields = l.fields.length) ∧
  (∀ (r : Result) (q : Nat) (seq : BitVec 32) (rec_ : List Word) (now : Word), q < 32 → r.left < 2 ^ 32 → r.fields < 2 ^ 8 →
    (r.words q seq rec_ now).map BitVec.toNat = [2 ^ 56 * r.status.toNat + 2 ^ 54 * r.verd.toNat + 2 ^ 43 * q + seq.toNat,
      (wordAt rec_ 18).toNat, r.start.toNat, now.toNat, 2 ^ 32 * r.detail.toNat + r.tasks.toNat,
      2 ^ 32 * r.left + r.aborts.toNat, r.fields, 0]) ∧
  (∀ (s : State) (vi qn : Nat) (seq : BitVec 32) (rec_ : List Word) (r : Result),
    let q := (s.vi vi).queue qn
    let ws := r.words qn seq rec_ s.gtime
    let irq := (wordAt rec_ 0).getLsbD 37
    let log := q.cqlog.toNat
    q.pending = [] →
    (2 ^ log ≤ (q.cqtail - q.cqhead).toNat → s.complete vi qn seq rec_ r =
      s.modQueue vi qn (fun q => { q with pending := [(ws, irq)] })) ∧
    ((q.cqtail - q.cqhead).toNat < 2 ^ log →
      let t := s.complete vi qn seq rec_ r
      let va : Word := BitVec.ofNat 64 (q.cqbase.toNat + 64 * (q.cqtail.toNat % 2 ^ log))
      let ph : Word := if q.cqtail.toNat / 2 ^ log % 2 = 0 then 0x8000000000000000 else 0
      (t.vi vi).queue qn = { q with cqtail := q.cqtail + 1 } ∧
      (t.vi vi).irqs = (s.vi vi).irqs ++ (if irq = true then [q.ivec] else []) ∧
      ∀ leaf n s1, (s.modQueue vi qn (fun q => { q with pending := [(ws, irq)] })).reach (luSpace vi q.asid.toNat) .store va =
          .ok (leaf, .pa n, s1) → va.toNat % 64 = 0 → 64 * n < Config.hbmBytes → s1.stackOk n = true → s1.mem.wf = true →
        t.mem.readN (64 * n) 64 = wordsBytes (ws.take 7 ++ [ph]))) ∧
  (∀ (q : Queue) (ws : List Word) (irq : Bool), ∃ a b, q.pending = a ++ b ∧ (q.pend ws irq).pending = a ++ (ws, irq) :: b ∧
    (∀ p ∈ a, ts32lt ((wordAt p.1 0).setWidth 32) ((wordAt ws 0).setWidth 32) = true) ∧
    (∀ p r, b = p :: r → ts32lt ((wordAt p.1 0).setWidth 32) ((wordAt ws 0).setWidth 32) = false)) ∧
  (∀ (s : State) (site : Nat), ((s.tile site).clearing = some 0 → ∃ t, exec (.tileClear site) s = .next t ∧
      t.tile site = { s.tile site with clearing := none } ∧ ∀ k, k ≠ site → t.tile k = s.tile k) ∧
    ((s.tile site).clearing ≠ some 0 → exec (.tileClear site) s = .next s)) ∧
  (∀ (s s1 : State) (idx since : Nat) (m : Message) (c : Cmd) (ws : List Word), s.mesh[idx]? = some (.request m c since) →
    let hdr := wordAt m.words 0
    let w2 := wordAt m.words 2
    let qn := (fld w2 0 5).toNat
    let queue := (s.vi m.vi).queue qn
    let asid := ((s.launch? m.launch).map (·.asid)).getD 0
    let gone : State := { s with mesh := s.mesh.eraseIdx idx }
    hdrCnt hdr = 2 → hdrChan hdr = 0 → fld w2 5 59 = 0 →
    (queue.dev = false ∨ queue.en = false → exec (.taskLaunchRequest idx) s = .next (gone.turnBack m (some c) .prot 0)) ∧
    (queue.dev = true → queue.en = true → gone.luWords (luSpace m.vi asid) (wordAt m.words 1) 32 = .ok (ws, s1) →
      ((queue.recs.filter (fun r => !r.gone)).length < 64 → exec (.taskLaunchRequest idx) s =
        .next ((s1.modQueue m.vi qn (·.enqueue ws)).messageDone (some c) 0 (queue.qseq.setWidth 16) m.sender)) ∧
      (64 ≤ (queue.recs.filter (fun r => !r.gone)).length → exec (.taskLaunchRequest idx) s = .next s ∧
        exec (.waitWatchdogExpiry (.request idx)) s =
          .next (if since + (s.tile m.sender).wdog.toNat ≤ s.tick m.sender then gone.turnBack m (some c) .waittmo 0 else s)))) ∧
  (∀ (s : State) (vi q : Nat) (seq : BitVec 32),
    (∀ r rest, ((s.vi vi).queue q).recs = r :: rest → r.seq = seq → s.headHeld vi q = true →
      ∃ t, exec (.lcmdRelease vi q seq) s = .next t ∧
        ∀ x ∈ ((t.vi vi).queue q).recs, x.seq = seq → x.released = true) ∧
    ((∀ r rest, ((s.vi vi).queue q).recs = r :: rest → r.seq ≠ seq ∨ s.headHeld vi q = false) →
      exec (.lcmdRelease vi q seq) s = .next (s.modVI vi (·.violate (pageAddr vi 0x28) 3 q))) ∧
    (∀ r, ((s.vi vi).queue q).recs.find? (fun r => r.seq == seq && !r.gone) = some r →
      exec (.lcmdCancel vi q seq) s = .next (s.completeRecord vi q r 0xF0 0)) ∧
    (((s.vi vi).queue q).recs.find? (fun r => r.seq == seq && !r.gone) = none →
      s.launches.find? (fun p => p.2.vi == vi && p.2.queue == q && p.2.seq == seq) = none →
      exec (.lcmdCancel vi q seq) s = .next (s.modVI vi (·.violate (pageAddr vi 0x28) 3 q))) ∧
    (∀ id l, ((s.vi vi).queue q).recs.find? (fun r => r.seq == seq && !r.gone) = none → s.launch? id = some l →
      s.launches.find? (fun p => p.2.vi == vi && p.2.queue == q && p.2.seq == seq) = some (id, l) →
      ∃ t x, exec (.lcmdCancel vi q seq) s = .next t ∧ t.launch? id = some x ∧ x.cancelled = true ∧
        ∀ f p, Flight.pair f p ∈ t.mesh → p.launch ≠ id)) ∧
  (∀ (s : State) (vi : Nat) (val : Word),
    let asid := (fld val 20 12).toNat
    let units := (fld val 8 11).toNat
    let f := (fld val 0 7).toNat
    let others := (((s.field f).reserve.filter (·.asid != asid)).map (fun r => s.units f r.asid)).foldl (· + ·) 0
    ((s.vi vi).hasAsid asid = false → exec (.unbsetWrite vi val) s =
      .next (s.modVI vi (·.violate (pageAddr vi 0x20) 2 0))) ∧
    ((s.vi vi).hasAsid asid = true → f < 84 → others + units ≤ 1536 → ∃ t, exec (.unbsetWrite vi val) s = .next t ∧
      ((t.field f).reserveOf asid).standing = units ∧ (t.vi vi).unbset = val &&& 0xFFF7FF7F)) ∧
  (∀ (s : State) (vi q : Nat) (val : BitVec 32), ∃ t, exec (.cqheadWrite vi q val) s = .next t ∧
    ((t.vi vi).queue q).cqhead = val)

/-- A tile asked to save, for a reason that the spec gives, notes the tick, and is not asked when its image would not
fit beside those already asked; once its contexts are gone and it still fits, its messages and dirty blocks are in the
launch's image, other images staying, the launch leaves it and it is cleared, else its contexts go on (log 96; the fit
is counted as log 44 says). A task that has not reached a safe point in the window is aborted; a saved tile resumes
with those bytes, tags and contexts once it is free, of several launches there the first to leave that no rehome event
holds, the model's choice (log 115), a suspect one too, one that retires not. A step phase completes once all cells
have arrived, and the launch stands at the boundary while a rehome event waits for it; where its cells fit nowhere and
no further field can be added, the launch ends there with STATUS 0x01 and DETAIL 1; launches that do not come to a
boundary in 10^6 reference ticks are asked to save, for a rehome event and for a retiring tile, one that has come to
it not. The rehome event makes the enabled slices the live ones, in every field that it takes in, once all affected
launches are at boundaries; while a slice is left, exactly the dirty backed lines homed in the field leave the home
slices for HBM; which lines those are when no page maps them, and who is affected, are the model's readings (logs 50
and 52). A queued migration moves its page, or, when it does not fit, is dropped with violation 5. After R40, R109,
R276, R277, R285, R286, R294, R389, R413. -/
def Obligations.LaunchesMove : Prop :=
  (∀ (s : State) (site id : Nat) (l : Launch), (s.tile site).launch = some id → s.launch? id = some l →
    (s.tile site).preempt = none →
    let fits : Prop := (s.vi l.vi).imgused.toNat + s.unitsAsked l.vi site +
      imageUnits ((s.savedCtxs site).length + (s.tile site).resident.length) (s.tile site).dirty.length ≤
        (s.vi l.vi).imglen.toNat
    (s.preemptReason l = false ∨ ¬ fits → exec (.preemptRequest site) s = .next s) ∧
    (s.preemptReason l = true → fits → ∃ t, exec (.preemptRequest site) s = .next t ∧
      t.tile site = { s.tile site with preempt := some (s.tick site) } ∧ { t with tiles := s.tiles } = s)) ∧
  (∀ (s : State) (site id : Nat) (l : Launch), (s.tile site).launch = some id → s.launch? id = some l →
    (s.tile site).preempt.isSome = true → (s.tile site).resident = [] → (s.tile site).quiet = true →
    let fits : Prop := (s.vi l.vi).imgused.toNat + s.imageNeed site ≤ (s.vi l.vi).imglen.toNat
    (¬ fits → exec (.preemptRequest site) s = .next (s.keepOn site id l)) ∧
    (fits → ∃ t im, exec (.preemptRequest site) s = .next t ∧ (t.tile site).launch = none ∧
      (t.tile site).clearing = some 4096 ∧ im ∈ t.images ∧ im.site = site ∧ im.launch = id ∧ im.away = true ∧
      im.msgs = (s.tile site).inbox ∧ im.ctxs = s.savedCtxs site ∧
      (∀ i, ¬ (i.site = site ∧ i.launch = id) → (i ∈ t.images ↔ i ∈ s.images)) ∧
      ∀ a, im.bytes.read a = if a / 1024 ∈ (s.tile site).dirty then (s.tile site).spad.read a else 0)) ∧
  (∀ (s : State) (site slot t0 : Nat), (s.tile site).preempt = some t0 →
    exec (.prewinExpiry site slot) s =
      .next (if t0 + (s.tile site).prewin.toNat ≤ s.tick site then s.abortPlain site slot else s)) ∧
  (∀ (s : State) (site : Nat) (im : Image) (l : Launch),
    s.images.find? (fun i => i.site == site && i.away &&
      (s.launch? i.launch).any (fun l => !s.rehomeHolds l)) = some im → s.launch? im.launch = some l →
    (s.tile site).free = true → (s.tile site).named = true → (s.tile site).status ≠ 2 → (s.tile site).leaving = none →
    ∃ t, exec (.tileResume site) s = .next t ∧ (t.tile site).launch = some im.launch ∧ (t.tile site).spad = im.bytes ∧
      (t.tile site).tags = im.tags ∧
      (∀ i, i ∈ t.images ↔ i ∈ s.images ∧ ¬ (i.site = site ∧ i.launch = im.launch)) ∧
      (∀ k c, k < 4 → im.ctxs[k]? = some c → ∃ d, t.ctx? site k = some d ∧ d.pc = c.pc ∧ d.x = c.x ∧ d.s = c.s ∧ d.v = c.v ∧
        d.acc = c.acc ∧ d.mstat = c.mstat)) ∧
  (∀ (s : State) (id : Nat) (l : Launch), s.launch? id = some l → l.cells ≠ [] →
    (l.stepDone = false → exec (.stepPhaseComplete id [] []) s = .next s) ∧
    (l.stepDone = true → s.rehomeHolds l = true →
      exec (.stepPhaseComplete id [] []) s = .next (s.modLaunch id (fun l => { l with boundary := true }))) ∧
    (l.stepDone = true → s.rehomeHolds l = false → s.retirees id = [] → s.changeOk l l.fields [] [] = true →
      ∃ t x, exec (.stepPhaseComplete id [] []) s = .next t ∧ t.launch? id = some x ∧ x.stepPh = l.stepPh + 1 ∧
        x.stepArr = [] ∧ x.boundary = false ∧ x.cells = l.cells ∧ x.fields = l.fields) ∧
    (l.stepDone = true → s.rehomeHolds l = false → s.changeOk l l.fields [] [] = true →
      (∀ x ∈ s.retirees id, (s.tile x).quiet = true ∧ s.stepEnds x = true) →
      ((s.retirees id).foldl (fun t x => t.leaveTile id x) s).patchAll id l (s.retirees id) = none →
      (s.noGrid l l.fields = false → exec (.stepPhaseComplete id [] []) s = .next s) ∧
      (s.noGrid l l.fields = true → ∃ t x, exec (.stepPhaseComplete id [] []) s = .next t ∧ t.launch? id = some x ∧
        x.cancelled = true ∧ x.failed = some (0x01, 1) ∧
        ∀ left, (x.result left).status = 0x01 ∧ (x.result left).detail = 1))) ∧
  (∀ (s : State) (id : Nat) (l : Launch), s.launch? id = some l →
    let arrived : Prop := l.boundary = true ∨ (l.cells ≠ [] ∧ ∀ p ∈ l.cells, p.2 ∈ l.stepArr)
    let late : Prop := ∃ x ∈ s.retirees id, ∃ t0, (s.tile x).leaving = some t0 ∧ t0 + 1000000 ≤ s.refTicks
    (arrived → exec (.rehomeStepTimeout id) s = .next s) ∧
    (¬ arrived → exec (.rehomeStepTimeout id) s = .next (if
      (∃ p ∈ s.rehome, p.2 + 1000000 ≤ s.refTicks ∧ s.rehomeAffects l p.1 = true) then s.preemptLaunch id else s)) ∧
    ((∀ i ∈ s.images, i.launch ≠ id) →
      (¬ arrived → late → exec (.retirementStepTimeout id) s = .next (s.preemptLaunch id)) ∧
      (arrived ∨ ¬ late → exec (.retirementStepTimeout id) s = .next s))) ∧
  (∀ (s : State) (f : Nat), (sget? f s.rehome).isSome = true →
    ((∃ g ∈ s.rehomeFields f, s.atBoundaries g = false) → exec (.rehomeEvent f) s = .next s) ∧
    ((∀ g ∈ s.rehomeFields f, s.atBoundaries g = true) → ∃ t, exec (.rehomeEvent f) s = .next t ∧
      (∀ g ∈ s.rehomeFields f, (t.field g).live = (s.field g).enabled ∧ sget? g t.rehome = none) ∧
      ((s.field f).enabled ≠ 0 →
        ∀ l : L2Line, l.key.isUnb = false → (l ∈ t.l2 ↔ l ∈ s.l2 ∧ s.homedIn s.allPages f l.key = false)))) ∧
  (∀ (s : State) (f : Nat) (m : Migration) (r : List Migration) (p : Leaf) (v : List (Nat × Nat)),
    (s.field f).migrations = m :: r →
    let va : Word := BitVec.ofNat 64 (4096 * m.vpage)
    let sp : Space := { cluster := none, vi := m.vi, asid := m.asid }
    let s1 := (s.modField f (fun g => { g with migrations := r })).walkErrors sp va
    s1.walk sp va = .ok (p, v) → pteUnb p.pte = true →
    (∀ u, s1.movePage p m.target = some u → exec (.pageMigration f) s = .next u) ∧
    (s1.movePage p m.target = none → exec (.pageMigration f) s = .next (s1.modVI m.vi (·.violate va 5 0))))

/-- A collective group whose oldest part has waited WDOG ticks ends with WAITTMO, and not before, where this module
coordinates it (a group is known by launch and number, log 69; one of another module hears of it by the links, log
123); a lost module link is down and no part of an unreachable group stays. A tile idle for 65,536 ticks enters
retention with its L1 empty, is retained after 8,192 ticks, leaves when a message comes or a task is in its inbox or
waits for it in the Launch Unit, and is active with its scratchpad after 8,192 more, its errors corrected; an error of
up to two bits of a doubleword of a retained tile is one that is corrected. A replay counts in TLATE, which saturates,
and takes one of the tile's coming ticks, in which nothing of it counts; a second flag makes a good tile suspect and,
while a task runs, raises TIMING in a word of it: the task is aborted and runs again on another tile of a restartable
launch, or is held. A droop sets the cluster's period within 256 to 512 and its margins. A guard-band check, due every
2^32 reference ticks (log 75), first appends a residual-life estimate that is due (log 34), keeps MMIN, adds 5 up to
the ceiling when the margin is below 32, and marks worn clusters where ADD then stands at the ceiling. Each router
entry ages by its own unused ticks, which are those of the field's first cluster (log 88), and leaves at 15. After
R216, R306, R385, R387, R388, R400, R406, R410. -/
def Obligations.HealthEvents : Prop :=
  (∀ (s : State) (idx : Nat) (p q : ClPart), s.parts[idx]? = some p →
    let group := s.parts.filter (fun q => sameGroup q.cmd p.cmd)
    group.head? = some q →
    exec (.clGroupTimeout idx) s = .next (if groupMod p.cmd.groupWord = s.moduleNumber ∧ q.since + (s.tile q.site).wdog.toNat ≤ s.tick q.site then
      ({ s with parts := s.parts.filter (fun q => !group.contains q) } : State).endParts group Code.waittmo.num 0 else s)) ∧
  (∀ (s : State) (link : Nat), ∃ t, exec (.moduleLinkLoss link) s = .next t ∧
    (sget ({} : Link) link t.links).up = false ∧ (∀ k, k ≠ link → sget ({} : Link) k t.links = sget ({} : Link) k s.links) ∧
    ∀ p ∈ t.parts, p ∈ s.parts ∧ t.reachable (groupMod p.cmd.groupWord) = true) ∧
  (∀ (s : State) (site : Nat),
    let t := s.tile site
    (t.retain = .active → t.launch.isSome = true → t.resident = [] → t.inbox = [] → 65536 ≤ t.idle →
      ∃ u, exec (.retentionEntry site) s = .next u ∧ (u.tile site).retain = .entering 8192 ∧ (u.tile site).l1 = []) ∧
    (t.retain = .entering 0 → ∃ u, exec (.retentionEntry site) s = .next u ∧
      u.tile site = { t with retain := .retained }) ∧
    (t.retain = .retained → s.messageFor site = true ∨ t.inbox ≠ [] ∨ s.queuedFor site = true → ∃ u, exec (.retentionExit site) s = .next u ∧
      u.tile site = { t with retain := .leaving 8192 }) ∧
    (t.retain = .leaving 0 → ∃ u, exec (.retentionExit site) s = .next u ∧ (u.tile site).retain = .active ∧
      (u.tile site).weak = [] ∧ (u.tile site).spad = t.spad)) ∧
  (∀ (s : State) (site d : Nat) (double : Bool), let t := (s.strike (.spad site d double)).tile site
    (double = false ∨ (s.tile site).retain = .retained → t = { s.tile site with weak := sinsert d (s.tile site).weak }) ∧
    (double = true → (s.tile site).retain ≠ .retained → t = { s.tile site with bad := sinsert d (s.tile site).bad })) ∧
  (∀ (s : State) (site : Nat), ∃ t, exec (.shadowLatchReplay site false) s = .next t ∧
    (t.tile site).tlate = (if (s.tile site).tlate = 0xFFFFFFFF then (s.tile site).tlate else (s.tile site).tlate + 1) ∧
    (t.tile site).owed = (s.tile site).owed + 1 ∧ (t.tile site).stopped = (s.tile site).stopped ∧
    (∀ k, t.ctx? site k = s.ctx? site k)) ∧
  (∀ (t : Tile) (e : Nat) (b : Bool), let u := t.advance e b
    let k := min e t.owed
    u.owed + k = t.owed ∧ u.stopped = t.stopped + k ∧ u.vecHold = t.vecHold - (e - k) ∧ u.eng.left = t.eng.left - (e - k) ∧
    (∀ a, t.array = some a → u.array = some { a with ticks := a.ticks - (e - k) })) ∧
  (∀ (s : State) (site n : Nat) (c : Ctx) (l : Launch), (s.tile site).cur = some n → s.ctx? site n = some c →
    s.launch? c.task.msg.launch = some l → (s.tile site).launch = some c.task.msg.launch →
    ∃ (t : State) (m : Stream), exec (.shadowLatchReplay site true) s = .next t ∧
      let old := c.task.repeated .timing (c.pcOf m)
      let task := if l.restartable then { old with
          again := old.snap.isSome
          redo := if old.redo = some .uce ∨ old.redo = some .poison then old.redo else some .timing } else old
      let moves : Prop := l.restartable = true ∧ task.rep < 16 ∧ s.otherTiles c.task.msg.launch site ≠ []
      t.ctx? site n = none ∧ (t.launch? c.task.msg.launch).map (·.aborts) = some (l.aborts + 1) ∧
      (t.tile site).status = (if (s.tile site).status = 0 then 1 else (s.tile site).status) ∧
      (t.tile site).owed = (s.tile site).owed + 1 ∧ t.mem = s.mem ∧ (∀ k, (t.tile k).spad = (s.tile k).spad) ∧
      (moves → ∃ goal, goal ∈ s.otherTiles c.task.msg.launch site ∧ t.luTasks = s.luTasks ++ [⟨task, goal, .queued⟩]) ∧
      (¬ moves → t.luTasks = s.luTasks ++ [⟨task, site, .held⟩])) ∧
  (∀ (s : State) (site : Nat), (s.tile site).cur = none → ∃ t, exec (.shadowLatchReplay site true) s = .next t ∧
    (t.tile site).status = if (s.tile site).status = 0 then 1 else (s.tile site).status) ∧
  (∀ (s : State) (c p : Nat) (m : BitVec 8), ∃ t, exec (.supplyDroop c p m) s = .next t ∧
    (t.cluster c).period = max 256 (min 512 p) ∧ (t.cluster c).marginNow = m ∧
    (t.cluster c).marginMin.toNat = min m.toNat (s.cluster c).marginMin.toNat ∧ ∀ k, k ≠ c → t.cluster k = s.cluster k) ∧
  (∀ (s : State) (f : Nat),
    (s.refTicks < 2 ^ 32 * ((s.field f).checks + 1) → exec (.guardBandCheck f) s = .next s.lifeDue) ∧
    (2 ^ 32 * ((s.field f).checks + 1) ≤ s.refTicks → ∃ t, exec (.guardBandCheck f) s = .next t ∧
      (t.field f).mmin = s.mmin f ∧ (t.field f).checks = (s.field f).checks + 1 ∧
      (t.field f).add = (if (s.mmin f).toNat < 32 ∧ (s.field f).add < (s.field f).ceil
        then min ((s.field f).add + 5) (s.field f).ceil else (s.field f).add) ∧
      (t.field f).worn = (if (s.mmin f).toNat < 32 ∧ (t.field f).add = (s.field f).ceil
        then (s.field f).worn ||| s.lowClusters f else (s.field f).worn))) ∧
  (∀ (s : State) (f : Nat), ∃ t, exec (.routerEntryAging f) s = .next t ∧
    ∀ n, n ∈ (t.field f).names ↔ n.age < 15 ∧ ∃ o ∈ (s.field f).names,
      n = if o.since + 2 ^ 16 * (o.age + 1) ≤ s.routerTick f then { o with age := o.age + 1 } else o)

/-! ## The host -/

/-- Release and cancel of a task act on the parked or held task named, a cancelled task counts as ended, and an
unknown one is a violation; release of an ASID releases its parked tasks. A shoot-down command enters the interface's
list with its scope, address and size; the oldest completes with no TLB or walk entry that it names left, and counts
in SHDONE. That fewer than 16 are outstanding, and which lines a shoot-down drops, are the model's readings (logs 28
and 29). A pending fault record is written while the ring has room, its 64 bytes with PH in word 7 standing in HBM at
ring entry FRTAIL mod 2^FRLOG, and raises its vector; with FRCTL.EN = 0 the pending records go and nothing is written;
FRHEAD takes what is written. A quote asked while one is outstanding is a violation; a completed one counts in QDONE.
A staged map is discarded, checked against its CRC, and installed in every field when every field's check passed; an
undecided vote changes nothing; how rejections are counted is the model's reading (log 33). After R2, R351, R375,
R376, R379, R380, R404, R417, R418. -/
def Obligations.DriverCommands : Prop :=
  ∀ (s : State) (vi : Nat),
    let v := s.vi vi
    (∀ (dom : Nat) (task : BitVec 32),
      (∀ t, s.luTasks.find? (·.named vi dom task) = some t →
        exec (.tcmdReleaseTask vi dom task) s = .next (s.releaseLu t) ∧
        ∃ u, exec (.tcmdCancelTask vi dom task) s = .next u ∧ u.luTasks = s.luTasks.erase t ∧
          ∀ l, s.launch? t.task.msg.launch = some l → (u.launch? t.task.msg.launch).map (·.tasks) = some (l.tasks + 1)) ∧
      (s.luTasks.find? (·.named vi dom task) = none → ∀ i : Instr,
        i = .tcmdReleaseTask vi dom task ∨ i = .tcmdCancelTask vi dom task →
        exec i s = .next (s.modVI vi (·.violate (pageAddr vi 0x80) 3 0)))) ∧
    (∀ asid, let ts := s.luTasks.filter (fun t => t.state == .parked && t.task.msg.vi == vi &&
        (s.launch? t.task.msg.launch).map (·.asid) == some asid)
      ts ≠ [] → exec (.tcmdReleaseParked vi asid) s = .next (ts.foldl State.releaseLu s)) ∧
    (∀ asid, v.shoots.length < 16 → v.hasAsid asid = true →
      let page : Word := (fld v.shva 12 45).setWidth 64 <<< 12
      let size := (fld v.shva 0 3).toNat
      exec (.shcmdPage vi asid) s = .next (s.modVI vi (fun v => { v with shoots := v.shoots ++ [⟨0, asid, page, size⟩] })) ∧
      exec (.shcmdAsid vi asid) s = .next (s.modVI vi (fun v => { v with shoots := v.shoots ++ [⟨1, asid, page, size⟩] })) ∧
      exec (.shcmdInterface vi) s = .next (s.modVI vi (fun v => { v with shoots := v.shoots ++ [⟨2, 0, page, size⟩] }))) ∧
    (∀ x r, v.shoots = x :: r → ∃ t, exec (.shootdownComplete vi) s = .next t ∧ (t.vi vi).shoots = r ∧
      (t.vi vi).shdone = v.shdone + 1 ∧ (∀ c, ∀ e ∈ (t.cluster c).tlb, x.hitsTlb vi v e = false) ∧
      (∀ c, ∀ e ∈ (t.cluster c).walks, x.hitsWalk vi v e = false)) ∧
    (v.frctl.getLsbD 0 = false → ∃ t, exec (.faultRecordWrite vi) s = .next t ∧ (t.vi vi).frpend = [] ∧ t.mem = s.mem ∧
      t.l2 = s.l2) ∧
    (∀ ws r, v.frctl.getLsbD 0 = true → v.frpend = ws :: r → (v.frtail - v.frhead).toNat < 2 ^ v.frlog →
      let log := (fld v.frctl 16 4 : BitVec 4).toNat
      let a := v.frbase.toNat + 64 * (v.frtail.toNat % 2 ^ log)
      let ph : Word := if v.frtail.toNat / 2 ^ log % 2 = 0 then 0x8000000000000000 else 0
      ∃ t, exec (.faultRecordWrite vi) s = .next t ∧ (t.vi vi).frpend = r ∧ (t.vi vi).frtail = v.frtail + 1 ∧
        (t.vi vi).irqs = v.irqs ++ [fld v.frctl 8 8] ∧
        (ws.length = 8 → a % 64 = 0 → a < Config.hbmBytes → s.stackOk (a / 64) = true → s.mem.wf = true →
          t.mem.readN a 64 = wordsBytes (ws.take 7 ++ [wordAt ws 7 ||| ph]))) ∧
    (∀ val, ∃ t, exec (.frheadWrite vi val) s = .next t ∧ (t.vi vi).frhead = val) ∧
    (v.quoting = false → ∃ t, exec (.qcmdQuote vi) s = .next t ∧ (t.vi vi).quoting = true) ∧
    (v.quoting = true → exec (.qcmdQuote vi) s = .next (s.modVI vi (·.violate (pageAddr vi 0xA8) 3 0)) ∧
      ∃ t, exec (.quoteComplete vi) s = .next t ∧ (t.vi vi).quoting = false ∧ (t.vi vi).qdone = v.qdone + 1) ∧
    (∀ f, (∃ t, exec (.mapctlDiscard f) s = .next t ∧ (t.field f).staged = [] ∧ (t.field f).mapst = 0) ∧
      ∃ t, exec (.mapctlCheckVote f) s = .next t ∧
        (t.field f).mapst = if Config.crc32c (s.field f).staged = (s.field f).mapcrc then 2 else 3) ∧
    ((∀ f, f < 84 → (s.field f).mapst = 2) → ∃ t, exec .mapVoteComplete s = .next t ∧
      ∀ f, f < 84 → (t.field f).installed = (s.field f).staged ∧ (t.field f).staged = [] ∧ (t.field f).mapst = 0) ∧
    ((∃ f, f < 84 ∧ (s.field f).mapst ≠ 2 ∧ (s.field f).mapst ≠ 3) → exec .mapVoteComplete s = .next s)

/-- A write of a register page and of configuration space is that of the register's own rule: SHVA, IMGLEN, CQBASE and
QCTL keep their fields, with an ASID that the interface does not have ignored (log 27); a tile's name, and its STATE,
where 2 reads back at once and on a tile that a launch holds starts its retirement, the launch holding it on (log 22);
the guard-band ceiling is at most 100; a token cap is at most 196,608, a larger one being taken as that, the model's
choice (log 86); a slice enable that differs from the live ones asks for a rehome event. Of a root port: a
peer-to-peer access and an ATS request are unsupported; one that no interface owns by the Launch Unit's port mask
aborts and changes nothing else; an MSI-X write raises its vector at the port, whether or not an interface owns it; a
port whose ASID its owner does not have logs violation 7 and aborts; a DMA read that translates answers its bytes and
whether they are poisoned, a DMA write that translates is performed and answered. The offsets of GBAND and the slice
enables, what a page answers outside its registers, and a DMA of an unowned port are the model's choices (logs 7, 20
and 30). After R2, R352, R378, R395, R400, R405, R409, R413, R415. -/
def Obligations.RegisterWritesAndDma : Prop :=
  (∀ (s t : State) (vi : Nat) (off : BitVec 12) (val : Word), s.pageWrite vi off.toNat val = some t →
    exec (.registerWrite (.page vi off) val) s = .next t) ∧
  (∀ (s t : State) (a : BitVec 32) (val : Word), s.cfgWrite a val = .ok t →
    exec (.registerWrite (.cfg a) val) s = .next t) ∧
  (∀ (s : State) (vi q : Nat) (val : Word), q < 32 →
    (∃ t, s.pageWrite vi 0x48 val = some t ∧ (t.vi vi).shva = val &&& 0x01FFFFFFFFFFF007) ∧
    (∃ t, s.pageWrite vi 0x90 val = some t ∧ (t.vi vi).imglen = val.setWidth 32) ∧
    (∃ t, s.pageWrite vi (0x810 + 64 * q) val = some t ∧ ((t.vi vi).queue q).cqbase = val.setWidth 57) ∧
    (∃ t, s.pageWrite vi (0x800 + 64 * q) val = some t ∧ ((t.vi vi).queue q).en = val.getLsbD 0 ∧
      ((t.vi vi).queue q).dev = val.getLsbD 1 ∧ ((t.vi vi).queue q).asid =
        if (s.vi vi).hasAsid (val.toNat / 2 ^ 28 % 2 ^ 12) = true then fld val 28 12 else ((s.vi vi).queue q).asid)) ∧
  (∀ (s : State) (site f : Nat) (v : Word),
    (((s.tileWrite site 0x00 v).tile site).named = v.getLsbD 16 ∧
      ((s.tileWrite site 0x00 v).tile site).name = v.setWidth 16) ∧
    (v.toNat % 4 ≠ 2 → ((s.tileWrite site 0x08 v).tile site).status = v.setWidth 2) ∧
    (v.toNat % 4 = 2 → ((s.tileWrite site 0x08 v).tile site).status = 2) ∧
    (v.toNat % 4 = 2 → (s.tile site).status ≠ 2 → (s.tile site).launch ≠ none →
      ((s.tileWrite site 0x08 v).tile site).leaving = some s.refTicks ∧
      ((s.tileWrite site 0x08 v).tile site).launch = (s.tile site).launch) ∧
    (((s.fieldWrite f Config.offGband v).field f).ceil = min 100 (v.toNat / 256 % 256)) ∧
    (((s.fieldWrite f Config.offSlices v).field f).enabled = v.setWidth 16 ∧
      ((s.fieldWrite f Config.offSlices v).field f).live = (s.field f).live ∧
      ((sget? f (s.fieldWrite f Config.offSlices v).rehome).isSome = true ↔ (s.field f).live ≠ v.setWidth 16))) ∧
  (∀ (v : VI) (w : Word), (v.luWrite Config.offTokcap w).tokcap = min (w.toNat % 2 ^ 18) 196608) ∧
  (∀ (s : State) (port : Nat) (req : Dma),
    (req = .peer ∨ req = .ats → exec (.rootPortDma port req) s = .next (s.portReply port [] .unsupported)) ∧
    (∀ vec, req = .msix vec → ∃ t, exec (.rootPortDma port req) s = .next t ∧ { t with ports := s.ports } = s ∧
      (sget ({} : Port) port t.ports).irqs = (sget ({} : Port) port s.ports).irqs ++ [vec] ∧
      (sget ({} : Port) port t.ports).status = .ok) ∧
    (req ≠ .peer → req ≠ .ats → (∀ vec, req ≠ .msix vec) → s.portOwner port = none →
      exec (.rootPortDma port req) s = .next (s.portReply port [] .abort))) ∧
  (∀ (s : State) (port vi : Nat), s.portOwner port = some vi →
    let asid := (sget ({} : Port) port s.ports).asid
    let sp : Space := { cluster := none, vi := vi, asid := asid }
    (∀ (req : Dma) (va : Word), (∃ n, req = .read va n) ∨ (∃ bs, req = .write va bs) → (s.vi vi).hasAsid asid = false →
      exec (.rootPortDma port req) s = .next ((s.modVI vi (·.violate va 7 0)).portReply port [] .abort)) ∧
    ((s.vi vi).hasAsid asid = true →
      (∀ va len bs bad u, s.dmaRead sp (pieces va len len) = .ok (bs, bad, u) →
        exec (.rootPortDma port (.read va len)) s = .next (u.portReply port bs .ok bad)) ∧
      (∀ va bs l, s.dmaWrite sp (pieces va bs.length bs.length) bs = (l, none) →
        exec (.rootPortDma port (.write va bs)) s = .next ((l.getLastD s).portReply port [] .ok)))) ∧
  (∀ (s : State) (port : Nat) (bs : List Byte) (st : PortStatus) (bad : Bool),
    let t := s.portReply port bs st bad
    (sget ({} : Port) port t.ports).reply = bs ∧ (sget ({} : Port) port t.ports).status = st ∧
      (sget ({} : Port) port t.ports).poison = bad ∧ { t with ports := s.ports } = s)

/-- The ROM starts core 0 at level F at the entry of the first accepted slot, measurement register 0 extended with the
digest of its header and image, the other registers and flash unchanged; a slot is accepted when its magic, version,
length, load address, signature and counter are those that R397 and R398 ask for, the length within the slot's 16 MiB
and the load address within HBM, which bounds are the model's reading (log 26); with neither slot accepted it holds
core 0 with the code 0xB1; firmware then locks registers 0 to 3 and releases every core. That both happen in one step
each, and which units pass self-test, is the model's (logs 2 and 23). After R396 to R399. -/
def Obligations.BootStarts : Prop :=
  (∀ (s : State) (slot : Nat), s.bootStage = 0 →
    (slot = 0 ∧ s.slotOk 0 = true) ∨ (slot = 0x1000000 ∧ s.slotOk 0 = false ∧ s.slotOk 0x1000000 = true) →
    ∃ t, exec .boot s = .next t ∧ t.bootStage = 1 ∧ (t.croft 0).level = true ∧ (t.croft 0).held = false ∧
      (t.croft 0).pc = BitVec.ofNat 64 (leNat (s.flash.readN (slot + 32) 8)) ∧
      t.sec.fw = BitVec.ofNat 64 (leNat (s.flash.readN (slot + 8) 8)) ∧ t.flash = s.flash ∧
      vget 0 t.sec.meas 0 = Config.sha512 (s.measBytes 0 ++ digest (s.flash.readN slot 104 ++
        s.flash.readN (slot + 104) (leNat (s.flash.readN (slot + 16) 8)))) ∧
      (∀ k, k ≠ 0 → vget 0 t.sec.meas k = vget 0 s.sec.meas k)) ∧
  (∀ (s : State) (slot : Nat),
    let len := leNat (s.flash.readN (slot + 16) 8)
    s.slotOk slot = true ↔ leNat (s.flash.readN slot 4) = 0x465A5653 ∧ leNat (s.flash.readN (slot + 4) 4) = 1 ∧
      104 + len ≤ 2 ^ 24 ∧ leNat (s.flash.readN (slot + 24) 8) + len ≤ Config.hbmBytes ∧
      Config.ed25519Verify Config.firmwareKey (s.flash.readN slot 40 ++ s.flash.readN (slot + 104) len)
        (BitVec.ofNat 512 (leNat (s.flash.readN (slot + 40) 64))) = true ∧
      highest 6 s.wearChain ≤ leNat (s.flash.readN (slot + 8) 8)) ∧
  (∀ s : State, s.bootStage = 0 → s.slotOk 0 = false → s.slotOk 0x1000000 = false →
    ∃ t, exec .boot s = .next t ∧ t.bootCode = some 0xB1 ∧ (t.croft 0).held = true ∧ t.bootStage = 2) ∧
  (∀ s : State, s.bootStage = 1 → ∃ t, exec .boot s = .next t ∧ t.bootStage = 2 ∧
    (∀ k, k < 32 → (t.croft k).held = false) ∧ (∀ k, k < 4 → t.sec.lock.getLsbD k = true))

/-- The values that the spec states for reset, with no launch, no named tile and no task: TSKEW, GTIME, LEVEL and PREV
of every Croft core, core 0 alone not held, LSPLIT, PREWIN, WDOG and window formats of every tile, the guard-band of
every field, the measurement registers and their locks; and every byte store in canonical form. The first move is
BOOT, which is the model's (logs 1, 3 and 4). After R3, R24, R396. -/
def Obligations.ResetState : Prop :=
  State.reset.memoriesOk = true ∧ State.reset.tskew = 0xFFFF ∧ State.reset.gtime = 0 ∧
  (∀ k, k < 32 → (State.reset.croft k).level = true ∧ (State.reset.croft k).prev = true) ∧
  (∀ k, k < 32 → ((State.reset.croft k).held = false ↔ k = 0)) ∧
  (∀ site, (State.reset.tile site).named = false ∧ (State.reset.tile site).launch = none ∧
    (State.reset.tile site).l1sz = 1 ∧ (State.reset.tile site).prewin = 0x100000 ∧
    (State.reset.tile site).wdog = 0x4000000 ∧ (∀ k, State.reset.ctx? site k = none) ∧
    (∀ k, k < 16 → vget 0 (State.reset.tile site).wd k = 0xE)) ∧
  (∀ f, (State.reset.field f).ceil = 60 ∧ (State.reset.field f).add = 0) ∧
  (∀ k, k < 16 → vget 0 State.reset.sec.meas k = 0) ∧ State.reset.sec.lock = 0 ∧ State.reset.launches = [] ∧
  step State.reset = exec .boot { State.reset with agenda := [] }

/-- From every state whose byte stores (HBM, flash, every scratchpad, the saved images) are in canonical form
(addresses strictly rising, no entry equal to what an unlisted address reads as), a step that answers a next state
gives one in which they are. The canonical form is the model's representation of memory (log 4). -/
def Obligations.StepsKeepMemoriesCanonical : Prop :=
  ∀ s t : State, s.memoriesOk = true → step s = .next t → t.memoriesOk = true
end

