-- ==== Sys2Proof/Laws/Exec.lean ====
section
/-! SUPPORT. What `exec` is for each constructor: its meaning, so that no proof unfolds the whole dispatch. -/

namespace Sys2Proof.Machine

@[simp] theorem exec_add m d a b (s : State) : exec (.add m d a b) s = execAdd m d a b s := rfl
@[simp] theorem exec_sub m d a b (s : State) : exec (.sub m d a b) s = execSub m d a b s := rfl
@[simp] theorem exec_and m d a b (s : State) : exec (.and m d a b) s = execAnd m d a b s := rfl
@[simp] theorem exec_or m d a b (s : State) : exec (.or m d a b) s = execOr m d a b s := rfl
@[simp] theorem exec_xor m d a b (s : State) : exec (.xor m d a b) s = execXor m d a b s := rfl
@[simp] theorem exec_sll m d a b (s : State) : exec (.sll m d a b) s = execSll m d a b s := rfl
@[simp] theorem exec_srl m d a b (s : State) : exec (.srl m d a b) s = execSrl m d a b s := rfl
@[simp] theorem exec_sra m d a b (s : State) : exec (.sra m d a b) s = execSra m d a b s := rfl
@[simp] theorem exec_slt m d a b (s : State) : exec (.slt m d a b) s = execSlt m d a b s := rfl
@[simp] theorem exec_sltu m d a b (s : State) : exec (.sltu m d a b) s = execSltu m d a b s := rfl
@[simp] theorem exec_min m d a b (s : State) : exec (.min m d a b) s = execMin m d a b s := rfl
@[simp] theorem exec_max m d a b (s : State) : exec (.max m d a b) s = execMax m d a b s := rfl
@[simp] theorem exec_minu m d a b (s : State) : exec (.minu m d a b) s = execMinu m d a b s := rfl
@[simp] theorem exec_maxu m d a b (s : State) : exec (.maxu m d a b) s = execMaxu m d a b s := rfl
@[simp] theorem exec_mul m d a b (s : State) : exec (.mul m d a b) s = execMul m d a b s := rfl
@[simp] theorem exec_mulh m d a b (s : State) : exec (.mulh m d a b) s = execMulh m d a b s := rfl
@[simp] theorem exec_mulhu m d a b (s : State) : exec (.mulhu m d a b) s = execMulhu m d a b s := rfl
@[simp] theorem exec_div m d a b (s : State) : exec (.div m d a b) s = execDiv m d a b s := rfl
@[simp] theorem exec_divu m d a b (s : State) : exec (.divu m d a b) s = execDivu m d a b s := rfl
@[simp] theorem exec_rem m d a b (s : State) : exec (.rem m d a b) s = execRem m d a b s := rfl
@[simp] theorem exec_remu m d a b (s : State) : exec (.remu m d a b) s = execRemu m d a b s := rfl
@[simp] theorem exec_clz m d a (s : State) : exec (.clz m d a) s = execClz m d a s := rfl
@[simp] theorem exec_ctz m d a (s : State) : exec (.ctz m d a) s = execCtz m d a s := rfl
@[simp] theorem exec_popc m d a (s : State) : exec (.popc m d a) s = execPopc m d a s := rfl
@[simp] theorem exec_addsl1 m d a b (s : State) : exec (.addsl1 m d a b) s = execAddsl1 m d a b s := rfl
@[simp] theorem exec_addsl2 m d a b (s : State) : exec (.addsl2 m d a b) s = execAddsl2 m d a b s := rfl
@[simp] theorem exec_addsl3 m d a b (s : State) : exec (.addsl3 m d a b) s = execAddsl3 m d a b s := rfl
@[simp] theorem exec_addsl4 m d a b (s : State) : exec (.addsl4 m d a b) s = execAddsl4 m d a b s := rfl
@[simp] theorem exec_addi m d a imm (s : State) : exec (.addi m d a imm) s = execAddi m d a imm s := rfl
@[simp] theorem exec_andi m d a imm (s : State) : exec (.andi m d a imm) s = execAndi m d a imm s := rfl
@[simp] theorem exec_ori m d a imm (s : State) : exec (.ori m d a imm) s = execOri m d a imm s := rfl
@[simp] theorem exec_xori m d a imm (s : State) : exec (.xori m d a imm) s = execXori m d a imm s := rfl
@[simp] theorem exec_slti m d a imm (s : State) : exec (.slti m d a imm) s = execSlti m d a imm s := rfl
@[simp] theorem exec_slli m d a z (s : State) : exec (.slli m d a z) s = execSlli m d a z s := rfl
@[simp] theorem exec_srli m d a z (s : State) : exec (.srli m d a z) s = execSrli m d a z s := rfl
@[simp] theorem exec_srai m d a z (s : State) : exec (.srai m d a z) s = execSrai m d a z s := rfl
@[simp] theorem exec_li m d imm (s : State) : exec (.li m d imm) s = execLi m d imm s := rfl
@[simp] theorem exec_lih m d imm (s : State) : exec (.lih m d imm) s = execLih m d imm s := rfl
@[simp] theorem exec_bfx m d a p w (s : State) : exec (.bfx m d a p w) s = execBfx m d a p w s := rfl
@[simp] theorem exec_bfxu m d a p w (s : State) : exec (.bfxu m d a p w) s = execBfxu m d a p w s := rfl
@[simp] theorem exec_bfi m d a p w (s : State) : exec (.bfi m d a p w) s = execBfi m d a p w s := rfl
@[simp] theorem exec_part d a b (s : State) : exec (.part d a b) s = execPart d a b s := rfl
@[simp] theorem exec_partY d a b (s : State) : exec (.partY d a b) s = execPartY d a b s := rfl
@[simp] theorem exec_fadd d a b (s : State) : exec (.fadd d a b) s = execFadd d a b s := rfl
@[simp] theorem exec_fsub d a b (s : State) : exec (.fsub d a b) s = execFsub d a b s := rfl
@[simp] theorem exec_fmul d a b (s : State) : exec (.fmul d a b) s = execFmul d a b s := rfl
@[simp] theorem exec_ffma d a b (s : State) : exec (.ffma d a b) s = execFfma d a b s := rfl
@[simp] theorem exec_fmin d a b (s : State) : exec (.fmin d a b) s = execFmin d a b s := rfl
@[simp] theorem exec_fmax d a b (s : State) : exec (.fmax d a b) s = execFmax d a b s := rfl
@[simp] theorem exec_feq d a b (s : State) : exec (.feq d a b) s = execFeq d a b s := rfl
@[simp] theorem exec_flt d a b (s : State) : exec (.flt d a b) s = execFlt d a b s := rfl
@[simp] theorem exec_fle d a b (s : State) : exec (.fle d a b) s = execFle d a b s := rfl
@[simp] theorem exec_fcvtSI d a (s : State) : exec (.fcvtSI d a) s = execFcvtSI d a s := rfl
@[simp] theorem exec_fcvtIS d a (s : State) : exec (.fcvtIS d a) s = execFcvtIS d a s := rfl
@[simp] theorem exec_beqz a o (s : State) : exec (.beqz a o) s = execBeqz a o s := rfl
@[simp] theorem exec_bnez a o (s : State) : exec (.bnez a o) s = execBnez a o s := rfl
@[simp] theorem exec_bltz a o (s : State) : exec (.bltz a o) s = execBltz a o s := rfl
@[simp] theorem exec_bgez a o (s : State) : exec (.bgez a o) s = execBgez a o s := rfl
@[simp] theorem exec_bgtz a o (s : State) : exec (.bgtz a o) s = execBgtz a o s := rfl
@[simp] theorem exec_blez a o (s : State) : exec (.blez a o) s = execBlez a o s := rfl
@[simp] theorem exec_jal d o (s : State) : exec (.jal d o) s = execJal d o s := rfl
@[simp] theorem exec_jalr d a imm (s : State) : exec (.jalr d a imm) s = execJalr d a imm s := rfl
@[simp] theorem exec_rpt n k (s : State) : exec (.rpt n k) s = execRpt n k s := rfl
@[simp] theorem exec_nop m (s : State) : exec (.nop m) s = execNop m s := rfl
@[simp] theorem exec_done (s : State) : exec .done s = execDone s := rfl
@[simp] theorem exec_yield (s : State) : exec .yield s = execYield s := rfl
@[simp] theorem exec_step (s : State) : exec .step s = execStep s := rfl
@[simp] theorem exec_safept n (s : State) : exec (.safept n) s = execSafept n s := rfl
@[simp] theorem exec_trap n (s : State) : exec (.trap n) s = execTrap n s := rfl
@[simp] theorem exec_brk n (s : State) : exec (.brk n) s = execBrk n s := rfl
@[simp] theorem exec_sysrd m d r (s : State) : exec (.sysrd m d r) s = execSysrd m d r s := rfl
@[simp] theorem exec_syswr m a r (s : State) : exec (.syswr m a r) s = execSyswr m a r s := rfl
@[simp] theorem exec_tokreq d a (s : State) : exec (.tokreq d a) s = execTokreq d a s := rfl
@[simp] theorem exec_tokret d a (s : State) : exec (.tokret d a) s = execTokret d a s := rfl
@[simp] theorem exec_toklend d a b (s : State) : exec (.toklend d a b) s = execToklend d a b s := rfl
@[simp] theorem exec_tokwait d (s : State) : exec (.tokwait d) s = execTokwait d s := rfl
@[simp] theorem exec_tokq d (s : State) : exec (.tokq d) s = execTokq d s := rfl
@[simp] theorem exec_ldB d b z o (s : State) : exec (.ldB d b z o) s = execLdB d b z o s := rfl
@[simp] theorem exec_ldBu d b z o (s : State) : exec (.ldBu d b z o) s = execLdBu d b z o s := rfl
@[simp] theorem exec_ldH d b z o (s : State) : exec (.ldH d b z o) s = execLdH d b z o s := rfl
@[simp] theorem exec_ldHu d b z o (s : State) : exec (.ldHu d b z o) s = execLdHu d b z o s := rfl
@[simp] theorem exec_ldW d b z o (s : State) : exec (.ldW d b z o) s = execLdW d b z o s := rfl
@[simp] theorem exec_ldWu d b z o (s : State) : exec (.ldWu d b z o) s = execLdWu d b z o s := rfl
@[simp] theorem exec_ldD d b z o (s : State) : exec (.ldD d b z o) s = execLdD d b z o s := rfl
@[simp] theorem exec_stB d b z o (s : State) : exec (.stB d b z o) s = execStB d b z o s := rfl
@[simp] theorem exec_stH d b z o (s : State) : exec (.stH d b z o) s = execStH d b z o s := rfl
@[simp] theorem exec_stW d b z o (s : State) : exec (.stW d b z o) s = execStW d b z o s := rfl
@[simp] theorem exec_stD d b z o (s : State) : exec (.stD d b z o) s = execStD d b z o s := rfl
@[simp] theorem exec_ldfW d b z o (s : State) : exec (.ldfW d b z o) s = execLdfW d b z o s := rfl
@[simp] theorem exec_ldfD d b z o (s : State) : exec (.ldfD d b z o) s = execLdfD d b z o s := rfl
@[simp] theorem exec_ldtW d b z o (s : State) : exec (.ldtW d b z o) s = execLdtW d b z o s := rfl
@[simp] theorem exec_ldtD d b z o (s : State) : exec (.ldtD d b z o) s = execLdtD d b z o s := rfl
@[simp] theorem exec_stfW d b z o (s : State) : exec (.stfW d b z o) s = execStfW d b z o s := rfl
@[simp] theorem exec_stfD d b z o (s : State) : exec (.stfD d b z o) s = execStfD d b z o s := rfl
@[simp] theorem exec_stxW d b z o (s : State) : exec (.stxW d b z o) s = execStxW d b z o s := rfl
@[simp] theorem exec_stxD d b z o (s : State) : exec (.stxD d b z o) s = execStxD d b z o s := rfl
@[simp] theorem exec_vld v a b z (s : State) : exec (.vld v a b z) s = execVld v a b z s := rfl
@[simp] theorem exec_vst v a b z (s : State) : exec (.vst v a b z) s = execVst v a b z s := rfl
@[simp] theorem exec_vldx v a b z (s : State) : exec (.vldx v a b z) s = execVldx v a b z s := rfl
@[simp] theorem exec_vstx v a b z (s : State) : exec (.vstx v a b z) s = execVstx v a b z s := rfl
@[simp] theorem exec_vldb v a b z (s : State) : exec (.vldb v a b z) s = execVldb v a b z s := rfl
@[simp] theorem exec_acq z (s : State) : exec (.acq z) s = execAcq z s := rfl
@[simp] theorem exec_rel z (s : State) : exec (.rel z) s = execRel z s := rfl
@[simp] theorem exec_fence (s : State) : exec .fence s = execFence s := rfl
@[simp] theorem exec_cwb a b (s : State) : exec (.cwb a b) s = execCwb a b s := rfl
@[simp] theorem exec_cinv a b (s : State) : exec (.cinv a b) s = execCinv a b s := rfl
@[simp] theorem exec_disc a b (s : State) : exec (.disc a b) s = execDisc a b s := rfl
@[simp] theorem exec_pf a b (s : State) : exec (.pf a b) s = execPf a b s := rfl
@[simp] theorem exec_pf2 a b (s : State) : exec (.pf2 a b) s = execPf2 a b s := rfl
@[simp] theorem exec_pmig a b (s : State) : exec (.pmig a b) s = execPmig a b s := rfl
@[simp] theorem exec_fefill a b (s : State) : exec (.fefill a b) s = execFefill a b s := rfl
@[simp] theorem exec_feempty a b (s : State) : exec (.feempty a b) s = execFeempty a b s := rfl
@[simp] theorem exec_aadd d a b o (s : State) : exec (.aadd d a b o) s = execAadd d a b o s := rfl
@[simp] theorem exec_aaddW d a b o (s : State) : exec (.aaddW d a b o) s = execAaddW d a b o s := rfl
@[simp] theorem exec_faadd d a b o (s : State) : exec (.faadd d a b o) s = execFaadd d a b o s := rfl
@[simp] theorem exec_aand d a b o (s : State) : exec (.aand d a b o) s = execAand d a b o s := rfl
@[simp] theorem exec_aor d a b o (s : State) : exec (.aor d a b o) s = execAor d a b o s := rfl
@[simp] theorem exec_axor d a b o (s : State) : exec (.axor d a b o) s = execAxor d a b o s := rfl
@[simp] theorem exec_amin d a b o (s : State) : exec (.amin d a b o) s = execAmin d a b o s := rfl
@[simp] theorem exec_amax d a b o (s : State) : exec (.amax d a b o) s = execAmax d a b o s := rfl
@[simp] theorem exec_aminu d a b o (s : State) : exec (.aminu d a b o) s = execAminu d a b o s := rfl
@[simp] theorem exec_amaxu d a b o (s : State) : exec (.amaxu d a b o) s = execAmaxu d a b o s := rfl
@[simp] theorem exec_aswap d a b o (s : State) : exec (.aswap d a b o) s = execAswap d a b o s := rfl
@[simp] theorem exec_aload d a o (s : State) : exec (.aload d a o) s = execAload d a o s := rfl
@[simp] theorem exec_astore a b o (s : State) : exec (.astore a b o) s = execAstore a b o s := rfl
@[simp] theorem exec_acas d a b o (s : State) : exec (.acas d a b o) s = execAcas d a b o s := rfl
@[simp] theorem exec_acasW d a b o (s : State) : exec (.acasW d a b o) s = execAcasW d a b o s := rfl
@[simp] theorem exec_atopk d a b o k (s : State) : exec (.atopk d a b o k) s = execAtopk d a b o k s := rfl
@[simp] theorem exec_alink d a b (s : State) : exec (.alink d a b) s = execAlink d a b s := rfl
@[simp] theorem exec_bwait t (s : State) : exec (.bwait t) s = execBwait t s := rfl
@[simp] theorem exec_barr t (s : State) : exec (.barr t) s = execBarr t s := rfl
@[simp] theorem exec_bredMin d a b (s : State) : exec (.bredMin d a b) s = execBredMin d a b s := rfl
@[simp] theorem exec_bredSum d a b (s : State) : exec (.bredSum d a b) s = execBredSum d a b s := rfl
@[simp] theorem exec_bredOr d a b (s : State) : exec (.bredOr d a b) s = execBredOr d a b s := rfl
@[simp] theorem exec_harm d a b (s : State) : exec (.harm d a b) s = execHarm d a b s := rfl
@[simp] theorem exec_harr a b (s : State) : exec (.harr a b) s = execHarr a b s := rfl
@[simp] theorem exec_hwait a b (s : State) : exec (.hwait a b) s = execHwait a b s := rfl
@[simp] theorem exec_hexp d a b (s : State) : exec (.hexp d a b) s = execHexp d a b s := rfl
@[simp] theorem exec_qfence a (s : State) : exec (.qfence a) s = execQfence a s := rfl
@[simp] theorem exec_vshape r c (s : State) : exec (.vshape r c) s = execVshape r c s := rfl
@[simp] theorem exec_vadd d a b t (s : State) : exec (.vadd d a b t) s = execVadd d a b t s := rfl
@[simp] theorem exec_vsub d a b t (s : State) : exec (.vsub d a b t) s = execVsub d a b t s := rfl
@[simp] theorem exec_vmul d a b t (s : State) : exec (.vmul d a b t) s = execVmul d a b t s := rfl
@[simp] theorem exec_vmla d a b t (s : State) : exec (.vmla d a b t) s = execVmla d a b t s := rfl
@[simp] theorem exec_vmin d a b t (s : State) : exec (.vmin d a b t) s = execVmin d a b t s := rfl
@[simp] theorem exec_vmax d a b t (s : State) : exec (.vmax d a b t) s = execVmax d a b t s := rfl
@[simp] theorem exec_vabs d a t (s : State) : exec (.vabs d a t) s = execVabs d a t s := rfl
@[simp] theorem exec_vneg d a t (s : State) : exec (.vneg d a t) s = execVneg d a t s := rfl
@[simp] theorem exec_vand d a b t (s : State) : exec (.vand d a b t) s = execVand d a b t s := rfl
@[simp] theorem exec_vor d a b t (s : State) : exec (.vor d a b t) s = execVor d a b t s := rfl
@[simp] theorem exec_vxor d a b t (s : State) : exec (.vxor d a b t) s = execVxor d a b t s := rfl
@[simp] theorem exec_vnot d a t (s : State) : exec (.vnot d a t) s = execVnot d a t s := rfl
@[simp] theorem exec_vshl d a b t (s : State) : exec (.vshl d a b t) s = execVshl d a b t s := rfl
@[simp] theorem exec_vshr d a b t (s : State) : exec (.vshr d a b t) s = execVshr d a b t s := rfl
@[simp] theorem exec_vadds d a b t (s : State) : exec (.vadds d a b t) s = execVadds d a b t s := rfl
@[simp] theorem exec_vsubs d a b t (s : State) : exec (.vsubs d a b t) s = execVsubs d a b t s := rfl
@[simp] theorem exec_vsel d a b t (s : State) : exec (.vsel d a b t) s = execVsel d a b t s := rfl
@[simp] theorem exec_vdiv d a b t (s : State) : exec (.vdiv d a b t) s = execVdiv d a b t s := rfl
@[simp] theorem exec_vrcp d a t (s : State) : exec (.vrcp d a t) s = execVrcp d a t s := rfl
@[simp] theorem exec_vrsq d a t (s : State) : exec (.vrsq d a t) s = execVrsq d a t s := rfl
@[simp] theorem exec_vsqrt d a t (s : State) : exec (.vsqrt d a t) s = execVsqrt d a t s := rfl
@[simp] theorem exec_vmov d a t (s : State) : exec (.vmov d a t) s = execVmov d a t s := rfl
@[simp] theorem exec_vtrans d a t (s : State) : exec (.vtrans d a t) s = execVtrans d a t s := rfl
@[simp] theorem exec_vmulh d a b t (s : State) : exec (.vmulh d a b t) s = execVmulh d a b t s := rfl
@[simp] theorem exec_vtacc d a b t (s : State) : exec (.vtacc d a b t) s = execVtacc d a b t s := rfl
@[simp] theorem exec_vdot4 d a b t (s : State) : exec (.vdot4 d a b t) s = execVdot4 d a b t s := rfl
@[simp] theorem exec_vcmp d a b t c (s : State) : exec (.vcmp d a b t c) s = execVcmp d a b t c s := rfl
@[simp] theorem exec_vcvt d a src sa am dst (s : State) : exec (.vcvt d a src sa am dst) s = execVcvt d a src sa am dst s := rfl
@[simp] theorem exec_vrint d a t (s : State) : exec (.vrint d a t) s = execVrint d a t s := rfl
@[simp] theorem exec_vfloor d a t (s : State) : exec (.vfloor d a t) s = execVfloor d a t s := rfl
@[simp] theorem exec_vceil d a t (s : State) : exec (.vceil d a t) s = execVceil d a t s := rfl
@[simp] theorem exec_vtrunc d a t (s : State) : exec (.vtrunc d a t) s = execVtrunc d a t s := rfl
@[simp] theorem exec_vrne d a t (s : State) : exec (.vrne d a t) s = execVrne d a t s := rfl
@[simp] theorem exec_vexf d a t (s : State) : exec (.vexf d a t) s = execVexf d a t s := rfl
@[simp] theorem exec_vinse d a b t (s : State) : exec (.vinse d a b t) s = execVinse d a b t s := rfl
@[simp] theorem exec_vgetexp d a t (s : State) : exec (.vgetexp d a t) s = execVgetexp d a t s := rfl
@[simp] theorem exec_vgetman d a t (s : State) : exec (.vgetman d a t) s = execVgetman d a t s := rfl
@[simp] theorem exec_vaddS d a z t (s : State) : exec (.vaddS d a z t) s = execVaddS d a z t s := rfl
@[simp] theorem exec_vsubS d a z t (s : State) : exec (.vsubS d a z t) s = execVsubS d a z t s := rfl
@[simp] theorem exec_vmulS d a z t (s : State) : exec (.vmulS d a z t) s = execVmulS d a z t s := rfl
@[simp] theorem exec_vmlaS d a z t (s : State) : exec (.vmlaS d a z t) s = execVmlaS d a z t s := rfl
@[simp] theorem exec_vminS d a z t (s : State) : exec (.vminS d a z t) s = execVminS d a z t s := rfl
@[simp] theorem exec_vmaxS d a z t (s : State) : exec (.vmaxS d a z t) s = execVmaxS d a z t s := rfl
@[simp] theorem exec_vbcast d z t (s : State) : exec (.vbcast d z t) s = execVbcast d z t s := rfl
@[simp] theorem exec_vshlS d a z t (s : State) : exec (.vshlS d a z t) s = execVshlS d a z t s := rfl
@[simp] theorem exec_vshrS d a z t (s : State) : exec (.vshrS d a z t) s = execVshrS d a z t s := rfl
@[simp] theorem exec_vredsum d a t r (s : State) : exec (.vredsum d a t r) s = execVredsum d a t r s := rfl
@[simp] theorem exec_vredmax d a t r (s : State) : exec (.vredmax d a t r) s = execVredmax d a t r s := rfl
@[simp] theorem exec_vredmin d a t r (s : State) : exec (.vredmin d a t r) s = execVredmin d a t r s := rfl
@[simp] theorem exec_vrot d a b t (s : State) : exec (.vrot d a b t) s = execVrot d a b t s := rfl
@[simp] theorem exec_vperm d a b t (s : State) : exec (.vperm d a b t) s = execVperm d a b t s := rfl
@[simp] theorem exec_vunp3 d a (s : State) : exec (.vunp3 d a) s = execVunp3 d a s := rfl
@[simp] theorem exec_vunp4 d a (s : State) : exec (.vunp4 d a) s = execVunp4 d a s := rfl
@[simp] theorem exec_vunp3i d a (s : State) : exec (.vunp3i d a) s = execVunp3i d a s := rfl
@[simp] theorem exec_vpack4 d a (s : State) : exec (.vpack4 d a) s = execVpack4 d a s := rfl
@[simp] theorem exec_vpack3 d a (s : State) : exec (.vpack3 d a) s = execVpack3 d a s := rfl
@[simp] theorem exec_vzip d a b t (s : State) : exec (.vzip d a b t) s = execVzip d a b t s := rfl
@[simp] theorem exec_vunzip d a t (s : State) : exec (.vunzip d a t) s = execVunzip d a t s := rfl
@[simp] theorem exec_vsplat d imm t (s : State) : exec (.vsplat d imm t) s = execVsplat d imm t s := rfl
@[simp] theorem exec_mma k a b c (s : State) : exec (.mma k a b c) s = execMma k a b c s := rfl
@[simp] theorem exec_mmaZ k a b c (s : State) : exec (.mmaZ k a b c) s = execMmaZ k a b c s := rfl
@[simp] theorem exec_mmaT k a b c (s : State) : exec (.mmaT k a b c) s = execMmaT k a b c s := rfl
@[simp] theorem exec_mmaTz k a b c (s : State) : exec (.mmaTz k a b c) s = execMmaTz k a b c s := rfl
@[simp] theorem exec_mzero k (s : State) : exec (.mzero k) s = execMzero k s := rfl
@[simp] theorem exec_mrd k a c (s : State) : exec (.mrd k a c) s = execMrd k a c s := rfl
@[simp] theorem exec_mwr k a c (s : State) : exec (.mwr k a c) s = execMwr k a c s := rfl
@[simp] theorem exec_mscl k a b c (s : State) : exec (.mscl k a b c) s = execMscl k a b c s := rfl
@[simp] theorem exec_smma k a b c (s : State) : exec (.smma k a b c) s = execSmma k a b c s := rfl
@[simp] theorem exec_smmaZ k a b c (s : State) : exec (.smmaZ k a b c) s = execSmmaZ k a b c s := rfl
@[simp] theorem exec_smmaB k a b c (s : State) : exec (.smmaB k a b c) s = execSmmaB k a b c s := rfl
@[simp] theorem exec_attnQk k a b c (s : State) : exec (.attnQk k a b c) s = execAttnQk k a b c s := rfl
@[simp] theorem exec_attnSm k c (s : State) : exec (.attnSm k c) s = execAttnSm k c s := rfl
@[simp] theorem exec_attnPv k a c (s : State) : exec (.attnPv k a c) s = execAttnPv k a c s := rfl
@[simp] theorem exec_attnFin k c (s : State) : exec (.attnFin k c) s = execAttnFin k c s := rfl
@[simp] theorem exec_attnStep k a b c (s : State) : exec (.attnStep k a b c) s = execAttnStep k a b c s := rfl
@[simp] theorem exec_ppop d a b (s : State) : exec (.ppop d a b) s = execPpop d a b s := rfl
@[simp] theorem exec_ppopNb d a b (s : State) : exec (.ppopNb d a b) s = execPpopNb d a b s := rfl
@[simp] theorem exec_steal d a b (s : State) : exec (.steal d a b) s = execSteal d a b s := rfl
@[simp] theorem exec_ppush d a b (s : State) : exec (.ppush d a b) s = execPpush d a b s := rfl
@[simp] theorem exec_rule d a b (s : State) : exec (.rule d a b) s = execRule d a b s := rfl
@[simp] theorem exec_rewr d a b (s : State) : exec (.rewr d a b) s = execRewr d a b s := rfl
@[simp] theorem exec_rcall d a b (s : State) : exec (.rcall d a b) s = execRcall d a b s := rfl
@[simp] theorem exec_rgroup d a b (s : State) : exec (.rgroup d a b) s = execRgroup d a b s := rfl
@[simp] theorem exec_nalloc d a b (s : State) : exec (.nalloc d a b) s = execNalloc d a b s := rfl
@[simp] theorem exec_nfree a b (s : State) : exec (.nfree a b) s = execNfree a b s := rfl
@[simp] theorem exec_mext a b (s : State) : exec (.mext a b) s = execMext a b s := rfl
@[simp] theorem exec_mget a b (s : State) : exec (.mget a b) s = execMget a b s := rfl
@[simp] theorem exec_mlock a (s : State) : exec (.mlock a) s = execMlock a s := rfl
@[simp] theorem exec_cfgrd d a (s : State) : exec (.cfgrd d a) s = execCfgrd d a s := rfl
@[simp] theorem exec_cfgwr a b (s : State) : exec (.cfgwr a b) s = execCfgwr a b s := rfl
@[simp] theorem exec_fret (s : State) : exec .fret s = execFret s := rfl
@[simp] theorem exec_ceCopy site idx (s : State) : exec (.ceCopy site idx) s = execCeCopy site idx s := rfl
@[simp] theorem exec_ceCopy2d site idx (s : State) : exec (.ceCopy2d site idx) s = execCeCopy2d site idx s := rfl
@[simp] theorem exec_ceFill site idx (s : State) : exec (.ceFill site idx) s = execCeFill site idx s := rfl
@[simp] theorem exec_ceCopymma site idx (s : State) : exec (.ceCopymma site idx) s = execCeCopymma site idx s := rfl
@[simp] theorem exec_geGather site idx (s : State) : exec (.geGather site idx) s = execGeGather site idx s := rfl
@[simp] theorem exec_geScatter site idx (s : State) : exec (.geScatter site idx) s = execGeScatter site idx s := rfl
@[simp] theorem exec_geScatw site idx (s : State) : exec (.geScatw site idx) s = execGeScatw site idx s := rfl
@[simp] theorem exec_meMma site idx (s : State) : exec (.meMma site idx) s = execMeMma site idx s := rfl
@[simp] theorem exec_clReduce site idx (s : State) : exec (.clReduce site idx) s = execClReduce site idx s := rfl
@[simp] theorem exec_clBcast site idx (s : State) : exec (.clBcast site idx) s = execClBcast site idx s := rfl
@[simp] theorem exec_msgCall site idx (s : State) : exec (.msgCall site idx) s = execMsgCall site idx s := rfl
@[simp] theorem exec_msgReply site idx (s : State) : exec (.msgReply site idx) s = execMsgReply site idx s := rfl
@[simp] theorem exec_qfenceCommand site idx (s : State) : exec (.qfenceCommand site idx) s = execQfenceCommand site idx s := rfl
@[simp] theorem exec_netPair site idx (s : State) : exec (.netPair site idx) s = execNetPair site idx s := rfl
@[simp] theorem exec_engineCompletion site idx (s : State) : exec (.engineCompletion site idx) s = execEngineCompletion site idx s := rfl
@[simp] theorem exec_copymmaMatrixWork site idx (s : State) : exec (.copymmaMatrixWork site idx) s = execCopymmaMatrixWork site idx s := rfl
@[simp] theorem exec_matrixItemStart site (s : State) : exec (.matrixItemStart site) s = execMatrixItemStart site s := rfl
@[simp] theorem exec_matrixItemRetire site (s : State) : exec (.matrixItemRetire site) s = execMatrixItemRetire site s := rfl
@[simp] theorem exec_bellPhaseComplete launch tag (s : State) : exec (.bellPhaseComplete launch tag) s = execBellPhaseComplete launch tag s := rfl
@[simp] theorem exec_stepIdleArrival site (s : State) : exec (.stepIdleArrival site) s = execStepIdleArrival site s := rfl
@[simp] theorem exec_stepPhaseComplete launch add drop (s : State) : exec (.stepPhaseComplete launch add drop) s = execStepPhaseComplete launch add drop s := rfl
@[simp] theorem exec_waitWatchdogExpiry w (s : State) : exec (.waitWatchdogExpiry w) s = execWaitWatchdogExpiry w s := rfl
@[simp] theorem exec_messageAccept idx (s : State) : exec (.messageAccept idx) s = execMessageAccept idx s := rfl
@[simp] theorem exec_taskSelect site (s : State) : exec (.taskSelect site) s = execTaskSelect site s := rfl
@[simp] theorem exec_snapshotLog site slot (s : State) : exec (.snapshotLog site slot) s = execSnapshotLog site slot s := rfl
@[simp] theorem exec_commit vi dom (s : State) : exec (.commit vi dom) s = execCommit vi dom s := rfl
@[simp] theorem exec_foldPush idx (s : State) : exec (.foldPush idx) s = execFoldPush idx s := rfl
@[simp] theorem exec_droverGrant field (s : State) : exec (.droverGrant field) s = execDroverGrant field s := rfl
@[simp] theorem exec_loanRequest field lender (s : State) : exec (.loanRequest field lender) s = execLoanRequest field lender s := rfl
@[simp] theorem exec_loanComplete idx (s : State) : exec (.loanComplete idx) s = execLoanComplete idx s := rfl
@[simp] theorem exec_loanRecall lender borrower (s : State) : exec (.loanRecall lender borrower) s = execLoanRecall lender borrower s := rfl
@[simp] theorem exec_revocation field site slot n (s : State) : exec (.revocation field site slot n) s = execRevocation field site slot n s := rfl
@[simp] theorem exec_openRequestTimeout site slot (s : State) : exec (.openRequestTimeout site slot) s = execOpenRequestTimeout site slot s := rfl
@[simp] theorem exec_noticeEnd site slot (s : State) : exec (.noticeEnd site slot) s = execNoticeEnd site slot s := rfl
@[simp] theorem exec_lentTokensArrive idx (s : State) : exec (.lentTokensArrive idx) s = execLentTokensArrive idx s := rfl
@[simp] theorem exec_powerLimitCut (s : State) : exec .powerLimitCut s = execPowerLimitCut s := rfl
@[simp] theorem exec_preemptRequest site (s : State) : exec (.preemptRequest site) s = execPreemptRequest site s := rfl
@[simp] theorem exec_prewinExpiry site slot (s : State) : exec (.prewinExpiry site slot) s = execPrewinExpiry site slot s := rfl
@[simp] theorem exec_tileResume site (s : State) : exec (.tileResume site) s = execTileResume site s := rfl
@[simp] theorem exec_rehomeStepTimeout launch (s : State) : exec (.rehomeStepTimeout launch) s = execRehomeStepTimeout launch s := rfl
@[simp] theorem exec_rehomeEvent field (s : State) : exec (.rehomeEvent field) s = execRehomeEvent field s := rfl
@[simp] theorem exec_pageMigration field (s : State) : exec (.pageMigration field) s = execPageMigration field s := rfl
@[simp] theorem exec_clGroupTimeout idx (s : State) : exec (.clGroupTimeout idx) s = execClGroupTimeout idx s := rfl
@[simp] theorem exec_retentionEntry site (s : State) : exec (.retentionEntry site) s = execRetentionEntry site s := rfl
@[simp] theorem exec_retentionExit site (s : State) : exec (.retentionExit site) s = execRetentionExit site s := rfl
@[simp] theorem exec_shadowLatchReplay site second (s : State) : exec (.shadowLatchReplay site second) s = execShadowLatchReplay site second s := rfl
@[simp] theorem exec_guardBandCheck field (s : State) : exec (.guardBandCheck field) s = execGuardBandCheck field s := rfl
@[simp] theorem exec_routerEntryAging field (s : State) : exec (.routerEntryAging field) s = execRouterEntryAging field s := rfl
@[simp] theorem exec_windowSlotStore vi queue slot off val (s : State) : exec (.windowSlotStore vi queue slot off val) s = execWindowSlotStore vi queue slot off val s := rfl
@[simp] theorem exec_recordEnqueue vi queue slot (s : State) : exec (.recordEnqueue vi queue slot) s = execRecordEnqueue vi queue slot s := rfl
@[simp] theorem exec_recordValidation vi queue (s : State) : exec (.recordValidation vi queue) s = execRecordValidation vi queue s := rfl
@[simp] theorem exec_launchStart vi queue grant (s : State) : exec (.launchStart vi queue grant) s = execLaunchStart vi queue grant s := rfl
@[simp] theorem exec_launchCompletion launch (s : State) : exec (.launchCompletion launch) s = execLaunchCompletion launch s := rfl
@[simp] theorem exec_tileClear site (s : State) : exec (.tileClear site) s = execTileClear site s := rfl
@[simp] theorem exec_taskLaunchRequest idx (s : State) : exec (.taskLaunchRequest idx) s = execTaskLaunchRequest idx s := rfl
@[simp] theorem exec_lcmdRelease vi queue seq (s : State) : exec (.lcmdRelease vi queue seq) s = execLcmdRelease vi queue seq s := rfl
@[simp] theorem exec_lcmdCancel vi queue seq (s : State) : exec (.lcmdCancel vi queue seq) s = execLcmdCancel vi queue seq s := rfl
@[simp] theorem exec_unbsetWrite vi val (s : State) : exec (.unbsetWrite vi val) s = execUnbsetWrite vi val s := rfl
@[simp] theorem exec_cqheadWrite vi queue val (s : State) : exec (.cqheadWrite vi queue val) s = execCqheadWrite vi queue val s := rfl
@[simp] theorem exec_tcmdReleaseTask vi dom task (s : State) : exec (.tcmdReleaseTask vi dom task) s = execTcmdReleaseTask vi dom task s := rfl
@[simp] theorem exec_tcmdCancelTask vi dom task (s : State) : exec (.tcmdCancelTask vi dom task) s = execTcmdCancelTask vi dom task s := rfl
@[simp] theorem exec_tcmdReleaseParked vi asid (s : State) : exec (.tcmdReleaseParked vi asid) s = execTcmdReleaseParked vi asid s := rfl
@[simp] theorem exec_shcmdPage vi asid (s : State) : exec (.shcmdPage vi asid) s = execShcmdPage vi asid s := rfl
@[simp] theorem exec_shcmdAsid vi asid (s : State) : exec (.shcmdAsid vi asid) s = execShcmdAsid vi asid s := rfl
@[simp] theorem exec_shcmdInterface vi (s : State) : exec (.shcmdInterface vi) s = execShcmdInterface vi s := rfl
@[simp] theorem exec_shootdownComplete vi (s : State) : exec (.shootdownComplete vi) s = execShootdownComplete vi s := rfl
@[simp] theorem exec_faultRecordWrite vi (s : State) : exec (.faultRecordWrite vi) s = execFaultRecordWrite vi s := rfl
@[simp] theorem exec_frheadWrite vi val (s : State) : exec (.frheadWrite vi val) s = execFrheadWrite vi val s := rfl
@[simp] theorem exec_qcmdQuote vi (s : State) : exec (.qcmdQuote vi) s = execQcmdQuote vi s := rfl
@[simp] theorem exec_quoteComplete vi (s : State) : exec (.quoteComplete vi) s = execQuoteComplete vi s := rfl
@[simp] theorem exec_mapctlDiscard field (s : State) : exec (.mapctlDiscard field) s = execMapctlDiscard field s := rfl
@[simp] theorem exec_mapctlCheckVote field (s : State) : exec (.mapctlCheckVote field) s = execMapctlCheckVote field s := rfl
@[simp] theorem exec_mapVoteComplete (s : State) : exec .mapVoteComplete s = execMapVoteComplete s := rfl
@[simp] theorem exec_registerWrite r val (s : State) : exec (.registerWrite r val) s = execRegisterWrite r val s := rfl
@[simp] theorem exec_rootPortDma port req (s : State) : exec (.rootPortDma port req) s = execRootPortDma port req s := rfl
@[simp] theorem exec_boot (s : State) : exec .boot s = execBoot s := rfl
@[simp] theorem exec_retirementStepTimeout launch (s : State) : exec (.retirementStepTimeout launch) s = execRetirementStepTimeout launch s := rfl
@[simp] theorem exec_supplyDroop cluster period margin (s : State) : exec (.supplyDroop cluster period margin) s = execSupplyDroop cluster period margin s := rfl
@[simp] theorem exec_moduleLinkLoss link (s : State) : exec (.moduleLinkLoss link) s = execModuleLinkLoss link s := rfl

end Sys2Proof.Machine
end

