-- ==== Sys2Proof/Laws/Maps.lean ====
section
/-! SUPPORT. Laws of the records by number, of vectors, and of byte memory: a read after a write gives what was written,
a write leaves every other place alone, and every memory operation keeps the canonical form. -/

namespace Sys2Proof.Machine

theorem sget_sset_self {α : Type} (d : α) (k : Nat) (a : α) (m : Sparse α) : sget d k (sset k a m) = a := by
  induction m with
  | nil => simp [sset, sget]
  | cons p r ih =>
    obtain ⟨i, b⟩ := p
    by_cases h1 : k < i
    · simp [sset, h1, sget]
    · by_cases h2 : k = i
      · simp [sset, h2, sget]
      · simp [sset, h1, h2, sget, Ne.symm h2, ih]

theorem sget_sset_ne {α : Type} (d : α) {j k : Nat} (a : α) (h : j ≠ k) (m : Sparse α) :
    sget d j (sset k a m) = sget d j m := by
  induction m with
  | nil => simp [sset, sget, Ne.symm h]
  | cons p r ih =>
    obtain ⟨i, b⟩ := p
    by_cases h1 : k < i
    · simp [sset, h1, sget, Ne.symm h]
    · by_cases h2 : k = i
      · subst h2
        simp [sset, sget, Ne.symm h]
      · simp [sset, h1, h2, sget, ih]

theorem sget?_sset_self {α : Type} (k : Nat) (a : α) (m : Sparse α) : sget? k (sset k a m) = some a := by
  induction m with
  | nil => simp [sset, sget?]
  | cons p r ih =>
    obtain ⟨i, b⟩ := p
    by_cases h1 : k < i
    · simp [sset, h1, sget?]
    · by_cases h2 : k = i
      · simp [sset, h2, sget?]
      · simp [sset, h1, h2, sget?, Ne.symm h2, ih]

theorem sget?_sset_ne {α : Type} {j k : Nat} (a : α) (h : j ≠ k) (m : Sparse α) :
    sget? j (sset k a m) = sget? j m := by
  induction m with
  | nil => simp [sset, sget?, Ne.symm h]
  | cons p r ih =>
    obtain ⟨i, b⟩ := p
    by_cases h1 : k < i
    · simp [sset, h1, sget?, Ne.symm h]
    · by_cases h2 : k = i
      · subst h2
        simp [sset, sget?, Ne.symm h]
      · simp [sset, h1, h2, sget?, ih]

theorem vget_vput_self {α : Type} {n : Nat} (d : α) (v : Vector α n) (k : Nat) (a : α) (h : k < n) :
    vget d (vput v k a) k = a := by
  simp [vget, vput, h]

theorem vget_vput_ne {α : Type} {n : Nat} (d : α) (v : Vector α n) {j k : Nat} (a : α) (h : j ≠ k) :
    vget d (vput v k a) j = vget d v j := by
  simp [vget, vput, Ne.symm h]

/-! ## Byte memory -/

theorem sorted_cons (a : Nat) (l : List Nat) :
    sorted (a :: l) = true ↔ (∀ x ∈ l, a < x) ∧ sorted l = true := by
  induction l generalizing a with
  | nil => simp [sorted]
  | cons b r ih =>
    simp only [sorted, Bool.and_eq_true, decide_eq_true_eq, List.mem_cons, forall_eq_or_imp]
    constructor
    · rintro ⟨h, hs⟩
      exact ⟨⟨h, fun x hx => lt_trans h (((ih b).1 hs).1 x hx)⟩, hs⟩
    · rintro ⟨⟨h, _⟩, hs⟩
      exact ⟨h, hs⟩

theorem Memory.wf_nil : Memory.wf [] = true := rfl

/-- The canonical form, entry by entry. -/
theorem Memory.wf_cons (i : Nat) (c : Byte) (r : Memory) :
    Memory.wf ((i, c) :: r) = true ↔ (∀ p ∈ r, i < p.1) ∧ c ≠ 0 ∧ Memory.wf r = true := by
  simp only [Memory.wf, List.map_cons, Bool.and_eq_true, sorted_cons, List.all_cons, List.mem_map, bne_iff_ne,
    forall_exists_index, and_imp, forall_apply_eq_imp_iff₂]
  tauto

/-- An address below every entry reads as unlisted. -/
theorem Memory.read_below (a : Nat) (m : Memory) (h : ∀ p ∈ m, a < p.1) : m.read a = unlistedByte := by
  induction m with
  | nil => rfl
  | cons p r ih =>
    obtain ⟨i, c⟩ := p
    have hi : a < i := h (i, c) (by simp)
    simp only [Memory.read, sget] at *
    rw [if_neg (by omega)]
    exact ih (fun p hp => h p (by simp [hp]))

/-- A write leaves every other address alone, whatever the memory's form. -/
theorem Memory.read_write_ne {a k : Nat} (b : Byte) (m : Memory) (h : k ≠ a) : (m.write a b).read k = m.read k := by
  induction m with
  | nil =>
    by_cases hb : b = unlistedByte <;> simp [Memory.write, Memory.read, sget, hb, Ne.symm h]
  | cons p r ih =>
    obtain ⟨i, c⟩ := p
    simp only [Memory.read] at ih
    by_cases h1 : a < i
    · by_cases hb : b = unlistedByte <;> simp [Memory.write, Memory.read, sget, h1, hb, Ne.symm h]
    · by_cases h2 : a = i
      · subst h2
        by_cases hb : b = unlistedByte <;> simp [Memory.write, Memory.read, sget, hb, Ne.symm h]
      · by_cases h3 : i = k
        · subst h3
          simp [Memory.write, Memory.read, sget, h1, h2]
        · simp [Memory.write, Memory.read, sget, h1, h2, h3, ih]

/-- Read after write at the same address. -/
theorem Memory.read_write_self (a : Nat) (b : Byte) (m : Memory) (h : m.wf = true) : (m.write a b).read a = b := by
  induction m with
  | nil =>
    by_cases hb : b = unlistedByte <;> simp [Memory.write, Memory.read, sget, hb]
  | cons p r ih =>
    obtain ⟨i, c⟩ := p
    obtain ⟨hlt, hc, hr⟩ := (Memory.wf_cons i c r).1 h
    have ih := ih hr
    simp only [Memory.read] at ih
    by_cases h1 : a < i
    · by_cases hb : b = unlistedByte
      · have := Memory.read_below a r (fun p hp => lt_trans h1 (hlt p hp))
        simp only [Memory.read] at this
        simp [Memory.write, Memory.read, sget, h1, hb, this, Nat.ne_of_gt h1]
      · simp [Memory.write, Memory.read, sget, h1, hb]
    · by_cases h2 : a = i
      · subst h2
        by_cases hb : b = unlistedByte
        · have := Memory.read_below a r hlt
          simp only [Memory.read] at this
          simp [Memory.write, Memory.read, hb, this]
        · simp [Memory.write, Memory.read, sget, hb]
      · simp [Memory.write, Memory.read, sget, h1, h2, Ne.symm h2, ih]

theorem Memory.mem_write {a : Nat} {b : Byte} {m : Memory} {p : Host.Cell} (h : p ∈ m.write a b) :
    p ∈ m ∨ (p.1 = a ∧ p.2 ≠ 0) := by
  induction m with
  | nil =>
    by_cases hb : b = unlistedByte
    · simp [Memory.write, hb] at h
    · simp only [Memory.write, hb, if_false, List.mem_singleton] at h
      subst h
      exact .inr ⟨rfl, hb⟩
  | cons q r ih =>
    obtain ⟨i, c⟩ := q
    by_cases hb : b = unlistedByte
    · by_cases h1 : a < i
      · simp only [Memory.write, h1, hb, if_true] at h
        exact .inl h
      · by_cases h2 : a = i
        · simp only [Memory.write, hb, h2, lt_irrefl, if_false, if_true] at h
          exact .inl (by simp [h])
        · simp only [Memory.write, h1, h2, if_false, List.mem_cons] at h ⊢
          rcases h with h | h
          · exact .inl (.inl h)
          · rcases ih h with h | h
            · exact .inl (.inr h)
            · exact .inr h
    · by_cases h1 : a < i
      · simp only [Memory.write, h1, hb, if_true, if_false, List.mem_cons] at h ⊢
        rcases h with h | h
        · subst h
          exact .inr ⟨rfl, hb⟩
        · exact .inl h
      · by_cases h2 : a = i
        · simp only [Memory.write, hb, h2, lt_irrefl, if_false, if_true, List.mem_cons] at h ⊢
          rcases h with h | h
          · subst h
            exact .inr ⟨h2.symm ▸ rfl, hb⟩
          · exact .inl (.inr h)
        · simp only [Memory.write, h1, h2, if_false, List.mem_cons] at h ⊢
          rcases h with h | h
          · exact .inl (.inl h)
          · rcases ih h with h | h
            · exact .inl (.inr h)
            · exact .inr h

/-- A write keeps the canonical form. -/
theorem Memory.wf_write (a : Nat) (b : Byte) (m : Memory) (h : m.wf = true) : (m.write a b).wf = true := by
  induction m with
  | nil =>
    by_cases hb : b = unlistedByte
    · simp [Memory.write, hb, Memory.wf_nil]
    · simp only [Memory.write, hb, if_false]
      exact (Memory.wf_cons a b []).2 ⟨by simp, hb, Memory.wf_nil⟩
  | cons p r ih =>
    obtain ⟨i, c⟩ := p
    obtain ⟨hlt, hc, hr⟩ := (Memory.wf_cons i c r).1 h
    by_cases h1 : a < i
    · by_cases hb : b = unlistedByte
      · simpa [Memory.write, h1, hb] using h
      · simp only [Memory.write, h1, hb, if_true, if_false]
        refine (Memory.wf_cons a b _).2 ⟨?_, hb, h⟩
        intro p hp
        rcases List.mem_cons.1 hp with hp | hp
        · subst hp
          exact h1
        · exact lt_trans h1 (hlt p hp)
    · by_cases h2 : a = i
      · by_cases hb : b = unlistedByte
        · simpa [Memory.write, hb, h2] using hr
        · subst h2
          simp only [Memory.write, hb, lt_irrefl, if_true, if_false]
          exact (Memory.wf_cons a b r).2 ⟨hlt, hb, hr⟩
      · simp only [Memory.write, h1, h2, if_false]
        refine (Memory.wf_cons i c _).2 ⟨?_, hc, ih hr⟩
        intro p hp
        rcases Memory.mem_write hp with hp | ⟨hp, _⟩
        · exact hlt p hp
        · rw [hp]
          omega

/-- A write of several bytes keeps the canonical form. -/
theorem Memory.wf_writeN (l : List Byte) (a : Nat) (m : Memory) (h : m.wf = true) : (m.writeN a l).wf = true := by
  induction l generalizing a m with
  | nil => exact h
  | cons b r ih => exact ih (a + 1) _ (Memory.wf_write a b m h)

/-- A write of several bytes leaves every address outside them alone. -/
theorem Memory.read_writeN_ne (l : List Byte) (a k : Nat) (m : Memory) (h : k < a ∨ a + l.length ≤ k) :
    (m.writeN a l).read k = m.read k := by
  induction l generalizing a m with
  | nil => rfl
  | cons b r ih =>
    simp only [List.length_cons] at h
    simp only [Memory.writeN]
    rw [ih (a + 1) _ (by omega), Memory.read_write_ne b m (by omega)]

/-- The bytes of a write of several are read back. -/
theorem Memory.read_writeN_self (l : List Byte) (a : Nat) (m : Memory) (h : m.wf = true) (k : Nat) (hk : k < l.length) :
    (m.writeN a l).read (a + k) = l[k] := by
  induction l generalizing a m k with
  | nil => simp at hk
  | cons b r ih =>
    simp only [Memory.writeN]
    cases k with
    | zero =>
      have := Memory.read_writeN_ne r (a + 1) a (m.write a b) (by omega)
      rw [Memory.read_write_self a b m h] at this
      simpa using this
    | succ k =>
      have := ih (a + 1) (m.write a b) (Memory.wf_write a b m h) k (by simpa using hk)
      rw [show a + (k + 1) = a + 1 + k by omega, this]
      rfl

theorem leBytes_length (n v : Nat) : (leBytes n v).length = n := by
  induction n generalizing v with
  | zero => rfl
  | succ n ih => simp [leBytes, ih]

/-- Reading a number's bytes gives the number back, modulo its width. -/
theorem leNat_leBytes (n v : Nat) : leNat (leBytes n v) = v % 256 ^ n := by
  induction n generalizing v with
  | zero => simp [leBytes, leNat, Nat.mod_one]
  | succ n ih =>
    simp only [leBytes, leNat, ih, BitVec.toNat_ofNat]
    have h : 256 ^ (n + 1) = 256 * 256 ^ n := Nat.pow_succ'
    rw [h, Nat.mod_mul (x := v) (a := 256)]

end Sys2Proof.Machine
end

