-- ==== Sys2Proof/Laws/State.lean ====
section
/-! SUPPORT. One lemma per field and update of State: what an update of one kind of record leaves alone, and what it
leaves to be read of the records it changes. -/

namespace Sys2Proof.Machine

@[simp] theorem State.setTile_agenda (s : State) (site : Nat) (t : Tile) : (s.setTile site t).agenda = s.agenda := rfl
@[simp] theorem State.setTile_turn (s : State) (site : Nat) (t : Tile) : (s.setTile site t).turn = s.turn := rfl
@[simp] theorem State.setTile_choices (s : State) (site : Nat) (t : Tile) : (s.setTile site t).choices = s.choices := rfl
@[simp] theorem State.setTile_draws (s : State) (site : Nat) (t : Tile) : (s.setTile site t).draws = s.draws := rfl
@[simp] theorem State.setTile_mem (s : State) (site : Nat) (t : Tile) : (s.setTile site t).mem = s.mem := rfl
@[simp] theorem State.setTile_l2 (s : State) (site : Nat) (t : Tile) : (s.setTile site t).l2 = s.l2 := rfl
@[simp] theorem State.setTile_readers (s : State) (site : Nat) (t : Tile) : (s.setTile site t).readers = s.readers := rfl
@[simp] theorem State.setTile_leaves (s : State) (site : Nat) (t : Tile) : (s.setTile site t).leaves = s.leaves := rfl
@[simp] theorem State.setTile_poison (s : State) (site : Nat) (t : Tile) : (s.setTile site t).poison = s.poison := rfl
@[simp] theorem State.setTile_hbmPoison (s : State) (site : Nat) (t : Tile) : (s.setTile site t).hbmPoison = s.hbmPoison := rfl
@[simp] theorem State.setTile_weak (s : State) (site : Nat) (t : Tile) : (s.setTile site t).weak = s.weak := rfl
@[simp] theorem State.setTile_bad (s : State) (site : Nat) (t : Tile) : (s.setTile site t).bad = s.bad := rfl
@[simp] theorem State.setTile_refTicks (s : State) (site : Nat) (t : Tile) : (s.setTile site t).refTicks = s.refTicks := rfl
@[simp] theorem State.setTile_gtime (s : State) (site : Nat) (t : Tile) : (s.setTile site t).gtime = s.gtime := rfl
@[simp] theorem State.setTile_tskew (s : State) (site : Nat) (t : Tile) : (s.setTile site t).tskew = s.tskew := rfl
@[simp] theorem State.setTile_clusters (s : State) (site : Nat) (t : Tile) : (s.setTile site t).clusters = s.clusters := rfl
@[simp] theorem State.setTile_fields (s : State) (site : Nat) (t : Tile) : (s.setTile site t).fields = s.fields := rfl
@[simp] theorem State.setTile_vis (s : State) (site : Nat) (t : Tile) : (s.setTile site t).vis = s.vis := rfl
@[simp] theorem State.setTile_launches (s : State) (site : Nat) (t : Tile) : (s.setTile site t).launches = s.launches := rfl
@[simp] theorem State.setTile_nextLaunch (s : State) (site : Nat) (t : Tile) : (s.setTile site t).nextLaunch = s.nextLaunch := rfl
@[simp] theorem State.setTile_luTasks (s : State) (site : Nat) (t : Tile) : (s.setTile site t).luTasks = s.luTasks := rfl
@[simp] theorem State.setTile_images (s : State) (site : Nat) (t : Tile) : (s.setTile site t).images = s.images := rfl
@[simp] theorem State.setTile_mesh (s : State) (site : Nat) (t : Tile) : (s.setTile site t).mesh = s.mesh := rfl
@[simp] theorem State.setTile_parts (s : State) (site : Nat) (t : Tile) : (s.setTile site t).parts = s.parts := rfl
@[simp] theorem State.setTile_rehome (s : State) (site : Nat) (t : Tile) : (s.setTile site t).rehome = s.rehome := rfl
@[simp] theorem State.setTile_crofts (s : State) (site : Nat) (t : Tile) : (s.setTile site t).crofts = s.crofts := rfl
@[simp] theorem State.setTile_sec (s : State) (site : Nat) (t : Tile) : (s.setTile site t).sec = s.sec := rfl
@[simp] theorem State.setTile_rims (s : State) (site : Nat) (t : Tile) : (s.setTile site t).rims = s.rims := rfl
@[simp] theorem State.setTile_ports (s : State) (site : Nat) (t : Tile) : (s.setTile site t).ports = s.ports := rfl
@[simp] theorem State.setTile_links (s : State) (site : Nat) (t : Tile) : (s.setTile site t).links = s.links := rfl
@[simp] theorem State.setTile_flash (s : State) (site : Nat) (t : Tile) : (s.setTile site t).flash = s.flash := rfl
@[simp] theorem State.setTile_bootCode (s : State) (site : Nat) (t : Tile) : (s.setTile site t).bootCode = s.bootCode := rfl
@[simp] theorem State.setTile_bootStage (s : State) (site : Nat) (t : Tile) : (s.setTile site t).bootStage = s.bootStage := rfl
@[simp] theorem State.setTile_mapTries (s : State) (site : Nat) (t : Tile) : (s.setTile site t).mapTries = s.mapTries := rfl
@[simp] theorem State.setTile_mapCrcs (s : State) (site : Nat) (t : Tile) : (s.setTile site t).mapCrcs = s.mapCrcs := rfl

@[simp] theorem State.modTile_agenda (s : State) (site : Nat) (g : Tile → Tile) : (s.modTile site g).agenda = s.agenda := rfl
@[simp] theorem State.modTile_turn (s : State) (site : Nat) (g : Tile → Tile) : (s.modTile site g).turn = s.turn := rfl
@[simp] theorem State.modTile_choices (s : State) (site : Nat) (g : Tile → Tile) : (s.modTile site g).choices = s.choices := rfl
@[simp] theorem State.modTile_draws (s : State) (site : Nat) (g : Tile → Tile) : (s.modTile site g).draws = s.draws := rfl
@[simp] theorem State.modTile_mem (s : State) (site : Nat) (g : Tile → Tile) : (s.modTile site g).mem = s.mem := rfl
@[simp] theorem State.modTile_l2 (s : State) (site : Nat) (g : Tile → Tile) : (s.modTile site g).l2 = s.l2 := rfl
@[simp] theorem State.modTile_readers (s : State) (site : Nat) (g : Tile → Tile) : (s.modTile site g).readers = s.readers := rfl
@[simp] theorem State.modTile_leaves (s : State) (site : Nat) (g : Tile → Tile) : (s.modTile site g).leaves = s.leaves := rfl
@[simp] theorem State.modTile_poison (s : State) (site : Nat) (g : Tile → Tile) : (s.modTile site g).poison = s.poison := rfl
@[simp] theorem State.modTile_hbmPoison (s : State) (site : Nat) (g : Tile → Tile) : (s.modTile site g).hbmPoison = s.hbmPoison := rfl
@[simp] theorem State.modTile_weak (s : State) (site : Nat) (g : Tile → Tile) : (s.modTile site g).weak = s.weak := rfl
@[simp] theorem State.modTile_bad (s : State) (site : Nat) (g : Tile → Tile) : (s.modTile site g).bad = s.bad := rfl
@[simp] theorem State.modTile_refTicks (s : State) (site : Nat) (g : Tile → Tile) : (s.modTile site g).refTicks = s.refTicks := rfl
@[simp] theorem State.modTile_gtime (s : State) (site : Nat) (g : Tile → Tile) : (s.modTile site g).gtime = s.gtime := rfl
@[simp] theorem State.modTile_tskew (s : State) (site : Nat) (g : Tile → Tile) : (s.modTile site g).tskew = s.tskew := rfl
@[simp] theorem State.modTile_clusters (s : State) (site : Nat) (g : Tile → Tile) : (s.modTile site g).clusters = s.clusters := rfl
@[simp] theorem State.modTile_fields (s : State) (site : Nat) (g : Tile → Tile) : (s.modTile site g).fields = s.fields := rfl
@[simp] theorem State.modTile_vis (s : State) (site : Nat) (g : Tile → Tile) : (s.modTile site g).vis = s.vis := rfl
@[simp] theorem State.modTile_launches (s : State) (site : Nat) (g : Tile → Tile) : (s.modTile site g).launches = s.launches := rfl
@[simp] theorem State.modTile_nextLaunch (s : State) (site : Nat) (g : Tile → Tile) : (s.modTile site g).nextLaunch = s.nextLaunch := rfl
@[simp] theorem State.modTile_luTasks (s : State) (site : Nat) (g : Tile → Tile) : (s.modTile site g).luTasks = s.luTasks := rfl
@[simp] theorem State.modTile_images (s : State) (site : Nat) (g : Tile → Tile) : (s.modTile site g).images = s.images := rfl
@[simp] theorem State.modTile_mesh (s : State) (site : Nat) (g : Tile → Tile) : (s.modTile site g).mesh = s.mesh := rfl
@[simp] theorem State.modTile_parts (s : State) (site : Nat) (g : Tile → Tile) : (s.modTile site g).parts = s.parts := rfl
@[simp] theorem State.modTile_rehome (s : State) (site : Nat) (g : Tile → Tile) : (s.modTile site g).rehome = s.rehome := rfl
@[simp] theorem State.modTile_crofts (s : State) (site : Nat) (g : Tile → Tile) : (s.modTile site g).crofts = s.crofts := rfl
@[simp] theorem State.modTile_sec (s : State) (site : Nat) (g : Tile → Tile) : (s.modTile site g).sec = s.sec := rfl
@[simp] theorem State.modTile_rims (s : State) (site : Nat) (g : Tile → Tile) : (s.modTile site g).rims = s.rims := rfl
@[simp] theorem State.modTile_ports (s : State) (site : Nat) (g : Tile → Tile) : (s.modTile site g).ports = s.ports := rfl
@[simp] theorem State.modTile_links (s : State) (site : Nat) (g : Tile → Tile) : (s.modTile site g).links = s.links := rfl
@[simp] theorem State.modTile_flash (s : State) (site : Nat) (g : Tile → Tile) : (s.modTile site g).flash = s.flash := rfl
@[simp] theorem State.modTile_bootCode (s : State) (site : Nat) (g : Tile → Tile) : (s.modTile site g).bootCode = s.bootCode := rfl
@[simp] theorem State.modTile_bootStage (s : State) (site : Nat) (g : Tile → Tile) : (s.modTile site g).bootStage = s.bootStage := rfl
@[simp] theorem State.modTile_mapTries (s : State) (site : Nat) (g : Tile → Tile) : (s.modTile site g).mapTries = s.mapTries := rfl
@[simp] theorem State.modTile_mapCrcs (s : State) (site : Nat) (g : Tile → Tile) : (s.modTile site g).mapCrcs = s.mapCrcs := rfl

@[simp] theorem State.modCluster_agenda (s : State) (k : Nat) (g : Cluster → Cluster) : (s.modCluster k g).agenda = s.agenda := rfl
@[simp] theorem State.modCluster_turn (s : State) (k : Nat) (g : Cluster → Cluster) : (s.modCluster k g).turn = s.turn := rfl
@[simp] theorem State.modCluster_choices (s : State) (k : Nat) (g : Cluster → Cluster) : (s.modCluster k g).choices = s.choices := rfl
@[simp] theorem State.modCluster_draws (s : State) (k : Nat) (g : Cluster → Cluster) : (s.modCluster k g).draws = s.draws := rfl
@[simp] theorem State.modCluster_mem (s : State) (k : Nat) (g : Cluster → Cluster) : (s.modCluster k g).mem = s.mem := rfl
@[simp] theorem State.modCluster_l2 (s : State) (k : Nat) (g : Cluster → Cluster) : (s.modCluster k g).l2 = s.l2 := rfl
@[simp] theorem State.modCluster_readers (s : State) (k : Nat) (g : Cluster → Cluster) : (s.modCluster k g).readers = s.readers := rfl
@[simp] theorem State.modCluster_leaves (s : State) (k : Nat) (g : Cluster → Cluster) : (s.modCluster k g).leaves = s.leaves := rfl
@[simp] theorem State.modCluster_poison (s : State) (k : Nat) (g : Cluster → Cluster) : (s.modCluster k g).poison = s.poison := rfl
@[simp] theorem State.modCluster_hbmPoison (s : State) (k : Nat) (g : Cluster → Cluster) : (s.modCluster k g).hbmPoison = s.hbmPoison := rfl
@[simp] theorem State.modCluster_weak (s : State) (k : Nat) (g : Cluster → Cluster) : (s.modCluster k g).weak = s.weak := rfl
@[simp] theorem State.modCluster_bad (s : State) (k : Nat) (g : Cluster → Cluster) : (s.modCluster k g).bad = s.bad := rfl
@[simp] theorem State.modCluster_refTicks (s : State) (k : Nat) (g : Cluster → Cluster) : (s.modCluster k g).refTicks = s.refTicks := rfl
@[simp] theorem State.modCluster_gtime (s : State) (k : Nat) (g : Cluster → Cluster) : (s.modCluster k g).gtime = s.gtime := rfl
@[simp] theorem State.modCluster_tskew (s : State) (k : Nat) (g : Cluster → Cluster) : (s.modCluster k g).tskew = s.tskew := rfl
@[simp] theorem State.modCluster_tiles (s : State) (k : Nat) (g : Cluster → Cluster) : (s.modCluster k g).tiles = s.tiles := rfl
@[simp] theorem State.modCluster_fields (s : State) (k : Nat) (g : Cluster → Cluster) : (s.modCluster k g).fields = s.fields := rfl
@[simp] theorem State.modCluster_vis (s : State) (k : Nat) (g : Cluster → Cluster) : (s.modCluster k g).vis = s.vis := rfl
@[simp] theorem State.modCluster_launches (s : State) (k : Nat) (g : Cluster → Cluster) : (s.modCluster k g).launches = s.launches := rfl
@[simp] theorem State.modCluster_nextLaunch (s : State) (k : Nat) (g : Cluster → Cluster) : (s.modCluster k g).nextLaunch = s.nextLaunch := rfl
@[simp] theorem State.modCluster_luTasks (s : State) (k : Nat) (g : Cluster → Cluster) : (s.modCluster k g).luTasks = s.luTasks := rfl
@[simp] theorem State.modCluster_images (s : State) (k : Nat) (g : Cluster → Cluster) : (s.modCluster k g).images = s.images := rfl
@[simp] theorem State.modCluster_mesh (s : State) (k : Nat) (g : Cluster → Cluster) : (s.modCluster k g).mesh = s.mesh := rfl
@[simp] theorem State.modCluster_parts (s : State) (k : Nat) (g : Cluster → Cluster) : (s.modCluster k g).parts = s.parts := rfl
@[simp] theorem State.modCluster_rehome (s : State) (k : Nat) (g : Cluster → Cluster) : (s.modCluster k g).rehome = s.rehome := rfl
@[simp] theorem State.modCluster_crofts (s : State) (k : Nat) (g : Cluster → Cluster) : (s.modCluster k g).crofts = s.crofts := rfl
@[simp] theorem State.modCluster_sec (s : State) (k : Nat) (g : Cluster → Cluster) : (s.modCluster k g).sec = s.sec := rfl
@[simp] theorem State.modCluster_rims (s : State) (k : Nat) (g : Cluster → Cluster) : (s.modCluster k g).rims = s.rims := rfl
@[simp] theorem State.modCluster_ports (s : State) (k : Nat) (g : Cluster → Cluster) : (s.modCluster k g).ports = s.ports := rfl
@[simp] theorem State.modCluster_links (s : State) (k : Nat) (g : Cluster → Cluster) : (s.modCluster k g).links = s.links := rfl
@[simp] theorem State.modCluster_flash (s : State) (k : Nat) (g : Cluster → Cluster) : (s.modCluster k g).flash = s.flash := rfl
@[simp] theorem State.modCluster_bootCode (s : State) (k : Nat) (g : Cluster → Cluster) : (s.modCluster k g).bootCode = s.bootCode := rfl
@[simp] theorem State.modCluster_bootStage (s : State) (k : Nat) (g : Cluster → Cluster) : (s.modCluster k g).bootStage = s.bootStage := rfl
@[simp] theorem State.modCluster_mapTries (s : State) (k : Nat) (g : Cluster → Cluster) : (s.modCluster k g).mapTries = s.mapTries := rfl
@[simp] theorem State.modCluster_mapCrcs (s : State) (k : Nat) (g : Cluster → Cluster) : (s.modCluster k g).mapCrcs = s.mapCrcs := rfl

@[simp] theorem State.modField_agenda (s : State) (k : Nat) (g : Field → Field) : (s.modField k g).agenda = s.agenda := rfl
@[simp] theorem State.modField_turn (s : State) (k : Nat) (g : Field → Field) : (s.modField k g).turn = s.turn := rfl
@[simp] theorem State.modField_choices (s : State) (k : Nat) (g : Field → Field) : (s.modField k g).choices = s.choices := rfl
@[simp] theorem State.modField_draws (s : State) (k : Nat) (g : Field → Field) : (s.modField k g).draws = s.draws := rfl
@[simp] theorem State.modField_mem (s : State) (k : Nat) (g : Field → Field) : (s.modField k g).mem = s.mem := rfl
@[simp] theorem State.modField_l2 (s : State) (k : Nat) (g : Field → Field) : (s.modField k g).l2 = s.l2 := rfl
@[simp] theorem State.modField_readers (s : State) (k : Nat) (g : Field → Field) : (s.modField k g).readers = s.readers := rfl
@[simp] theorem State.modField_leaves (s : State) (k : Nat) (g : Field → Field) : (s.modField k g).leaves = s.leaves := rfl
@[simp] theorem State.modField_poison (s : State) (k : Nat) (g : Field → Field) : (s.modField k g).poison = s.poison := rfl
@[simp] theorem State.modField_hbmPoison (s : State) (k : Nat) (g : Field → Field) : (s.modField k g).hbmPoison = s.hbmPoison := rfl
@[simp] theorem State.modField_weak (s : State) (k : Nat) (g : Field → Field) : (s.modField k g).weak = s.weak := rfl
@[simp] theorem State.modField_bad (s : State) (k : Nat) (g : Field → Field) : (s.modField k g).bad = s.bad := rfl
@[simp] theorem State.modField_refTicks (s : State) (k : Nat) (g : Field → Field) : (s.modField k g).refTicks = s.refTicks := rfl
@[simp] theorem State.modField_gtime (s : State) (k : Nat) (g : Field → Field) : (s.modField k g).gtime = s.gtime := rfl
@[simp] theorem State.modField_tskew (s : State) (k : Nat) (g : Field → Field) : (s.modField k g).tskew = s.tskew := rfl
@[simp] theorem State.modField_clusters (s : State) (k : Nat) (g : Field → Field) : (s.modField k g).clusters = s.clusters := rfl
@[simp] theorem State.modField_tiles (s : State) (k : Nat) (g : Field → Field) : (s.modField k g).tiles = s.tiles := rfl
@[simp] theorem State.modField_vis (s : State) (k : Nat) (g : Field → Field) : (s.modField k g).vis = s.vis := rfl
@[simp] theorem State.modField_launches (s : State) (k : Nat) (g : Field → Field) : (s.modField k g).launches = s.launches := rfl
@[simp] theorem State.modField_nextLaunch (s : State) (k : Nat) (g : Field → Field) : (s.modField k g).nextLaunch = s.nextLaunch := rfl
@[simp] theorem State.modField_luTasks (s : State) (k : Nat) (g : Field → Field) : (s.modField k g).luTasks = s.luTasks := rfl
@[simp] theorem State.modField_images (s : State) (k : Nat) (g : Field → Field) : (s.modField k g).images = s.images := rfl
@[simp] theorem State.modField_mesh (s : State) (k : Nat) (g : Field → Field) : (s.modField k g).mesh = s.mesh := rfl
@[simp] theorem State.modField_parts (s : State) (k : Nat) (g : Field → Field) : (s.modField k g).parts = s.parts := rfl
@[simp] theorem State.modField_rehome (s : State) (k : Nat) (g : Field → Field) : (s.modField k g).rehome = s.rehome := rfl
@[simp] theorem State.modField_crofts (s : State) (k : Nat) (g : Field → Field) : (s.modField k g).crofts = s.crofts := rfl
@[simp] theorem State.modField_sec (s : State) (k : Nat) (g : Field → Field) : (s.modField k g).sec = s.sec := rfl
@[simp] theorem State.modField_rims (s : State) (k : Nat) (g : Field → Field) : (s.modField k g).rims = s.rims := rfl
@[simp] theorem State.modField_ports (s : State) (k : Nat) (g : Field → Field) : (s.modField k g).ports = s.ports := rfl
@[simp] theorem State.modField_links (s : State) (k : Nat) (g : Field → Field) : (s.modField k g).links = s.links := rfl
@[simp] theorem State.modField_flash (s : State) (k : Nat) (g : Field → Field) : (s.modField k g).flash = s.flash := rfl
@[simp] theorem State.modField_bootCode (s : State) (k : Nat) (g : Field → Field) : (s.modField k g).bootCode = s.bootCode := rfl
@[simp] theorem State.modField_bootStage (s : State) (k : Nat) (g : Field → Field) : (s.modField k g).bootStage = s.bootStage := rfl
@[simp] theorem State.modField_mapTries (s : State) (k : Nat) (g : Field → Field) : (s.modField k g).mapTries = s.mapTries := rfl
@[simp] theorem State.modField_mapCrcs (s : State) (k : Nat) (g : Field → Field) : (s.modField k g).mapCrcs = s.mapCrcs := rfl

@[simp] theorem State.modVI_agenda (s : State) (k : Nat) (g : VI → VI) : (s.modVI k g).agenda = s.agenda := rfl
@[simp] theorem State.modVI_turn (s : State) (k : Nat) (g : VI → VI) : (s.modVI k g).turn = s.turn := rfl
@[simp] theorem State.modVI_choices (s : State) (k : Nat) (g : VI → VI) : (s.modVI k g).choices = s.choices := rfl
@[simp] theorem State.modVI_draws (s : State) (k : Nat) (g : VI → VI) : (s.modVI k g).draws = s.draws := rfl
@[simp] theorem State.modVI_mem (s : State) (k : Nat) (g : VI → VI) : (s.modVI k g).mem = s.mem := rfl
@[simp] theorem State.modVI_l2 (s : State) (k : Nat) (g : VI → VI) : (s.modVI k g).l2 = s.l2 := rfl
@[simp] theorem State.modVI_readers (s : State) (k : Nat) (g : VI → VI) : (s.modVI k g).readers = s.readers := rfl
@[simp] theorem State.modVI_leaves (s : State) (k : Nat) (g : VI → VI) : (s.modVI k g).leaves = s.leaves := rfl
@[simp] theorem State.modVI_poison (s : State) (k : Nat) (g : VI → VI) : (s.modVI k g).poison = s.poison := rfl
@[simp] theorem State.modVI_hbmPoison (s : State) (k : Nat) (g : VI → VI) : (s.modVI k g).hbmPoison = s.hbmPoison := rfl
@[simp] theorem State.modVI_weak (s : State) (k : Nat) (g : VI → VI) : (s.modVI k g).weak = s.weak := rfl
@[simp] theorem State.modVI_bad (s : State) (k : Nat) (g : VI → VI) : (s.modVI k g).bad = s.bad := rfl
@[simp] theorem State.modVI_refTicks (s : State) (k : Nat) (g : VI → VI) : (s.modVI k g).refTicks = s.refTicks := rfl
@[simp] theorem State.modVI_gtime (s : State) (k : Nat) (g : VI → VI) : (s.modVI k g).gtime = s.gtime := rfl
@[simp] theorem State.modVI_tskew (s : State) (k : Nat) (g : VI → VI) : (s.modVI k g).tskew = s.tskew := rfl
@[simp] theorem State.modVI_clusters (s : State) (k : Nat) (g : VI → VI) : (s.modVI k g).clusters = s.clusters := rfl
@[simp] theorem State.modVI_tiles (s : State) (k : Nat) (g : VI → VI) : (s.modVI k g).tiles = s.tiles := rfl
@[simp] theorem State.modVI_fields (s : State) (k : Nat) (g : VI → VI) : (s.modVI k g).fields = s.fields := rfl
@[simp] theorem State.modVI_launches (s : State) (k : Nat) (g : VI → VI) : (s.modVI k g).launches = s.launches := rfl
@[simp] theorem State.modVI_nextLaunch (s : State) (k : Nat) (g : VI → VI) : (s.modVI k g).nextLaunch = s.nextLaunch := rfl
@[simp] theorem State.modVI_luTasks (s : State) (k : Nat) (g : VI → VI) : (s.modVI k g).luTasks = s.luTasks := rfl
@[simp] theorem State.modVI_images (s : State) (k : Nat) (g : VI → VI) : (s.modVI k g).images = s.images := rfl
@[simp] theorem State.modVI_mesh (s : State) (k : Nat) (g : VI → VI) : (s.modVI k g).mesh = s.mesh := rfl
@[simp] theorem State.modVI_parts (s : State) (k : Nat) (g : VI → VI) : (s.modVI k g).parts = s.parts := rfl
@[simp] theorem State.modVI_rehome (s : State) (k : Nat) (g : VI → VI) : (s.modVI k g).rehome = s.rehome := rfl
@[simp] theorem State.modVI_crofts (s : State) (k : Nat) (g : VI → VI) : (s.modVI k g).crofts = s.crofts := rfl
@[simp] theorem State.modVI_sec (s : State) (k : Nat) (g : VI → VI) : (s.modVI k g).sec = s.sec := rfl
@[simp] theorem State.modVI_rims (s : State) (k : Nat) (g : VI → VI) : (s.modVI k g).rims = s.rims := rfl
@[simp] theorem State.modVI_ports (s : State) (k : Nat) (g : VI → VI) : (s.modVI k g).ports = s.ports := rfl
@[simp] theorem State.modVI_links (s : State) (k : Nat) (g : VI → VI) : (s.modVI k g).links = s.links := rfl
@[simp] theorem State.modVI_flash (s : State) (k : Nat) (g : VI → VI) : (s.modVI k g).flash = s.flash := rfl
@[simp] theorem State.modVI_bootCode (s : State) (k : Nat) (g : VI → VI) : (s.modVI k g).bootCode = s.bootCode := rfl
@[simp] theorem State.modVI_bootStage (s : State) (k : Nat) (g : VI → VI) : (s.modVI k g).bootStage = s.bootStage := rfl
@[simp] theorem State.modVI_mapTries (s : State) (k : Nat) (g : VI → VI) : (s.modVI k g).mapTries = s.mapTries := rfl
@[simp] theorem State.modVI_mapCrcs (s : State) (k : Nat) (g : VI → VI) : (s.modVI k g).mapCrcs = s.mapCrcs := rfl

@[simp] theorem State.modCroft_agenda (s : State) (k : Nat) (g : Croft → Croft) : (s.modCroft k g).agenda = s.agenda := rfl
@[simp] theorem State.modCroft_turn (s : State) (k : Nat) (g : Croft → Croft) : (s.modCroft k g).turn = s.turn := rfl
@[simp] theorem State.modCroft_choices (s : State) (k : Nat) (g : Croft → Croft) : (s.modCroft k g).choices = s.choices := rfl
@[simp] theorem State.modCroft_draws (s : State) (k : Nat) (g : Croft → Croft) : (s.modCroft k g).draws = s.draws := rfl
@[simp] theorem State.modCroft_mem (s : State) (k : Nat) (g : Croft → Croft) : (s.modCroft k g).mem = s.mem := rfl
@[simp] theorem State.modCroft_l2 (s : State) (k : Nat) (g : Croft → Croft) : (s.modCroft k g).l2 = s.l2 := rfl
@[simp] theorem State.modCroft_readers (s : State) (k : Nat) (g : Croft → Croft) : (s.modCroft k g).readers = s.readers := rfl
@[simp] theorem State.modCroft_leaves (s : State) (k : Nat) (g : Croft → Croft) : (s.modCroft k g).leaves = s.leaves := rfl
@[simp] theorem State.modCroft_poison (s : State) (k : Nat) (g : Croft → Croft) : (s.modCroft k g).poison = s.poison := rfl
@[simp] theorem State.modCroft_hbmPoison (s : State) (k : Nat) (g : Croft → Croft) : (s.modCroft k g).hbmPoison = s.hbmPoison := rfl
@[simp] theorem State.modCroft_weak (s : State) (k : Nat) (g : Croft → Croft) : (s.modCroft k g).weak = s.weak := rfl
@[simp] theorem State.modCroft_bad (s : State) (k : Nat) (g : Croft → Croft) : (s.modCroft k g).bad = s.bad := rfl
@[simp] theorem State.modCroft_refTicks (s : State) (k : Nat) (g : Croft → Croft) : (s.modCroft k g).refTicks = s.refTicks := rfl
@[simp] theorem State.modCroft_gtime (s : State) (k : Nat) (g : Croft → Croft) : (s.modCroft k g).gtime = s.gtime := rfl
@[simp] theorem State.modCroft_tskew (s : State) (k : Nat) (g : Croft → Croft) : (s.modCroft k g).tskew = s.tskew := rfl
@[simp] theorem State.modCroft_clusters (s : State) (k : Nat) (g : Croft → Croft) : (s.modCroft k g).clusters = s.clusters := rfl
@[simp] theorem State.modCroft_tiles (s : State) (k : Nat) (g : Croft → Croft) : (s.modCroft k g).tiles = s.tiles := rfl
@[simp] theorem State.modCroft_fields (s : State) (k : Nat) (g : Croft → Croft) : (s.modCroft k g).fields = s.fields := rfl
@[simp] theorem State.modCroft_vis (s : State) (k : Nat) (g : Croft → Croft) : (s.modCroft k g).vis = s.vis := rfl
@[simp] theorem State.modCroft_launches (s : State) (k : Nat) (g : Croft → Croft) : (s.modCroft k g).launches = s.launches := rfl
@[simp] theorem State.modCroft_nextLaunch (s : State) (k : Nat) (g : Croft → Croft) : (s.modCroft k g).nextLaunch = s.nextLaunch := rfl
@[simp] theorem State.modCroft_luTasks (s : State) (k : Nat) (g : Croft → Croft) : (s.modCroft k g).luTasks = s.luTasks := rfl
@[simp] theorem State.modCroft_images (s : State) (k : Nat) (g : Croft → Croft) : (s.modCroft k g).images = s.images := rfl
@[simp] theorem State.modCroft_mesh (s : State) (k : Nat) (g : Croft → Croft) : (s.modCroft k g).mesh = s.mesh := rfl
@[simp] theorem State.modCroft_parts (s : State) (k : Nat) (g : Croft → Croft) : (s.modCroft k g).parts = s.parts := rfl
@[simp] theorem State.modCroft_rehome (s : State) (k : Nat) (g : Croft → Croft) : (s.modCroft k g).rehome = s.rehome := rfl
@[simp] theorem State.modCroft_sec (s : State) (k : Nat) (g : Croft → Croft) : (s.modCroft k g).sec = s.sec := rfl
@[simp] theorem State.modCroft_rims (s : State) (k : Nat) (g : Croft → Croft) : (s.modCroft k g).rims = s.rims := rfl
@[simp] theorem State.modCroft_ports (s : State) (k : Nat) (g : Croft → Croft) : (s.modCroft k g).ports = s.ports := rfl
@[simp] theorem State.modCroft_links (s : State) (k : Nat) (g : Croft → Croft) : (s.modCroft k g).links = s.links := rfl
@[simp] theorem State.modCroft_flash (s : State) (k : Nat) (g : Croft → Croft) : (s.modCroft k g).flash = s.flash := rfl
@[simp] theorem State.modCroft_bootCode (s : State) (k : Nat) (g : Croft → Croft) : (s.modCroft k g).bootCode = s.bootCode := rfl
@[simp] theorem State.modCroft_bootStage (s : State) (k : Nat) (g : Croft → Croft) : (s.modCroft k g).bootStage = s.bootStage := rfl
@[simp] theorem State.modCroft_mapTries (s : State) (k : Nat) (g : Croft → Croft) : (s.modCroft k g).mapTries = s.mapTries := rfl
@[simp] theorem State.modCroft_mapCrcs (s : State) (k : Nat) (g : Croft → Croft) : (s.modCroft k g).mapCrcs = s.mapCrcs := rfl

@[simp] theorem State.setCtx_agenda (s : State) (site slot : Nat) (c : Ctx) : (s.setCtx site slot c).agenda = s.agenda := rfl
@[simp] theorem State.setCtx_turn (s : State) (site slot : Nat) (c : Ctx) : (s.setCtx site slot c).turn = s.turn := rfl
@[simp] theorem State.setCtx_choices (s : State) (site slot : Nat) (c : Ctx) : (s.setCtx site slot c).choices = s.choices := rfl
@[simp] theorem State.setCtx_draws (s : State) (site slot : Nat) (c : Ctx) : (s.setCtx site slot c).draws = s.draws := rfl
@[simp] theorem State.setCtx_mem (s : State) (site slot : Nat) (c : Ctx) : (s.setCtx site slot c).mem = s.mem := rfl
@[simp] theorem State.setCtx_l2 (s : State) (site slot : Nat) (c : Ctx) : (s.setCtx site slot c).l2 = s.l2 := rfl
@[simp] theorem State.setCtx_readers (s : State) (site slot : Nat) (c : Ctx) : (s.setCtx site slot c).readers = s.readers := rfl
@[simp] theorem State.setCtx_leaves (s : State) (site slot : Nat) (c : Ctx) : (s.setCtx site slot c).leaves = s.leaves := rfl
@[simp] theorem State.setCtx_poison (s : State) (site slot : Nat) (c : Ctx) : (s.setCtx site slot c).poison = s.poison := rfl
@[simp] theorem State.setCtx_hbmPoison (s : State) (site slot : Nat) (c : Ctx) : (s.setCtx site slot c).hbmPoison = s.hbmPoison := rfl
@[simp] theorem State.setCtx_weak (s : State) (site slot : Nat) (c : Ctx) : (s.setCtx site slot c).weak = s.weak := rfl
@[simp] theorem State.setCtx_bad (s : State) (site slot : Nat) (c : Ctx) : (s.setCtx site slot c).bad = s.bad := rfl
@[simp] theorem State.setCtx_refTicks (s : State) (site slot : Nat) (c : Ctx) : (s.setCtx site slot c).refTicks = s.refTicks := rfl
@[simp] theorem State.setCtx_gtime (s : State) (site slot : Nat) (c : Ctx) : (s.setCtx site slot c).gtime = s.gtime := rfl
@[simp] theorem State.setCtx_tskew (s : State) (site slot : Nat) (c : Ctx) : (s.setCtx site slot c).tskew = s.tskew := rfl
@[simp] theorem State.setCtx_clusters (s : State) (site slot : Nat) (c : Ctx) : (s.setCtx site slot c).clusters = s.clusters := rfl
@[simp] theorem State.setCtx_fields (s : State) (site slot : Nat) (c : Ctx) : (s.setCtx site slot c).fields = s.fields := rfl
@[simp] theorem State.setCtx_vis (s : State) (site slot : Nat) (c : Ctx) : (s.setCtx site slot c).vis = s.vis := rfl
@[simp] theorem State.setCtx_launches (s : State) (site slot : Nat) (c : Ctx) : (s.setCtx site slot c).launches = s.launches := rfl
@[simp] theorem State.setCtx_nextLaunch (s : State) (site slot : Nat) (c : Ctx) : (s.setCtx site slot c).nextLaunch = s.nextLaunch := rfl
@[simp] theorem State.setCtx_luTasks (s : State) (site slot : Nat) (c : Ctx) : (s.setCtx site slot c).luTasks = s.luTasks := rfl
@[simp] theorem State.setCtx_images (s : State) (site slot : Nat) (c : Ctx) : (s.setCtx site slot c).images = s.images := rfl
@[simp] theorem State.setCtx_mesh (s : State) (site slot : Nat) (c : Ctx) : (s.setCtx site slot c).mesh = s.mesh := rfl
@[simp] theorem State.setCtx_parts (s : State) (site slot : Nat) (c : Ctx) : (s.setCtx site slot c).parts = s.parts := rfl
@[simp] theorem State.setCtx_rehome (s : State) (site slot : Nat) (c : Ctx) : (s.setCtx site slot c).rehome = s.rehome := rfl
@[simp] theorem State.setCtx_crofts (s : State) (site slot : Nat) (c : Ctx) : (s.setCtx site slot c).crofts = s.crofts := rfl
@[simp] theorem State.setCtx_sec (s : State) (site slot : Nat) (c : Ctx) : (s.setCtx site slot c).sec = s.sec := rfl
@[simp] theorem State.setCtx_rims (s : State) (site slot : Nat) (c : Ctx) : (s.setCtx site slot c).rims = s.rims := rfl
@[simp] theorem State.setCtx_ports (s : State) (site slot : Nat) (c : Ctx) : (s.setCtx site slot c).ports = s.ports := rfl
@[simp] theorem State.setCtx_links (s : State) (site slot : Nat) (c : Ctx) : (s.setCtx site slot c).links = s.links := rfl
@[simp] theorem State.setCtx_flash (s : State) (site slot : Nat) (c : Ctx) : (s.setCtx site slot c).flash = s.flash := rfl
@[simp] theorem State.setCtx_bootCode (s : State) (site slot : Nat) (c : Ctx) : (s.setCtx site slot c).bootCode = s.bootCode := rfl
@[simp] theorem State.setCtx_bootStage (s : State) (site slot : Nat) (c : Ctx) : (s.setCtx site slot c).bootStage = s.bootStage := rfl
@[simp] theorem State.setCtx_mapTries (s : State) (site slot : Nat) (c : Ctx) : (s.setCtx site slot c).mapTries = s.mapTries := rfl
@[simp] theorem State.setCtx_mapCrcs (s : State) (site slot : Nat) (c : Ctx) : (s.setCtx site slot c).mapCrcs = s.mapCrcs := rfl

@[simp] theorem State.modCtx_agenda (s : State) (site slot : Nat) (g : Ctx → Ctx) : (s.modCtx site slot g).agenda = s.agenda := by
  unfold State.modCtx; split <;> rfl
@[simp] theorem State.modCtx_turn (s : State) (site slot : Nat) (g : Ctx → Ctx) : (s.modCtx site slot g).turn = s.turn := by
  unfold State.modCtx; split <;> rfl
@[simp] theorem State.modCtx_choices (s : State) (site slot : Nat) (g : Ctx → Ctx) : (s.modCtx site slot g).choices = s.choices := by
  unfold State.modCtx; split <;> rfl
@[simp] theorem State.modCtx_draws (s : State) (site slot : Nat) (g : Ctx → Ctx) : (s.modCtx site slot g).draws = s.draws := by
  unfold State.modCtx; split <;> rfl
@[simp] theorem State.modCtx_mem (s : State) (site slot : Nat) (g : Ctx → Ctx) : (s.modCtx site slot g).mem = s.mem := by
  unfold State.modCtx; split <;> rfl
@[simp] theorem State.modCtx_l2 (s : State) (site slot : Nat) (g : Ctx → Ctx) : (s.modCtx site slot g).l2 = s.l2 := by
  unfold State.modCtx; split <;> rfl
@[simp] theorem State.modCtx_readers (s : State) (site slot : Nat) (g : Ctx → Ctx) : (s.modCtx site slot g).readers = s.readers := by
  unfold State.modCtx; split <;> rfl
@[simp] theorem State.modCtx_leaves (s : State) (site slot : Nat) (g : Ctx → Ctx) : (s.modCtx site slot g).leaves = s.leaves := by
  unfold State.modCtx; split <;> rfl
@[simp] theorem State.modCtx_poison (s : State) (site slot : Nat) (g : Ctx → Ctx) : (s.modCtx site slot g).poison = s.poison := by
  unfold State.modCtx; split <;> rfl
@[simp] theorem State.modCtx_hbmPoison (s : State) (site slot : Nat) (g : Ctx → Ctx) : (s.modCtx site slot g).hbmPoison = s.hbmPoison := by
  unfold State.modCtx; split <;> rfl
@[simp] theorem State.modCtx_weak (s : State) (site slot : Nat) (g : Ctx → Ctx) : (s.modCtx site slot g).weak = s.weak := by
  unfold State.modCtx; split <;> rfl
@[simp] theorem State.modCtx_bad (s : State) (site slot : Nat) (g : Ctx → Ctx) : (s.modCtx site slot g).bad = s.bad := by
  unfold State.modCtx; split <;> rfl
@[simp] theorem State.modCtx_refTicks (s : State) (site slot : Nat) (g : Ctx → Ctx) : (s.modCtx site slot g).refTicks = s.refTicks := by
  unfold State.modCtx; split <;> rfl
@[simp] theorem State.modCtx_gtime (s : State) (site slot : Nat) (g : Ctx → Ctx) : (s.modCtx site slot g).gtime = s.gtime := by
  unfold State.modCtx; split <;> rfl
@[simp] theorem State.modCtx_tskew (s : State) (site slot : Nat) (g : Ctx → Ctx) : (s.modCtx site slot g).tskew = s.tskew := by
  unfold State.modCtx; split <;> rfl
@[simp] theorem State.modCtx_clusters (s : State) (site slot : Nat) (g : Ctx → Ctx) : (s.modCtx site slot g).clusters = s.clusters := by
  unfold State.modCtx; split <;> rfl
@[simp] theorem State.modCtx_fields (s : State) (site slot : Nat) (g : Ctx → Ctx) : (s.modCtx site slot g).fields = s.fields := by
  unfold State.modCtx; split <;> rfl
@[simp] theorem State.modCtx_vis (s : State) (site slot : Nat) (g : Ctx → Ctx) : (s.modCtx site slot g).vis = s.vis := by
  unfold State.modCtx; split <;> rfl
@[simp] theorem State.modCtx_launches (s : State) (site slot : Nat) (g : Ctx → Ctx) : (s.modCtx site slot g).launches = s.launches := by
  unfold State.modCtx; split <;> rfl
@[simp] theorem State.modCtx_nextLaunch (s : State) (site slot : Nat) (g : Ctx → Ctx) : (s.modCtx site slot g).nextLaunch = s.nextLaunch := by
  unfold State.modCtx; split <;> rfl
@[simp] theorem State.modCtx_luTasks (s : State) (site slot : Nat) (g : Ctx → Ctx) : (s.modCtx site slot g).luTasks = s.luTasks := by
  unfold State.modCtx; split <;> rfl
@[simp] theorem State.modCtx_images (s : State) (site slot : Nat) (g : Ctx → Ctx) : (s.modCtx site slot g).images = s.images := by
  unfold State.modCtx; split <;> rfl
@[simp] theorem State.modCtx_mesh (s : State) (site slot : Nat) (g : Ctx → Ctx) : (s.modCtx site slot g).mesh = s.mesh := by
  unfold State.modCtx; split <;> rfl
@[simp] theorem State.modCtx_parts (s : State) (site slot : Nat) (g : Ctx → Ctx) : (s.modCtx site slot g).parts = s.parts := by
  unfold State.modCtx; split <;> rfl
@[simp] theorem State.modCtx_rehome (s : State) (site slot : Nat) (g : Ctx → Ctx) : (s.modCtx site slot g).rehome = s.rehome := by
  unfold State.modCtx; split <;> rfl
@[simp] theorem State.modCtx_crofts (s : State) (site slot : Nat) (g : Ctx → Ctx) : (s.modCtx site slot g).crofts = s.crofts := by
  unfold State.modCtx; split <;> rfl
@[simp] theorem State.modCtx_sec (s : State) (site slot : Nat) (g : Ctx → Ctx) : (s.modCtx site slot g).sec = s.sec := by
  unfold State.modCtx; split <;> rfl
@[simp] theorem State.modCtx_rims (s : State) (site slot : Nat) (g : Ctx → Ctx) : (s.modCtx site slot g).rims = s.rims := by
  unfold State.modCtx; split <;> rfl
@[simp] theorem State.modCtx_ports (s : State) (site slot : Nat) (g : Ctx → Ctx) : (s.modCtx site slot g).ports = s.ports := by
  unfold State.modCtx; split <;> rfl
@[simp] theorem State.modCtx_links (s : State) (site slot : Nat) (g : Ctx → Ctx) : (s.modCtx site slot g).links = s.links := by
  unfold State.modCtx; split <;> rfl
@[simp] theorem State.modCtx_flash (s : State) (site slot : Nat) (g : Ctx → Ctx) : (s.modCtx site slot g).flash = s.flash := by
  unfold State.modCtx; split <;> rfl
@[simp] theorem State.modCtx_bootCode (s : State) (site slot : Nat) (g : Ctx → Ctx) : (s.modCtx site slot g).bootCode = s.bootCode := by
  unfold State.modCtx; split <;> rfl
@[simp] theorem State.modCtx_bootStage (s : State) (site slot : Nat) (g : Ctx → Ctx) : (s.modCtx site slot g).bootStage = s.bootStage := by
  unfold State.modCtx; split <;> rfl
@[simp] theorem State.modCtx_mapTries (s : State) (site slot : Nat) (g : Ctx → Ctx) : (s.modCtx site slot g).mapTries = s.mapTries := by
  unfold State.modCtx; split <;> rfl
@[simp] theorem State.modCtx_mapCrcs (s : State) (site slot : Nat) (g : Ctx → Ctx) : (s.modCtx site slot g).mapCrcs = s.mapCrcs := by
  unfold State.modCtx; split <;> rfl

@[simp] theorem State.modLaunch_agenda (s : State) (l : Nat) (g : Launch → Launch) : (s.modLaunch l g).agenda = s.agenda := by
  unfold State.modLaunch; split <;> rfl
@[simp] theorem State.modLaunch_turn (s : State) (l : Nat) (g : Launch → Launch) : (s.modLaunch l g).turn = s.turn := by
  unfold State.modLaunch; split <;> rfl
@[simp] theorem State.modLaunch_choices (s : State) (l : Nat) (g : Launch → Launch) : (s.modLaunch l g).choices = s.choices := by
  unfold State.modLaunch; split <;> rfl
@[simp] theorem State.modLaunch_draws (s : State) (l : Nat) (g : Launch → Launch) : (s.modLaunch l g).draws = s.draws := by
  unfold State.modLaunch; split <;> rfl
@[simp] theorem State.modLaunch_mem (s : State) (l : Nat) (g : Launch → Launch) : (s.modLaunch l g).mem = s.mem := by
  unfold State.modLaunch; split <;> rfl
@[simp] theorem State.modLaunch_l2 (s : State) (l : Nat) (g : Launch → Launch) : (s.modLaunch l g).l2 = s.l2 := by
  unfold State.modLaunch; split <;> rfl
@[simp] theorem State.modLaunch_readers (s : State) (l : Nat) (g : Launch → Launch) : (s.modLaunch l g).readers = s.readers := by
  unfold State.modLaunch; split <;> rfl
@[simp] theorem State.modLaunch_leaves (s : State) (l : Nat) (g : Launch → Launch) : (s.modLaunch l g).leaves = s.leaves := by
  unfold State.modLaunch; split <;> rfl
@[simp] theorem State.modLaunch_poison (s : State) (l : Nat) (g : Launch → Launch) : (s.modLaunch l g).poison = s.poison := by
  unfold State.modLaunch; split <;> rfl
@[simp] theorem State.modLaunch_hbmPoison (s : State) (l : Nat) (g : Launch → Launch) : (s.modLaunch l g).hbmPoison = s.hbmPoison := by
  unfold State.modLaunch; split <;> rfl
@[simp] theorem State.modLaunch_weak (s : State) (l : Nat) (g : Launch → Launch) : (s.modLaunch l g).weak = s.weak := by
  unfold State.modLaunch; split <;> rfl
@[simp] theorem State.modLaunch_bad (s : State) (l : Nat) (g : Launch → Launch) : (s.modLaunch l g).bad = s.bad := by
  unfold State.modLaunch; split <;> rfl
@[simp] theorem State.modLaunch_refTicks (s : State) (l : Nat) (g : Launch → Launch) : (s.modLaunch l g).refTicks = s.refTicks := by
  unfold State.modLaunch; split <;> rfl
@[simp] theorem State.modLaunch_gtime (s : State) (l : Nat) (g : Launch → Launch) : (s.modLaunch l g).gtime = s.gtime := by
  unfold State.modLaunch; split <;> rfl
@[simp] theorem State.modLaunch_tskew (s : State) (l : Nat) (g : Launch → Launch) : (s.modLaunch l g).tskew = s.tskew := by
  unfold State.modLaunch; split <;> rfl
@[simp] theorem State.modLaunch_clusters (s : State) (l : Nat) (g : Launch → Launch) : (s.modLaunch l g).clusters = s.clusters := by
  unfold State.modLaunch; split <;> rfl
@[simp] theorem State.modLaunch_tiles (s : State) (l : Nat) (g : Launch → Launch) : (s.modLaunch l g).tiles = s.tiles := by
  unfold State.modLaunch; split <;> rfl
@[simp] theorem State.modLaunch_fields (s : State) (l : Nat) (g : Launch → Launch) : (s.modLaunch l g).fields = s.fields := by
  unfold State.modLaunch; split <;> rfl
@[simp] theorem State.modLaunch_vis (s : State) (l : Nat) (g : Launch → Launch) : (s.modLaunch l g).vis = s.vis := by
  unfold State.modLaunch; split <;> rfl
@[simp] theorem State.modLaunch_nextLaunch (s : State) (l : Nat) (g : Launch → Launch) : (s.modLaunch l g).nextLaunch = s.nextLaunch := by
  unfold State.modLaunch; split <;> rfl
@[simp] theorem State.modLaunch_luTasks (s : State) (l : Nat) (g : Launch → Launch) : (s.modLaunch l g).luTasks = s.luTasks := by
  unfold State.modLaunch; split <;> rfl
@[simp] theorem State.modLaunch_images (s : State) (l : Nat) (g : Launch → Launch) : (s.modLaunch l g).images = s.images := by
  unfold State.modLaunch; split <;> rfl
@[simp] theorem State.modLaunch_mesh (s : State) (l : Nat) (g : Launch → Launch) : (s.modLaunch l g).mesh = s.mesh := by
  unfold State.modLaunch; split <;> rfl
@[simp] theorem State.modLaunch_parts (s : State) (l : Nat) (g : Launch → Launch) : (s.modLaunch l g).parts = s.parts := by
  unfold State.modLaunch; split <;> rfl
@[simp] theorem State.modLaunch_rehome (s : State) (l : Nat) (g : Launch → Launch) : (s.modLaunch l g).rehome = s.rehome := by
  unfold State.modLaunch; split <;> rfl
@[simp] theorem State.modLaunch_crofts (s : State) (l : Nat) (g : Launch → Launch) : (s.modLaunch l g).crofts = s.crofts := by
  unfold State.modLaunch; split <;> rfl
@[simp] theorem State.modLaunch_sec (s : State) (l : Nat) (g : Launch → Launch) : (s.modLaunch l g).sec = s.sec := by
  unfold State.modLaunch; split <;> rfl
@[simp] theorem State.modLaunch_rims (s : State) (l : Nat) (g : Launch → Launch) : (s.modLaunch l g).rims = s.rims := by
  unfold State.modLaunch; split <;> rfl
@[simp] theorem State.modLaunch_ports (s : State) (l : Nat) (g : Launch → Launch) : (s.modLaunch l g).ports = s.ports := by
  unfold State.modLaunch; split <;> rfl
@[simp] theorem State.modLaunch_links (s : State) (l : Nat) (g : Launch → Launch) : (s.modLaunch l g).links = s.links := by
  unfold State.modLaunch; split <;> rfl
@[simp] theorem State.modLaunch_flash (s : State) (l : Nat) (g : Launch → Launch) : (s.modLaunch l g).flash = s.flash := by
  unfold State.modLaunch; split <;> rfl
@[simp] theorem State.modLaunch_bootCode (s : State) (l : Nat) (g : Launch → Launch) : (s.modLaunch l g).bootCode = s.bootCode := by
  unfold State.modLaunch; split <;> rfl
@[simp] theorem State.modLaunch_bootStage (s : State) (l : Nat) (g : Launch → Launch) : (s.modLaunch l g).bootStage = s.bootStage := by
  unfold State.modLaunch; split <;> rfl
@[simp] theorem State.modLaunch_mapTries (s : State) (l : Nat) (g : Launch → Launch) : (s.modLaunch l g).mapTries = s.mapTries := by
  unfold State.modLaunch; split <;> rfl
@[simp] theorem State.modLaunch_mapCrcs (s : State) (l : Nat) (g : Launch → Launch) : (s.modLaunch l g).mapCrcs = s.mapCrcs := by
  unfold State.modLaunch; split <;> rfl

/-! What is read after an update. -/

@[simp] theorem State.tile_setTile_self (s : State) (site : Nat) (t : Tile) : (s.setTile site t).tile site = t :=
  sget_sset_self _ _ _ _
theorem State.tile_setTile_ne (s : State) {site k : Nat} (t : Tile) (h : k ≠ site) :
    (s.setTile site t).tile k = s.tile k := sget_sset_ne _ _ h _
@[simp] theorem State.tile_modTile_self (s : State) (site : Nat) (g : Tile → Tile) :
    (s.modTile site g).tile site = g (s.tile site) := sget_sset_self _ _ _ _
theorem State.tile_modTile_ne (s : State) {site k : Nat} (g : Tile → Tile) (h : k ≠ site) :
    (s.modTile site g).tile k = s.tile k := sget_sset_ne _ _ h _
@[simp] theorem State.field_modField_self (s : State) (k : Nat) (g : Field → Field) :
    (s.modField k g).field k = g (s.field k) := sget_sset_self _ _ _ _
theorem State.field_modField_ne (s : State) {k j : Nat} (g : Field → Field) (h : j ≠ k) :
    (s.modField k g).field j = s.field j := sget_sset_ne _ _ h _
@[simp] theorem State.vi_modVI_self (s : State) (k : Nat) (g : VI → VI) : (s.modVI k g).vi k = g (s.vi k) :=
  sget_sset_self _ _ _ _
theorem State.vi_modVI_ne (s : State) {k j : Nat} (g : VI → VI) (h : j ≠ k) : (s.modVI k g).vi j = s.vi j :=
  sget_sset_ne _ _ h _
@[simp] theorem State.croft_modCroft_self (s : State) (k : Nat) (g : Croft → Croft) :
    (s.modCroft k g).croft k = g (s.croft k) := sget_sset_self _ _ _ _
theorem State.croft_modCroft_ne (s : State) {k j : Nat} (g : Croft → Croft) (h : j ≠ k) :
    (s.modCroft k g).croft j = s.croft j := sget_sset_ne _ _ h _
@[simp] theorem State.cluster_modCluster_self (s : State) (k : Nat) (g : Cluster → Cluster) :
    (s.modCluster k g).cluster k = g (s.cluster k) := sget_sset_self _ _ _ _
theorem State.cluster_modCluster_ne (s : State) {k j : Nat} (g : Cluster → Cluster) (h : j ≠ k) :
    (s.modCluster k g).cluster j = s.cluster j := sget_sset_ne _ _ h _

@[simp] theorem State.tile_modField (s : State) (k j : Nat) (g : Field → Field) : (s.modField k g).tile j = s.tile j := rfl
@[simp] theorem State.tile_modVI (s : State) (k j : Nat) (g : VI → VI) : (s.modVI k g).tile j = s.tile j := rfl
@[simp] theorem State.tile_modCroft (s : State) (k j : Nat) (g : Croft → Croft) : (s.modCroft k g).tile j = s.tile j := rfl
@[simp] theorem State.tile_modCluster (s : State) (k j : Nat) (g : Cluster → Cluster) :
    (s.modCluster k g).tile j = s.tile j := rfl
@[simp] theorem State.tile_modLaunch (s : State) (l j : Nat) (g : Launch → Launch) : (s.modLaunch l g).tile j = s.tile j := by
  unfold State.modLaunch; split <;> rfl
@[simp] theorem State.field_modTile (s : State) (k j : Nat) (g : Tile → Tile) : (s.modTile k g).field j = s.field j := rfl
@[simp] theorem State.vi_modTile (s : State) (k j : Nat) (g : Tile → Tile) : (s.modTile k g).vi j = s.vi j := rfl
@[simp] theorem State.croft_modTile (s : State) (k j : Nat) (g : Tile → Tile) : (s.modTile k g).croft j = s.croft j := rfl
@[simp] theorem State.cluster_modTile (s : State) (k j : Nat) (g : Tile → Tile) :
    (s.modTile k g).cluster j = s.cluster j := rfl
@[simp] theorem State.launch?_modTile (s : State) (k j : Nat) (g : Tile → Tile) :
    (s.modTile k g).launch? j = s.launch? j := rfl
@[simp] theorem State.field_modLaunch (s : State) (l j : Nat) (g : Launch → Launch) :
    (s.modLaunch l g).field j = s.field j := by
  unfold State.modLaunch; split <;> rfl
@[simp] theorem State.vi_modLaunch (s : State) (l j : Nat) (g : Launch → Launch) : (s.modLaunch l g).vi j = s.vi j := by
  unfold State.modLaunch; split <;> rfl

/-- A resident context is in one of the four slots. -/
theorem State.ctx?_slot {s : State} {site slot : Nat} {c : Ctx} (h : s.ctx? site slot = some c) : slot < 4 := by
  unfold State.ctx? vget at h
  rcases Nat.lt_or_ge slot 4 with h4 | h4
  · exact h4
  · rw [Vector.getElem?_eq_none h4] at h
    cases h

/-- The context put into a slot is the one read there. -/
theorem State.ctx?_setCtx_self (s : State) {site slot : Nat} (c : Ctx) (h : slot < 4) :
    (s.setCtx site slot c).ctx? site slot = some c := by
  simp [State.setCtx, State.ctx?, Tile.setCtx, vget_vput_self, h]

/-- No other slot of the tile is touched. -/
theorem State.ctx?_setCtx_slot (s : State) {site slot k : Nat} (c : Ctx) (h : k ≠ slot) :
    (s.setCtx site slot c).ctx? site k = s.ctx? site k := by
  simp [State.setCtx, State.ctx?, Tile.setCtx, vget_vput_ne, h]

/-- No other tile is touched. -/
theorem State.tile_setCtx_ne (s : State) {site slot k : Nat} (c : Ctx) (h : k ≠ site) :
    (s.setCtx site slot c).tile k = s.tile k := State.tile_modTile_ne s _ h

/-- The tile of a changed context keeps everything else. -/
theorem State.tile_setCtx_self (s : State) (site slot : Nat) (c : Ctx) :
    (s.setCtx site slot c).tile site = (s.tile site).setCtx slot (some c) := State.tile_modTile_self s site _

/-- A launch's change is read back, and no other launch is touched. -/
theorem State.launch?_modLaunch (s : State) (l k : Nat) (g : Launch → Launch) :
    (s.modLaunch l g).launch? k = if k = l then (s.launch? l).map g else s.launch? k := by
  unfold State.modLaunch
  split
  · rename_i a h
    by_cases hk : k = l
    · subst hk
      simp [State.launch?, sget?_sset_self] at *
      simp [h]
    · simp [State.launch?, hk, sget?_sset_ne]
  · rename_i h
    by_cases hk : k = l
    · subst hk
      simp [h]
    · simp [hk]

end Sys2Proof.Machine
end

