-- ==== Sys2Proof/Laws/Words.lean ====
section
/-! SUPPORT. The stream, the operand signature and the cores of each instruction with a word, case by case, so that no
proof unfolds those tables. -/

namespace Sys2Proof

@[simp] theorem Instr.stream_add a b c d : Instr.stream (.add a b c d : Instr) = a := rfl
@[simp] theorem Instr.uses_add a b c d : Instr.uses (.add a b c d : Instr) = ⟨[c, d], [b], [], [], [], []⟩ := rfl
@[simp] theorem Instr.coreTile_add a b c d : Instr.coreOk .tile (.add a b c d : Instr) = true := rfl
@[simp] theorem Instr.coreCroft_add a b c d : Instr.coreOk .croft (.add a b c d : Instr) = true := rfl
@[simp] theorem Instr.stream_sub a b c d : Instr.stream (.sub a b c d : Instr) = a := rfl
@[simp] theorem Instr.uses_sub a b c d : Instr.uses (.sub a b c d : Instr) = ⟨[c, d], [b], [], [], [], []⟩ := rfl
@[simp] theorem Instr.coreTile_sub a b c d : Instr.coreOk .tile (.sub a b c d : Instr) = true := rfl
@[simp] theorem Instr.coreCroft_sub a b c d : Instr.coreOk .croft (.sub a b c d : Instr) = true := rfl
@[simp] theorem Instr.stream_and a b c d : Instr.stream (.and a b c d : Instr) = a := rfl
@[simp] theorem Instr.uses_and a b c d : Instr.uses (.and a b c d : Instr) = ⟨[c, d], [b], [], [], [], []⟩ := rfl
@[simp] theorem Instr.coreTile_and a b c d : Instr.coreOk .tile (.and a b c d : Instr) = true := rfl
@[simp] theorem Instr.coreCroft_and a b c d : Instr.coreOk .croft (.and a b c d : Instr) = true := rfl
@[simp] theorem Instr.stream_or a b c d : Instr.stream (.or a b c d : Instr) = a := rfl
@[simp] theorem Instr.uses_or a b c d : Instr.uses (.or a b c d : Instr) = ⟨[c, d], [b], [], [], [], []⟩ := rfl
@[simp] theorem Instr.coreTile_or a b c d : Instr.coreOk .tile (.or a b c d : Instr) = true := rfl
@[simp] theorem Instr.coreCroft_or a b c d : Instr.coreOk .croft (.or a b c d : Instr) = true := rfl
@[simp] theorem Instr.stream_xor a b c d : Instr.stream (.xor a b c d : Instr) = a := rfl
@[simp] theorem Instr.uses_xor a b c d : Instr.uses (.xor a b c d : Instr) = ⟨[c, d], [b], [], [], [], []⟩ := rfl
@[simp] theorem Instr.coreTile_xor a b c d : Instr.coreOk .tile (.xor a b c d : Instr) = true := rfl
@[simp] theorem Instr.coreCroft_xor a b c d : Instr.coreOk .croft (.xor a b c d : Instr) = true := rfl
@[simp] theorem Instr.stream_sll a b c d : Instr.stream (.sll a b c d : Instr) = a := rfl
@[simp] theorem Instr.uses_sll a b c d : Instr.uses (.sll a b c d : Instr) = ⟨[c, d], [b], [], [], [], []⟩ := rfl
@[simp] theorem Instr.coreTile_sll a b c d : Instr.coreOk .tile (.sll a b c d : Instr) = true := rfl
@[simp] theorem Instr.coreCroft_sll a b c d : Instr.coreOk .croft (.sll a b c d : Instr) = true := rfl
@[simp] theorem Instr.stream_srl a b c d : Instr.stream (.srl a b c d : Instr) = a := rfl
@[simp] theorem Instr.uses_srl a b c d : Instr.uses (.srl a b c d : Instr) = ⟨[c, d], [b], [], [], [], []⟩ := rfl
@[simp] theorem Instr.coreTile_srl a b c d : Instr.coreOk .tile (.srl a b c d : Instr) = true := rfl
@[simp] theorem Instr.coreCroft_srl a b c d : Instr.coreOk .croft (.srl a b c d : Instr) = true := rfl
@[simp] theorem Instr.stream_sra a b c d : Instr.stream (.sra a b c d : Instr) = a := rfl
@[simp] theorem Instr.uses_sra a b c d : Instr.uses (.sra a b c d : Instr) = ⟨[c, d], [b], [], [], [], []⟩ := rfl
@[simp] theorem Instr.coreTile_sra a b c d : Instr.coreOk .tile (.sra a b c d : Instr) = true := rfl
@[simp] theorem Instr.coreCroft_sra a b c d : Instr.coreOk .croft (.sra a b c d : Instr) = true := rfl
@[simp] theorem Instr.stream_slt a b c d : Instr.stream (.slt a b c d : Instr) = a := rfl
@[simp] theorem Instr.uses_slt a b c d : Instr.uses (.slt a b c d : Instr) = ⟨[c, d], [b], [], [], [], []⟩ := rfl
@[simp] theorem Instr.coreTile_slt a b c d : Instr.coreOk .tile (.slt a b c d : Instr) = true := rfl
@[simp] theorem Instr.coreCroft_slt a b c d : Instr.coreOk .croft (.slt a b c d : Instr) = true := rfl
@[simp] theorem Instr.stream_sltu a b c d : Instr.stream (.sltu a b c d : Instr) = a := rfl
@[simp] theorem Instr.uses_sltu a b c d : Instr.uses (.sltu a b c d : Instr) = ⟨[c, d], [b], [], [], [], []⟩ := rfl
@[simp] theorem Instr.coreTile_sltu a b c d : Instr.coreOk .tile (.sltu a b c d : Instr) = true := rfl
@[simp] theorem Instr.coreCroft_sltu a b c d : Instr.coreOk .croft (.sltu a b c d : Instr) = true := rfl
@[simp] theorem Instr.stream_min a b c d : Instr.stream (.min a b c d : Instr) = a := rfl
@[simp] theorem Instr.uses_min a b c d : Instr.uses (.min a b c d : Instr) = ⟨[c, d], [b], [], [], [], []⟩ := rfl
@[simp] theorem Instr.coreTile_min a b c d : Instr.coreOk .tile (.min a b c d : Instr) = true := rfl
@[simp] theorem Instr.coreCroft_min a b c d : Instr.coreOk .croft (.min a b c d : Instr) = true := rfl
@[simp] theorem Instr.stream_max a b c d : Instr.stream (.max a b c d : Instr) = a := rfl
@[simp] theorem Instr.uses_max a b c d : Instr.uses (.max a b c d : Instr) = ⟨[c, d], [b], [], [], [], []⟩ := rfl
@[simp] theorem Instr.coreTile_max a b c d : Instr.coreOk .tile (.max a b c d : Instr) = true := rfl
@[simp] theorem Instr.coreCroft_max a b c d : Instr.coreOk .croft (.max a b c d : Instr) = true := rfl
@[simp] theorem Instr.stream_minu a b c d : Instr.stream (.minu a b c d : Instr) = a := rfl
@[simp] theorem Instr.uses_minu a b c d : Instr.uses (.minu a b c d : Instr) = ⟨[c, d], [b], [], [], [], []⟩ := rfl
@[simp] theorem Instr.coreTile_minu a b c d : Instr.coreOk .tile (.minu a b c d : Instr) = true := rfl
@[simp] theorem Instr.coreCroft_minu a b c d : Instr.coreOk .croft (.minu a b c d : Instr) = true := rfl
@[simp] theorem Instr.stream_maxu a b c d : Instr.stream (.maxu a b c d : Instr) = a := rfl
@[simp] theorem Instr.uses_maxu a b c d : Instr.uses (.maxu a b c d : Instr) = ⟨[c, d], [b], [], [], [], []⟩ := rfl
@[simp] theorem Instr.coreTile_maxu a b c d : Instr.coreOk .tile (.maxu a b c d : Instr) = true := rfl
@[simp] theorem Instr.coreCroft_maxu a b c d : Instr.coreOk .croft (.maxu a b c d : Instr) = true := rfl
@[simp] theorem Instr.stream_mul a b c d : Instr.stream (.mul a b c d : Instr) = a := rfl
@[simp] theorem Instr.uses_mul a b c d : Instr.uses (.mul a b c d : Instr) = ⟨[c, d], [b], [], [], [], []⟩ := rfl
@[simp] theorem Instr.coreTile_mul a b c d : Instr.coreOk .tile (.mul a b c d : Instr) = true := rfl
@[simp] theorem Instr.coreCroft_mul a b c d : Instr.coreOk .croft (.mul a b c d : Instr) = true := rfl
@[simp] theorem Instr.stream_mulh a b c d : Instr.stream (.mulh a b c d : Instr) = a := rfl
@[simp] theorem Instr.uses_mulh a b c d : Instr.uses (.mulh a b c d : Instr) = ⟨[c, d], [b], [], [], [], []⟩ := rfl
@[simp] theorem Instr.coreTile_mulh a b c d : Instr.coreOk .tile (.mulh a b c d : Instr) = true := rfl
@[simp] theorem Instr.coreCroft_mulh a b c d : Instr.coreOk .croft (.mulh a b c d : Instr) = true := rfl
@[simp] theorem Instr.stream_mulhu a b c d : Instr.stream (.mulhu a b c d : Instr) = a := rfl
@[simp] theorem Instr.uses_mulhu a b c d : Instr.uses (.mulhu a b c d : Instr) = ⟨[c, d], [b], [], [], [], []⟩ := rfl
@[simp] theorem Instr.coreTile_mulhu a b c d : Instr.coreOk .tile (.mulhu a b c d : Instr) = true := rfl
@[simp] theorem Instr.coreCroft_mulhu a b c d : Instr.coreOk .croft (.mulhu a b c d : Instr) = true := rfl
@[simp] theorem Instr.stream_div a b c d : Instr.stream (.div a b c d : Instr) = a := rfl
@[simp] theorem Instr.uses_div a b c d : Instr.uses (.div a b c d : Instr) = ⟨[c, d], [b], [], [], [], []⟩ := rfl
@[simp] theorem Instr.coreTile_div a b c d : Instr.coreOk .tile (.div a b c d : Instr) = true := rfl
@[simp] theorem Instr.coreCroft_div a b c d : Instr.coreOk .croft (.div a b c d : Instr) = true := rfl
@[simp] theorem Instr.stream_divu a b c d : Instr.stream (.divu a b c d : Instr) = a := rfl
@[simp] theorem Instr.uses_divu a b c d : Instr.uses (.divu a b c d : Instr) = ⟨[c, d], [b], [], [], [], []⟩ := rfl
@[simp] theorem Instr.coreTile_divu a b c d : Instr.coreOk .tile (.divu a b c d : Instr) = true := rfl
@[simp] theorem Instr.coreCroft_divu a b c d : Instr.coreOk .croft (.divu a b c d : Instr) = true := rfl
@[simp] theorem Instr.stream_rem a b c d : Instr.stream (.rem a b c d : Instr) = a := rfl
@[simp] theorem Instr.uses_rem a b c d : Instr.uses (.rem a b c d : Instr) = ⟨[c, d], [b], [], [], [], []⟩ := rfl
@[simp] theorem Instr.coreTile_rem a b c d : Instr.coreOk .tile (.rem a b c d : Instr) = true := rfl
@[simp] theorem Instr.coreCroft_rem a b c d : Instr.coreOk .croft (.rem a b c d : Instr) = true := rfl
@[simp] theorem Instr.stream_remu a b c d : Instr.stream (.remu a b c d : Instr) = a := rfl
@[simp] theorem Instr.uses_remu a b c d : Instr.uses (.remu a b c d : Instr) = ⟨[c, d], [b], [], [], [], []⟩ := rfl
@[simp] theorem Instr.coreTile_remu a b c d : Instr.coreOk .tile (.remu a b c d : Instr) = true := rfl
@[simp] theorem Instr.coreCroft_remu a b c d : Instr.coreOk .croft (.remu a b c d : Instr) = true := rfl
@[simp] theorem Instr.stream_clz a b c : Instr.stream (.clz a b c : Instr) = a := rfl
@[simp] theorem Instr.uses_clz a b c : Instr.uses (.clz a b c : Instr) = ⟨[c], [b], [], [], [], []⟩ := rfl
@[simp] theorem Instr.coreTile_clz a b c : Instr.coreOk .tile (.clz a b c : Instr) = true := rfl
@[simp] theorem Instr.coreCroft_clz a b c : Instr.coreOk .croft (.clz a b c : Instr) = true := rfl
@[simp] theorem Instr.stream_ctz a b c : Instr.stream (.ctz a b c : Instr) = a := rfl
@[simp] theorem Instr.uses_ctz a b c : Instr.uses (.ctz a b c : Instr) = ⟨[c], [b], [], [], [], []⟩ := rfl
@[simp] theorem Instr.coreTile_ctz a b c : Instr.coreOk .tile (.ctz a b c : Instr) = true := rfl
@[simp] theorem Instr.coreCroft_ctz a b c : Instr.coreOk .croft (.ctz a b c : Instr) = true := rfl
@[simp] theorem Instr.stream_popc a b c : Instr.stream (.popc a b c : Instr) = a := rfl
@[simp] theorem Instr.uses_popc a b c : Instr.uses (.popc a b c : Instr) = ⟨[c], [b], [], [], [], []⟩ := rfl
@[simp] theorem Instr.coreTile_popc a b c : Instr.coreOk .tile (.popc a b c : Instr) = true := rfl
@[simp] theorem Instr.coreCroft_popc a b c : Instr.coreOk .croft (.popc a b c : Instr) = true := rfl
@[simp] theorem Instr.stream_addsl1 a b c d : Instr.stream (.addsl1 a b c d : Instr) = a := rfl
@[simp] theorem Instr.uses_addsl1 a b c d : Instr.uses (.addsl1 a b c d : Instr) = ⟨[c, d], [b], [], [], [], []⟩ := rfl
@[simp] theorem Instr.coreTile_addsl1 a b c d : Instr.coreOk .tile (.addsl1 a b c d : Instr) = true := rfl
@[simp] theorem Instr.coreCroft_addsl1 a b c d : Instr.coreOk .croft (.addsl1 a b c d : Instr) = true := rfl
@[simp] theorem Instr.stream_addsl2 a b c d : Instr.stream (.addsl2 a b c d : Instr) = a := rfl
@[simp] theorem Instr.uses_addsl2 a b c d : Instr.uses (.addsl2 a b c d : Instr) = ⟨[c, d], [b], [], [], [], []⟩ := rfl
@[simp] theorem Instr.coreTile_addsl2 a b c d : Instr.coreOk .tile (.addsl2 a b c d : Instr) = true := rfl
@[simp] theorem Instr.coreCroft_addsl2 a b c d : Instr.coreOk .croft (.addsl2 a b c d : Instr) = true := rfl
@[simp] theorem Instr.stream_addsl3 a b c d : Instr.stream (.addsl3 a b c d : Instr) = a := rfl
@[simp] theorem Instr.uses_addsl3 a b c d : Instr.uses (.addsl3 a b c d : Instr) = ⟨[c, d], [b], [], [], [], []⟩ := rfl
@[simp] theorem Instr.coreTile_addsl3 a b c d : Instr.coreOk .tile (.addsl3 a b c d : Instr) = true := rfl
@[simp] theorem Instr.coreCroft_addsl3 a b c d : Instr.coreOk .croft (.addsl3 a b c d : Instr) = true := rfl
@[simp] theorem Instr.stream_addsl4 a b c d : Instr.stream (.addsl4 a b c d : Instr) = a := rfl
@[simp] theorem Instr.uses_addsl4 a b c d : Instr.uses (.addsl4 a b c d : Instr) = ⟨[c, d], [b], [], [], [], []⟩ := rfl
@[simp] theorem Instr.coreTile_addsl4 a b c d : Instr.coreOk .tile (.addsl4 a b c d : Instr) = true := rfl
@[simp] theorem Instr.coreCroft_addsl4 a b c d : Instr.coreOk .croft (.addsl4 a b c d : Instr) = true := rfl
@[simp] theorem Instr.stream_addi a b c d : Instr.stream (.addi a b c d : Instr) = a := rfl
@[simp] theorem Instr.uses_addi a b c d : Instr.uses (.addi a b c d : Instr) = ⟨[c], [b], [], [], [], []⟩ := rfl
@[simp] theorem Instr.coreTile_addi a b c d : Instr.coreOk .tile (.addi a b c d : Instr) = true := rfl
@[simp] theorem Instr.coreCroft_addi a b c d : Instr.coreOk .croft (.addi a b c d : Instr) = true := rfl
@[simp] theorem Instr.stream_andi a b c d : Instr.stream (.andi a b c d : Instr) = a := rfl
@[simp] theorem Instr.uses_andi a b c d : Instr.uses (.andi a b c d : Instr) = ⟨[c], [b], [], [], [], []⟩ := rfl
@[simp] theorem Instr.coreTile_andi a b c d : Instr.coreOk .tile (.andi a b c d : Instr) = true := rfl
@[simp] theorem Instr.coreCroft_andi a b c d : Instr.coreOk .croft (.andi a b c d : Instr) = true := rfl
@[simp] theorem Instr.stream_ori a b c d : Instr.stream (.ori a b c d : Instr) = a := rfl
@[simp] theorem Instr.uses_ori a b c d : Instr.uses (.ori a b c d : Instr) = ⟨[c], [b], [], [], [], []⟩ := rfl
@[simp] theorem Instr.coreTile_ori a b c d : Instr.coreOk .tile (.ori a b c d : Instr) = true := rfl
@[simp] theorem Instr.coreCroft_ori a b c d : Instr.coreOk .croft (.ori a b c d : Instr) = true := rfl
@[simp] theorem Instr.stream_xori a b c d : Instr.stream (.xori a b c d : Instr) = a := rfl
@[simp] theorem Instr.uses_xori a b c d : Instr.uses (.xori a b c d : Instr) = ⟨[c], [b], [], [], [], []⟩ := rfl
@[simp] theorem Instr.coreTile_xori a b c d : Instr.coreOk .tile (.xori a b c d : Instr) = true := rfl
@[simp] theorem Instr.coreCroft_xori a b c d : Instr.coreOk .croft (.xori a b c d : Instr) = true := rfl
@[simp] theorem Instr.stream_slti a b c d : Instr.stream (.slti a b c d : Instr) = a := rfl
@[simp] theorem Instr.uses_slti a b c d : Instr.uses (.slti a b c d : Instr) = ⟨[c], [b], [], [], [], []⟩ := rfl
@[simp] theorem Instr.coreTile_slti a b c d : Instr.coreOk .tile (.slti a b c d : Instr) = true := rfl
@[simp] theorem Instr.coreCroft_slti a b c d : Instr.coreOk .croft (.slti a b c d : Instr) = true := rfl
@[simp] theorem Instr.stream_slli a b c d : Instr.stream (.slli a b c d : Instr) = a := rfl
@[simp] theorem Instr.uses_slli a b c d : Instr.uses (.slli a b c d : Instr) = ⟨[c], [b], [], [], [], []⟩ := rfl
@[simp] theorem Instr.coreTile_slli a b c d : Instr.coreOk .tile (.slli a b c d : Instr) = true := rfl
@[simp] theorem Instr.coreCroft_slli a b c d : Instr.coreOk .croft (.slli a b c d : Instr) = true := rfl
@[simp] theorem Instr.stream_srli a b c d : Instr.stream (.srli a b c d : Instr) = a := rfl
@[simp] theorem Instr.uses_srli a b c d : Instr.uses (.srli a b c d : Instr) = ⟨[c], [b], [], [], [], []⟩ := rfl
@[simp] theorem Instr.coreTile_srli a b c d : Instr.coreOk .tile (.srli a b c d : Instr) = true := rfl
@[simp] theorem Instr.coreCroft_srli a b c d : Instr.coreOk .croft (.srli a b c d : Instr) = true := rfl
@[simp] theorem Instr.stream_srai a b c d : Instr.stream (.srai a b c d : Instr) = a := rfl
@[simp] theorem Instr.uses_srai a b c d : Instr.uses (.srai a b c d : Instr) = ⟨[c], [b], [], [], [], []⟩ := rfl
@[simp] theorem Instr.coreTile_srai a b c d : Instr.coreOk .tile (.srai a b c d : Instr) = true := rfl
@[simp] theorem Instr.coreCroft_srai a b c d : Instr.coreOk .croft (.srai a b c d : Instr) = true := rfl
@[simp] theorem Instr.stream_li a b c : Instr.stream (.li a b c : Instr) = a := rfl
@[simp] theorem Instr.uses_li a b c : Instr.uses (.li a b c : Instr) = ⟨[], [b], [], [], [], []⟩ := rfl
@[simp] theorem Instr.coreTile_li a b c : Instr.coreOk .tile (.li a b c : Instr) = true := rfl
@[simp] theorem Instr.coreCroft_li a b c : Instr.coreOk .croft (.li a b c : Instr) = true := rfl
@[simp] theorem Instr.stream_lih a b c : Instr.stream (.lih a b c : Instr) = a := rfl
@[simp] theorem Instr.uses_lih a b c : Instr.uses (.lih a b c : Instr) = ⟨[], [], [b], [], [], []⟩ := rfl
@[simp] theorem Instr.coreTile_lih a b c : Instr.coreOk .tile (.lih a b c : Instr) = true := rfl
@[simp] theorem Instr.coreCroft_lih a b c : Instr.coreOk .croft (.lih a b c : Instr) = true := rfl
@[simp] theorem Instr.stream_bfx a b c d e : Instr.stream (.bfx a b c d e : Instr) = a := rfl
@[simp] theorem Instr.uses_bfx a b c d e : Instr.uses (.bfx a b c d e : Instr) = ⟨[c], [b], [], [], [], []⟩ := rfl
@[simp] theorem Instr.coreTile_bfx a b c d e : Instr.coreOk .tile (.bfx a b c d e : Instr) = true := rfl
@[simp] theorem Instr.coreCroft_bfx a b c d e : Instr.coreOk .croft (.bfx a b c d e : Instr) = true := rfl
@[simp] theorem Instr.stream_bfxu a b c d e : Instr.stream (.bfxu a b c d e : Instr) = a := rfl
@[simp] theorem Instr.uses_bfxu a b c d e : Instr.uses (.bfxu a b c d e : Instr) = ⟨[c], [b], [], [], [], []⟩ := rfl
@[simp] theorem Instr.coreTile_bfxu a b c d e : Instr.coreOk .tile (.bfxu a b c d e : Instr) = true := rfl
@[simp] theorem Instr.coreCroft_bfxu a b c d e : Instr.coreOk .croft (.bfxu a b c d e : Instr) = true := rfl
@[simp] theorem Instr.stream_bfi a b c d e : Instr.stream (.bfi a b c d e : Instr) = a := rfl
@[simp] theorem Instr.uses_bfi a b c d e : Instr.uses (.bfi a b c d e : Instr) = ⟨[c], [], [b], [], [], []⟩ := rfl
@[simp] theorem Instr.coreTile_bfi a b c d e : Instr.coreOk .tile (.bfi a b c d e : Instr) = true := rfl
@[simp] theorem Instr.coreCroft_bfi a b c d e : Instr.coreOk .croft (.bfi a b c d e : Instr) = true := rfl
@[simp] theorem Instr.stream_part a b c : Instr.stream (.part a b c : Instr) = .A := rfl
@[simp] theorem Instr.uses_part a b c : Instr.uses (.part a b c : Instr) = ⟨[b, c], [a], [], [], [], []⟩ := rfl
@[simp] theorem Instr.coreTile_part a b c : Instr.coreOk .tile (.part a b c : Instr) = true := rfl
@[simp] theorem Instr.coreCroft_part a b c : Instr.coreOk .croft (.part a b c : Instr) = false := rfl
@[simp] theorem Instr.stream_partY a b c : Instr.stream (.partY a b c : Instr) = .A := rfl
@[simp] theorem Instr.uses_partY a b c : Instr.uses (.partY a b c : Instr) = ⟨[b, c], [a], [], [], [], []⟩ := rfl
@[simp] theorem Instr.coreTile_partY a b c : Instr.coreOk .tile (.partY a b c : Instr) = true := rfl
@[simp] theorem Instr.coreCroft_partY a b c : Instr.coreOk .croft (.partY a b c : Instr) = false := rfl
@[simp] theorem Instr.stream_fadd a b c : Instr.stream (.fadd a b c : Instr) = .C := rfl
@[simp] theorem Instr.uses_fadd a b c : Instr.uses (.fadd a b c : Instr) = ⟨[b, c], [a], [], [], [], []⟩ := rfl
@[simp] theorem Instr.coreTile_fadd a b c : Instr.coreOk .tile (.fadd a b c : Instr) = true := rfl
@[simp] theorem Instr.coreCroft_fadd a b c : Instr.coreOk .croft (.fadd a b c : Instr) = false := rfl
@[simp] theorem Instr.stream_fsub a b c : Instr.stream (.fsub a b c : Instr) = .C := rfl
@[simp] theorem Instr.uses_fsub a b c : Instr.uses (.fsub a b c : Instr) = ⟨[b, c], [a], [], [], [], []⟩ := rfl
@[simp] theorem Instr.coreTile_fsub a b c : Instr.coreOk .tile (.fsub a b c : Instr) = true := rfl
@[simp] theorem Instr.coreCroft_fsub a b c : Instr.coreOk .croft (.fsub a b c : Instr) = false := rfl
@[simp] theorem Instr.stream_fmul a b c : Instr.stream (.fmul a b c : Instr) = .C := rfl
@[simp] theorem Instr.uses_fmul a b c : Instr.uses (.fmul a b c : Instr) = ⟨[b, c], [a], [], [], [], []⟩ := rfl
@[simp] theorem Instr.coreTile_fmul a b c : Instr.coreOk .tile (.fmul a b c : Instr) = true := rfl
@[simp] theorem Instr.coreCroft_fmul a b c : Instr.coreOk .croft (.fmul a b c : Instr) = false := rfl
@[simp] theorem Instr.stream_ffma a b c : Instr.stream (.ffma a b c : Instr) = .C := rfl
@[simp] theorem Instr.uses_ffma a b c : Instr.uses (.ffma a b c : Instr) = ⟨[b, c], [], [a], [], [], []⟩ := rfl
@[simp] theorem Instr.coreTile_ffma a b c : Instr.coreOk .tile (.ffma a b c : Instr) = true := rfl
@[simp] theorem Instr.coreCroft_ffma a b c : Instr.coreOk .croft (.ffma a b c : Instr) = false := rfl
@[simp] theorem Instr.stream_fmin a b c : Instr.stream (.fmin a b c : Instr) = .C := rfl
@[simp] theorem Instr.uses_fmin a b c : Instr.uses (.fmin a b c : Instr) = ⟨[b, c], [a], [], [], [], []⟩ := rfl
@[simp] theorem Instr.coreTile_fmin a b c : Instr.coreOk .tile (.fmin a b c : Instr) = true := rfl
@[simp] theorem Instr.coreCroft_fmin a b c : Instr.coreOk .croft (.fmin a b c : Instr) = false := rfl
@[simp] theorem Instr.stream_fmax a b c : Instr.stream (.fmax a b c : Instr) = .C := rfl
@[simp] theorem Instr.uses_fmax a b c : Instr.uses (.fmax a b c : Instr) = ⟨[b, c], [a], [], [], [], []⟩ := rfl
@[simp] theorem Instr.coreTile_fmax a b c : Instr.coreOk .tile (.fmax a b c : Instr) = true := rfl
@[simp] theorem Instr.coreCroft_fmax a b c : Instr.coreOk .croft (.fmax a b c : Instr) = false := rfl
@[simp] theorem Instr.stream_feq a b c : Instr.stream (.feq a b c : Instr) = .C := rfl
@[simp] theorem Instr.uses_feq a b c : Instr.uses (.feq a b c : Instr) = ⟨[b, c], [a], [], [], [], []⟩ := rfl
@[simp] theorem Instr.coreTile_feq a b c : Instr.coreOk .tile (.feq a b c : Instr) = true := rfl
@[simp] theorem Instr.coreCroft_feq a b c : Instr.coreOk .croft (.feq a b c : Instr) = false := rfl
@[simp] theorem Instr.stream_flt a b c : Instr.stream (.flt a b c : Instr) = .C := rfl
@[simp] theorem Instr.uses_flt a b c : Instr.uses (.flt a b c : Instr) = ⟨[b, c], [a], [], [], [], []⟩ := rfl
@[simp] theorem Instr.coreTile_flt a b c : Instr.coreOk .tile (.flt a b c : Instr) = true := rfl
@[simp] theorem Instr.coreCroft_flt a b c : Instr.coreOk .croft (.flt a b c : Instr) = false := rfl
@[simp] theorem Instr.stream_fle a b c : Instr.stream (.fle a b c : Instr) = .C := rfl
@[simp] theorem Instr.uses_fle a b c : Instr.uses (.fle a b c : Instr) = ⟨[b, c], [a], [], [], [], []⟩ := rfl
@[simp] theorem Instr.coreTile_fle a b c : Instr.coreOk .tile (.fle a b c : Instr) = true := rfl
@[simp] theorem Instr.coreCroft_fle a b c : Instr.coreOk .croft (.fle a b c : Instr) = false := rfl
@[simp] theorem Instr.stream_fcvtSI a b : Instr.stream (.fcvtSI a b : Instr) = .C := rfl
@[simp] theorem Instr.uses_fcvtSI a b : Instr.uses (.fcvtSI a b : Instr) = ⟨[b], [a], [], [], [], []⟩ := rfl
@[simp] theorem Instr.coreTile_fcvtSI a b : Instr.coreOk .tile (.fcvtSI a b : Instr) = true := rfl
@[simp] theorem Instr.coreCroft_fcvtSI a b : Instr.coreOk .croft (.fcvtSI a b : Instr) = false := rfl
@[simp] theorem Instr.stream_fcvtIS a b : Instr.stream (.fcvtIS a b : Instr) = .C := rfl
@[simp] theorem Instr.uses_fcvtIS a b : Instr.uses (.fcvtIS a b : Instr) = ⟨[b], [a], [], [], [], []⟩ := rfl
@[simp] theorem Instr.coreTile_fcvtIS a b : Instr.coreOk .tile (.fcvtIS a b : Instr) = true := rfl
@[simp] theorem Instr.coreCroft_fcvtIS a b : Instr.coreOk .croft (.fcvtIS a b : Instr) = false := rfl
@[simp] theorem Instr.stream_beqz a b : Instr.stream (.beqz a b : Instr) = .A := rfl
@[simp] theorem Instr.uses_beqz a b : Instr.uses (.beqz a b : Instr) = ⟨[a], [], [], [], [], []⟩ := rfl
@[simp] theorem Instr.coreTile_beqz a b : Instr.coreOk .tile (.beqz a b : Instr) = true := rfl
@[simp] theorem Instr.coreCroft_beqz a b : Instr.coreOk .croft (.beqz a b : Instr) = true := rfl
@[simp] theorem Instr.stream_bnez a b : Instr.stream (.bnez a b : Instr) = .A := rfl
@[simp] theorem Instr.uses_bnez a b : Instr.uses (.bnez a b : Instr) = ⟨[a], [], [], [], [], []⟩ := rfl
@[simp] theorem Instr.coreTile_bnez a b : Instr.coreOk .tile (.bnez a b : Instr) = true := rfl
@[simp] theorem Instr.coreCroft_bnez a b : Instr.coreOk .croft (.bnez a b : Instr) = true := rfl
@[simp] theorem Instr.stream_bltz a b : Instr.stream (.bltz a b : Instr) = .A := rfl
@[simp] theorem Instr.uses_bltz a b : Instr.uses (.bltz a b : Instr) = ⟨[a], [], [], [], [], []⟩ := rfl
@[simp] theorem Instr.coreTile_bltz a b : Instr.coreOk .tile (.bltz a b : Instr) = true := rfl
@[simp] theorem Instr.coreCroft_bltz a b : Instr.coreOk .croft (.bltz a b : Instr) = true := rfl
@[simp] theorem Instr.stream_bgez a b : Instr.stream (.bgez a b : Instr) = .A := rfl
@[simp] theorem Instr.uses_bgez a b : Instr.uses (.bgez a b : Instr) = ⟨[a], [], [], [], [], []⟩ := rfl
@[simp] theorem Instr.coreTile_bgez a b : Instr.coreOk .tile (.bgez a b : Instr) = true := rfl
@[simp] theorem Instr.coreCroft_bgez a b : Instr.coreOk .croft (.bgez a b : Instr) = true := rfl
@[simp] theorem Instr.stream_bgtz a b : Instr.stream (.bgtz a b : Instr) = .A := rfl
@[simp] theorem Instr.uses_bgtz a b : Instr.uses (.bgtz a b : Instr) = ⟨[a], [], [], [], [], []⟩ := rfl
@[simp] theorem Instr.coreTile_bgtz a b : Instr.coreOk .tile (.bgtz a b : Instr) = true := rfl
@[simp] theorem Instr.coreCroft_bgtz a b : Instr.coreOk .croft (.bgtz a b : Instr) = true := rfl
@[simp] theorem Instr.stream_blez a b : Instr.stream (.blez a b : Instr) = .A := rfl
@[simp] theorem Instr.uses_blez a b : Instr.uses (.blez a b : Instr) = ⟨[a], [], [], [], [], []⟩ := rfl
@[simp] theorem Instr.coreTile_blez a b : Instr.coreOk .tile (.blez a b : Instr) = true := rfl
@[simp] theorem Instr.coreCroft_blez a b : Instr.coreOk .croft (.blez a b : Instr) = true := rfl
@[simp] theorem Instr.stream_jal a b : Instr.stream (.jal a b : Instr) = .A := rfl
@[simp] theorem Instr.uses_jal a b : Instr.uses (.jal a b : Instr) = ⟨[], [a], [], [], [], []⟩ := rfl
@[simp] theorem Instr.coreTile_jal a b : Instr.coreOk .tile (.jal a b : Instr) = true := rfl
@[simp] theorem Instr.coreCroft_jal a b : Instr.coreOk .croft (.jal a b : Instr) = true := rfl
@[simp] theorem Instr.stream_jalr a b c : Instr.stream (.jalr a b c : Instr) = .A := rfl
@[simp] theorem Instr.uses_jalr a b c : Instr.uses (.jalr a b c : Instr) = ⟨[b], [a], [], [], [], []⟩ := rfl
@[simp] theorem Instr.coreTile_jalr a b c : Instr.coreOk .tile (.jalr a b c : Instr) = true := rfl
@[simp] theorem Instr.coreCroft_jalr a b c : Instr.coreOk .croft (.jalr a b c : Instr) = true := rfl
@[simp] theorem Instr.stream_rpt a b : Instr.stream (.rpt a b : Instr) = .C := rfl
@[simp] theorem Instr.uses_rpt a b : Instr.uses (.rpt a b : Instr) = ⟨[], [], [], [], [], []⟩ := rfl
@[simp] theorem Instr.coreTile_rpt a b : Instr.coreOk .tile (.rpt a b : Instr) = true := rfl
@[simp] theorem Instr.coreCroft_rpt a b : Instr.coreOk .croft (.rpt a b : Instr) = false := rfl
@[simp] theorem Instr.stream_nop a : Instr.stream (.nop a : Instr) = a := rfl
@[simp] theorem Instr.uses_nop a : Instr.uses (.nop a : Instr) = ⟨[], [], [], [], [], []⟩ := rfl
@[simp] theorem Instr.coreTile_nop a : Instr.coreOk .tile (.nop a : Instr) = true := rfl
@[simp] theorem Instr.coreCroft_nop a : Instr.coreOk .croft (.nop a : Instr) = true := rfl
@[simp] theorem Instr.stream_done : Instr.stream (.done : Instr) = .A := rfl
@[simp] theorem Instr.uses_done : Instr.uses (.done : Instr) = ⟨[], [], [], [], [], []⟩ := rfl
@[simp] theorem Instr.coreTile_done : Instr.coreOk .tile (.done : Instr) = true := rfl
@[simp] theorem Instr.coreCroft_done : Instr.coreOk .croft (.done : Instr) = false := rfl
@[simp] theorem Instr.stream_yield : Instr.stream (.yield : Instr) = .A := rfl
@[simp] theorem Instr.uses_yield : Instr.uses (.yield : Instr) = ⟨[], [], [], [], [], []⟩ := rfl
@[simp] theorem Instr.coreTile_yield : Instr.coreOk .tile (.yield : Instr) = true := rfl
@[simp] theorem Instr.coreCroft_yield : Instr.coreOk .croft (.yield : Instr) = false := rfl
@[simp] theorem Instr.stream_step : Instr.stream (.step : Instr) = .A := rfl
@[simp] theorem Instr.uses_step : Instr.uses (.step : Instr) = ⟨[], [], [], [], [], []⟩ := rfl
@[simp] theorem Instr.coreTile_step : Instr.coreOk .tile (.step : Instr) = true := rfl
@[simp] theorem Instr.coreCroft_step : Instr.coreOk .croft (.step : Instr) = false := rfl
@[simp] theorem Instr.stream_safept a : Instr.stream (.safept a : Instr) = .A := rfl
@[simp] theorem Instr.uses_safept a : Instr.uses (.safept a : Instr) = ⟨[], [], [], [], [], []⟩ := rfl
@[simp] theorem Instr.coreTile_safept a : Instr.coreOk .tile (.safept a : Instr) = true := rfl
@[simp] theorem Instr.coreCroft_safept a : Instr.coreOk .croft (.safept a : Instr) = false := rfl
@[simp] theorem Instr.stream_trap a : Instr.stream (.trap a : Instr) = .A := rfl
@[simp] theorem Instr.uses_trap a : Instr.uses (.trap a : Instr) = ⟨[], [], [], [], [], []⟩ := rfl
@[simp] theorem Instr.coreTile_trap a : Instr.coreOk .tile (.trap a : Instr) = true := rfl
@[simp] theorem Instr.coreCroft_trap a : Instr.coreOk .croft (.trap a : Instr) = true := rfl
@[simp] theorem Instr.stream_brk a : Instr.stream (.brk a : Instr) = .A := rfl
@[simp] theorem Instr.uses_brk a : Instr.uses (.brk a : Instr) = ⟨[], [], [], [], [], []⟩ := rfl
@[simp] theorem Instr.coreTile_brk a : Instr.coreOk .tile (.brk a : Instr) = true := rfl
@[simp] theorem Instr.coreCroft_brk a : Instr.coreOk .croft (.brk a : Instr) = true := rfl
@[simp] theorem Instr.stream_sysrd a b c : Instr.stream (.sysrd a b c : Instr) = a := rfl
@[simp] theorem Instr.uses_sysrd a b c : Instr.uses (.sysrd a b c : Instr) = ⟨[], [b], [], [], [], []⟩ := rfl
@[simp] theorem Instr.coreTile_sysrd a b c : Instr.coreOk .tile (.sysrd a b c : Instr) = true := rfl
@[simp] theorem Instr.coreCroft_sysrd a b c : Instr.coreOk .croft (.sysrd a b c : Instr) = true := rfl
@[simp] theorem Instr.stream_syswr a b c : Instr.stream (.syswr a b c : Instr) = a := rfl
@[simp] theorem Instr.uses_syswr a b c : Instr.uses (.syswr a b c : Instr) = ⟨[b], [], [], [], [], []⟩ := rfl
@[simp] theorem Instr.coreTile_syswr a b c : Instr.coreOk .tile (.syswr a b c : Instr) = true := rfl
@[simp] theorem Instr.coreCroft_syswr a b c : Instr.coreOk .croft (.syswr a b c : Instr) = true := rfl
@[simp] theorem Instr.stream_tokreq a b : Instr.stream (.tokreq a b : Instr) = .A := rfl
@[simp] theorem Instr.uses_tokreq a b : Instr.uses (.tokreq a b : Instr) = ⟨[b], [a], [], [], [], []⟩ := rfl
@[simp] theorem Instr.coreTile_tokreq a b : Instr.coreOk .tile (.tokreq a b : Instr) = true := rfl
@[simp] theorem Instr.coreCroft_tokreq a b : Instr.coreOk .croft (.tokreq a b : Instr) = false := rfl
@[simp] theorem Instr.stream_tokret a b : Instr.stream (.tokret a b : Instr) = .A := rfl
@[simp] theorem Instr.uses_tokret a b : Instr.uses (.tokret a b : Instr) = ⟨[b], [a], [], [], [], []⟩ := rfl
@[simp] theorem Instr.coreTile_tokret a b : Instr.coreOk .tile (.tokret a b : Instr) = true := rfl
@[simp] theorem Instr.coreCroft_tokret a b : Instr.coreOk .croft (.tokret a b : Instr) = false := rfl
@[simp] theorem Instr.stream_toklend a b c : Instr.stream (.toklend a b c : Instr) = .A := rfl
@[simp] theorem Instr.uses_toklend a b c : Instr.uses (.toklend a b c : Instr) = ⟨[b, c], [a], [], [], [], []⟩ := rfl
@[simp] theorem Instr.coreTile_toklend a b c : Instr.coreOk .tile (.toklend a b c : Instr) = true := rfl
@[simp] theorem Instr.coreCroft_toklend a b c : Instr.coreOk .croft (.toklend a b c : Instr) = false := rfl
@[simp] theorem Instr.stream_tokwait a : Instr.stream (.tokwait a : Instr) = .A := rfl
@[simp] theorem Instr.uses_tokwait a : Instr.uses (.tokwait a : Instr) = ⟨[], [a], [], [], [], []⟩ := rfl
@[simp] theorem Instr.coreTile_tokwait a : Instr.coreOk .tile (.tokwait a : Instr) = true := rfl
@[simp] theorem Instr.coreCroft_tokwait a : Instr.coreOk .croft (.tokwait a : Instr) = false := rfl
@[simp] theorem Instr.stream_tokq a : Instr.stream (.tokq a : Instr) = .A := rfl
@[simp] theorem Instr.uses_tokq a : Instr.uses (.tokq a : Instr) = ⟨[], [a], [], [], [], []⟩ := rfl
@[simp] theorem Instr.coreTile_tokq a : Instr.coreOk .tile (.tokq a : Instr) = true := rfl
@[simp] theorem Instr.coreCroft_tokq a : Instr.coreOk .croft (.tokq a : Instr) = false := rfl
@[simp] theorem Instr.stream_ldB a b c d : Instr.stream (.ldB a b c d : Instr) = .A := rfl
@[simp] theorem Instr.uses_ldB a b c d : Instr.uses (.ldB a b c d : Instr) = ⟨[b], [a], [], [], [], []⟩ := rfl
@[simp] theorem Instr.coreTile_ldB a b c d : Instr.coreOk .tile (.ldB a b c d : Instr) = true := rfl
@[simp] theorem Instr.coreCroft_ldB a b c d : Instr.coreOk .croft (.ldB a b c d : Instr) = true := rfl
@[simp] theorem Instr.stream_ldBu a b c d : Instr.stream (.ldBu a b c d : Instr) = .A := rfl
@[simp] theorem Instr.uses_ldBu a b c d : Instr.uses (.ldBu a b c d : Instr) = ⟨[b], [a], [], [], [], []⟩ := rfl
@[simp] theorem Instr.coreTile_ldBu a b c d : Instr.coreOk .tile (.ldBu a b c d : Instr) = true := rfl
@[simp] theorem Instr.coreCroft_ldBu a b c d : Instr.coreOk .croft (.ldBu a b c d : Instr) = true := rfl
@[simp] theorem Instr.stream_ldH a b c d : Instr.stream (.ldH a b c d : Instr) = .A := rfl
@[simp] theorem Instr.uses_ldH a b c d : Instr.uses (.ldH a b c d : Instr) = ⟨[b], [a], [], [], [], []⟩ := rfl
@[simp] theorem Instr.coreTile_ldH a b c d : Instr.coreOk .tile (.ldH a b c d : Instr) = true := rfl
@[simp] theorem Instr.coreCroft_ldH a b c d : Instr.coreOk .croft (.ldH a b c d : Instr) = true := rfl
@[simp] theorem Instr.stream_ldHu a b c d : Instr.stream (.ldHu a b c d : Instr) = .A := rfl
@[simp] theorem Instr.uses_ldHu a b c d : Instr.uses (.ldHu a b c d : Instr) = ⟨[b], [a], [], [], [], []⟩ := rfl
@[simp] theorem Instr.coreTile_ldHu a b c d : Instr.coreOk .tile (.ldHu a b c d : Instr) = true := rfl
@[simp] theorem Instr.coreCroft_ldHu a b c d : Instr.coreOk .croft (.ldHu a b c d : Instr) = true := rfl
@[simp] theorem Instr.stream_ldW a b c d : Instr.stream (.ldW a b c d : Instr) = .A := rfl
@[simp] theorem Instr.uses_ldW a b c d : Instr.uses (.ldW a b c d : Instr) = ⟨[b], [a], [], [], [], []⟩ := rfl
@[simp] theorem Instr.coreTile_ldW a b c d : Instr.coreOk .tile (.ldW a b c d : Instr) = true := rfl
@[simp] theorem Instr.coreCroft_ldW a b c d : Instr.coreOk .croft (.ldW a b c d : Instr) = true := rfl
@[simp] theorem Instr.stream_ldWu a b c d : Instr.stream (.ldWu a b c d : Instr) = .A := rfl
@[simp] theorem Instr.uses_ldWu a b c d : Instr.uses (.ldWu a b c d : Instr) = ⟨[b], [a], [], [], [], []⟩ := rfl
@[simp] theorem Instr.coreTile_ldWu a b c d : Instr.coreOk .tile (.ldWu a b c d : Instr) = true := rfl
@[simp] theorem Instr.coreCroft_ldWu a b c d : Instr.coreOk .croft (.ldWu a b c d : Instr) = true := rfl
@[simp] theorem Instr.stream_ldD a b c d : Instr.stream (.ldD a b c d : Instr) = .A := rfl
@[simp] theorem Instr.uses_ldD a b c d : Instr.uses (.ldD a b c d : Instr) = ⟨[b], [a], [], [], [], []⟩ := rfl
@[simp] theorem Instr.coreTile_ldD a b c d : Instr.coreOk .tile (.ldD a b c d : Instr) = true := rfl
@[simp] theorem Instr.coreCroft_ldD a b c d : Instr.coreOk .croft (.ldD a b c d : Instr) = true := rfl
@[simp] theorem Instr.stream_stB a b c d : Instr.stream (.stB a b c d : Instr) = .A := rfl
@[simp] theorem Instr.uses_stB a b c d : Instr.uses (.stB a b c d : Instr) = ⟨[b, a], [], [], [], [], []⟩ := rfl
@[simp] theorem Instr.coreTile_stB a b c d : Instr.coreOk .tile (.stB a b c d : Instr) = true := rfl
@[simp] theorem Instr.coreCroft_stB a b c d : Instr.coreOk .croft (.stB a b c d : Instr) = true := rfl
@[simp] theorem Instr.stream_stH a b c d : Instr.stream (.stH a b c d : Instr) = .A := rfl
@[simp] theorem Instr.uses_stH a b c d : Instr.uses (.stH a b c d : Instr) = ⟨[b, a], [], [], [], [], []⟩ := rfl
@[simp] theorem Instr.coreTile_stH a b c d : Instr.coreOk .tile (.stH a b c d : Instr) = true := rfl
@[simp] theorem Instr.coreCroft_stH a b c d : Instr.coreOk .croft (.stH a b c d : Instr) = true := rfl
@[simp] theorem Instr.stream_stW a b c d : Instr.stream (.stW a b c d : Instr) = .A := rfl
@[simp] theorem Instr.uses_stW a b c d : Instr.uses (.stW a b c d : Instr) = ⟨[b, a], [], [], [], [], []⟩ := rfl
@[simp] theorem Instr.coreTile_stW a b c d : Instr.coreOk .tile (.stW a b c d : Instr) = true := rfl
@[simp] theorem Instr.coreCroft_stW a b c d : Instr.coreOk .croft (.stW a b c d : Instr) = true := rfl
@[simp] theorem Instr.stream_stD a b c d : Instr.stream (.stD a b c d : Instr) = .A := rfl
@[simp] theorem Instr.uses_stD a b c d : Instr.uses (.stD a b c d : Instr) = ⟨[b, a], [], [], [], [], []⟩ := rfl
@[simp] theorem Instr.coreTile_stD a b c d : Instr.coreOk .tile (.stD a b c d : Instr) = true := rfl
@[simp] theorem Instr.coreCroft_stD a b c d : Instr.coreOk .croft (.stD a b c d : Instr) = true := rfl
@[simp] theorem Instr.stream_ldfW a b c d : Instr.stream (.ldfW a b c d : Instr) = .A := rfl
@[simp] theorem Instr.uses_ldfW a b c d : Instr.uses (.ldfW a b c d : Instr) = ⟨[b], [a], [], [], [], []⟩ := rfl
@[simp] theorem Instr.coreTile_ldfW a b c d : Instr.coreOk .tile (.ldfW a b c d : Instr) = true := rfl
@[simp] theorem Instr.coreCroft_ldfW a b c d : Instr.coreOk .croft (.ldfW a b c d : Instr) = false := rfl
@[simp] theorem Instr.stream_ldfD a b c d : Instr.stream (.ldfD a b c d : Instr) = .A := rfl
@[simp] theorem Instr.uses_ldfD a b c d : Instr.uses (.ldfD a b c d : Instr) = ⟨[b], [a], [], [], [], []⟩ := rfl
@[simp] theorem Instr.coreTile_ldfD a b c d : Instr.coreOk .tile (.ldfD a b c d : Instr) = true := rfl
@[simp] theorem Instr.coreCroft_ldfD a b c d : Instr.coreOk .croft (.ldfD a b c d : Instr) = false := rfl
@[simp] theorem Instr.stream_ldtW a b c d : Instr.stream (.ldtW a b c d : Instr) = .A := rfl
@[simp] theorem Instr.uses_ldtW a b c d : Instr.uses (.ldtW a b c d : Instr) = ⟨[b], [a], [], [], [], []⟩ := rfl
@[simp] theorem Instr.coreTile_ldtW a b c d : Instr.coreOk .tile (.ldtW a b c d : Instr) = true := rfl
@[simp] theorem Instr.coreCroft_ldtW a b c d : Instr.coreOk .croft (.ldtW a b c d : Instr) = false := rfl
@[simp] theorem Instr.stream_ldtD a b c d : Instr.stream (.ldtD a b c d : Instr) = .A := rfl
@[simp] theorem Instr.uses_ldtD a b c d : Instr.uses (.ldtD a b c d : Instr) = ⟨[b], [a], [], [], [], []⟩ := rfl
@[simp] theorem Instr.coreTile_ldtD a b c d : Instr.coreOk .tile (.ldtD a b c d : Instr) = true := rfl
@[simp] theorem Instr.coreCroft_ldtD a b c d : Instr.coreOk .croft (.ldtD a b c d : Instr) = false := rfl
@[simp] theorem Instr.stream_stfW a b c d : Instr.stream (.stfW a b c d : Instr) = .A := rfl
@[simp] theorem Instr.uses_stfW a b c d : Instr.uses (.stfW a b c d : Instr) = ⟨[b, a], [], [], [], [], []⟩ := rfl
@[simp] theorem Instr.coreTile_stfW a b c d : Instr.coreOk .tile (.stfW a b c d : Instr) = true := rfl
@[simp] theorem Instr.coreCroft_stfW a b c d : Instr.coreOk .croft (.stfW a b c d : Instr) = false := rfl
@[simp] theorem Instr.stream_stfD a b c d : Instr.stream (.stfD a b c d : Instr) = .A := rfl
@[simp] theorem Instr.uses_stfD a b c d : Instr.uses (.stfD a b c d : Instr) = ⟨[b, a], [], [], [], [], []⟩ := rfl
@[simp] theorem Instr.coreTile_stfD a b c d : Instr.coreOk .tile (.stfD a b c d : Instr) = true := rfl
@[simp] theorem Instr.coreCroft_stfD a b c d : Instr.coreOk .croft (.stfD a b c d : Instr) = false := rfl
@[simp] theorem Instr.stream_stxW a b c d : Instr.stream (.stxW a b c d : Instr) = .A := rfl
@[simp] theorem Instr.uses_stxW a b c d : Instr.uses (.stxW a b c d : Instr) = ⟨[b, a], [], [], [], [], []⟩ := rfl
@[simp] theorem Instr.coreTile_stxW a b c d : Instr.coreOk .tile (.stxW a b c d : Instr) = true := rfl
@[simp] theorem Instr.coreCroft_stxW a b c d : Instr.coreOk .croft (.stxW a b c d : Instr) = false := rfl
@[simp] theorem Instr.stream_stxD a b c d : Instr.stream (.stxD a b c d : Instr) = .A := rfl
@[simp] theorem Instr.uses_stxD a b c d : Instr.uses (.stxD a b c d : Instr) = ⟨[b, a], [], [], [], [], []⟩ := rfl
@[simp] theorem Instr.coreTile_stxD a b c d : Instr.coreOk .tile (.stxD a b c d : Instr) = true := rfl
@[simp] theorem Instr.coreCroft_stxD a b c d : Instr.coreOk .croft (.stxD a b c d : Instr) = false := rfl
@[simp] theorem Instr.stream_vld a b c d : Instr.stream (.vld a b c d : Instr) = .A := rfl
@[simp] theorem Instr.uses_vld a b c d : Instr.uses (.vld a b c d : Instr) = ⟨[b, c], [], [], [], [], []⟩ := rfl
@[simp] theorem Instr.coreTile_vld a b c d : Instr.coreOk .tile (.vld a b c d : Instr) = true := rfl
@[simp] theorem Instr.coreCroft_vld a b c d : Instr.coreOk .croft (.vld a b c d : Instr) = false := rfl
@[simp] theorem Instr.stream_vst a b c d : Instr.stream (.vst a b c d : Instr) = .A := rfl
@[simp] theorem Instr.uses_vst a b c d : Instr.uses (.vst a b c d : Instr) = ⟨[b, c], [], [], [], [], []⟩ := rfl
@[simp] theorem Instr.coreTile_vst a b c d : Instr.coreOk .tile (.vst a b c d : Instr) = true := rfl
@[simp] theorem Instr.coreCroft_vst a b c d : Instr.coreOk .croft (.vst a b c d : Instr) = false := rfl
@[simp] theorem Instr.stream_vldx a b c d : Instr.stream (.vldx a b c d : Instr) = .A := rfl
@[simp] theorem Instr.uses_vldx a b c d : Instr.uses (.vldx a b c d : Instr) = ⟨[b, c], [], [], [], [], []⟩ := rfl
@[simp] theorem Instr.coreTile_vldx a b c d : Instr.coreOk .tile (.vldx a b c d : Instr) = true := rfl
@[simp] theorem Instr.coreCroft_vldx a b c d : Instr.coreOk .croft (.vldx a b c d : Instr) = false := rfl
@[simp] theorem Instr.stream_vstx a b c d : Instr.stream (.vstx a b c d : Instr) = .A := rfl
@[simp] theorem Instr.uses_vstx a b c d : Instr.uses (.vstx a b c d : Instr) = ⟨[b, c], [], [], [], [], []⟩ := rfl
@[simp] theorem Instr.coreTile_vstx a b c d : Instr.coreOk .tile (.vstx a b c d : Instr) = true := rfl
@[simp] theorem Instr.coreCroft_vstx a b c d : Instr.coreOk .croft (.vstx a b c d : Instr) = false := rfl
@[simp] theorem Instr.stream_vldb a b c d : Instr.stream (.vldb a b c d : Instr) = .A := rfl
@[simp] theorem Instr.uses_vldb a b c d : Instr.uses (.vldb a b c d : Instr) = ⟨[b, c], [], [], [], [], []⟩ := rfl
@[simp] theorem Instr.coreTile_vldb a b c d : Instr.coreOk .tile (.vldb a b c d : Instr) = true := rfl
@[simp] theorem Instr.coreCroft_vldb a b c d : Instr.coreOk .croft (.vldb a b c d : Instr) = false := rfl
@[simp] theorem Instr.stream_acq a : Instr.stream (.acq a : Instr) = .A := rfl
@[simp] theorem Instr.uses_acq a : Instr.uses (.acq a : Instr) = ⟨[], [], [], [], [], []⟩ := rfl
@[simp] theorem Instr.coreTile_acq a : Instr.coreOk .tile (.acq a : Instr) = true := rfl
@[simp] theorem Instr.coreCroft_acq a : Instr.coreOk .croft (.acq a : Instr) = true := rfl
@[simp] theorem Instr.stream_rel a : Instr.stream (.rel a : Instr) = .A := rfl
@[simp] theorem Instr.uses_rel a : Instr.uses (.rel a : Instr) = ⟨[], [], [], [], [], []⟩ := rfl
@[simp] theorem Instr.coreTile_rel a : Instr.coreOk .tile (.rel a : Instr) = true := rfl
@[simp] theorem Instr.coreCroft_rel a : Instr.coreOk .croft (.rel a : Instr) = true := rfl
@[simp] theorem Instr.stream_fence : Instr.stream (.fence : Instr) = .A := rfl
@[simp] theorem Instr.uses_fence : Instr.uses (.fence : Instr) = ⟨[], [], [], [], [], []⟩ := rfl
@[simp] theorem Instr.coreTile_fence : Instr.coreOk .tile (.fence : Instr) = true := rfl
@[simp] theorem Instr.coreCroft_fence : Instr.coreOk .croft (.fence : Instr) = true := rfl
@[simp] theorem Instr.stream_cwb a b : Instr.stream (.cwb a b : Instr) = .A := rfl
@[simp] theorem Instr.uses_cwb a b : Instr.uses (.cwb a b : Instr) = ⟨[a, b], [], [], [], [], []⟩ := rfl
@[simp] theorem Instr.coreTile_cwb a b : Instr.coreOk .tile (.cwb a b : Instr) = true := rfl
@[simp] theorem Instr.coreCroft_cwb a b : Instr.coreOk .croft (.cwb a b : Instr) = true := rfl
@[simp] theorem Instr.stream_cinv a b : Instr.stream (.cinv a b : Instr) = .A := rfl
@[simp] theorem Instr.uses_cinv a b : Instr.uses (.cinv a b : Instr) = ⟨[a, b], [], [], [], [], []⟩ := rfl
@[simp] theorem Instr.coreTile_cinv a b : Instr.coreOk .tile (.cinv a b : Instr) = true := rfl
@[simp] theorem Instr.coreCroft_cinv a b : Instr.coreOk .croft (.cinv a b : Instr) = true := rfl
@[simp] theorem Instr.stream_disc a b : Instr.stream (.disc a b : Instr) = .A := rfl
@[simp] theorem Instr.uses_disc a b : Instr.uses (.disc a b : Instr) = ⟨[a, b], [], [], [], [], []⟩ := rfl
@[simp] theorem Instr.coreTile_disc a b : Instr.coreOk .tile (.disc a b : Instr) = true := rfl
@[simp] theorem Instr.coreCroft_disc a b : Instr.coreOk .croft (.disc a b : Instr) = false := rfl
@[simp] theorem Instr.stream_pf a b : Instr.stream (.pf a b : Instr) = .A := rfl
@[simp] theorem Instr.uses_pf a b : Instr.uses (.pf a b : Instr) = ⟨[a, b], [], [], [], [], []⟩ := rfl
@[simp] theorem Instr.coreTile_pf a b : Instr.coreOk .tile (.pf a b : Instr) = true := rfl
@[simp] theorem Instr.coreCroft_pf a b : Instr.coreOk .croft (.pf a b : Instr) = false := rfl
@[simp] theorem Instr.stream_pf2 a b : Instr.stream (.pf2 a b : Instr) = .A := rfl
@[simp] theorem Instr.uses_pf2 a b : Instr.uses (.pf2 a b : Instr) = ⟨[a, b], [], [], [], [], []⟩ := rfl
@[simp] theorem Instr.coreTile_pf2 a b : Instr.coreOk .tile (.pf2 a b : Instr) = true := rfl
@[simp] theorem Instr.coreCroft_pf2 a b : Instr.coreOk .croft (.pf2 a b : Instr) = false := rfl
@[simp] theorem Instr.stream_pmig a b : Instr.stream (.pmig a b : Instr) = .A := rfl
@[simp] theorem Instr.uses_pmig a b : Instr.uses (.pmig a b : Instr) = ⟨[a, b], [], [], [], [], []⟩ := rfl
@[simp] theorem Instr.coreTile_pmig a b : Instr.coreOk .tile (.pmig a b : Instr) = true := rfl
@[simp] theorem Instr.coreCroft_pmig a b : Instr.coreOk .croft (.pmig a b : Instr) = false := rfl
@[simp] theorem Instr.stream_fefill a b : Instr.stream (.fefill a b : Instr) = .A := rfl
@[simp] theorem Instr.uses_fefill a b : Instr.uses (.fefill a b : Instr) = ⟨[a, b], [], [], [], [], []⟩ := rfl
@[simp] theorem Instr.coreTile_fefill a b : Instr.coreOk .tile (.fefill a b : Instr) = true := rfl
@[simp] theorem Instr.coreCroft_fefill a b : Instr.coreOk .croft (.fefill a b : Instr) = false := rfl
@[simp] theorem Instr.stream_feempty a b : Instr.stream (.feempty a b : Instr) = .A := rfl
@[simp] theorem Instr.uses_feempty a b : Instr.uses (.feempty a b : Instr) = ⟨[a, b], [], [], [], [], []⟩ := rfl
@[simp] theorem Instr.coreTile_feempty a b : Instr.coreOk .tile (.feempty a b : Instr) = true := rfl
@[simp] theorem Instr.coreCroft_feempty a b : Instr.coreOk .croft (.feempty a b : Instr) = false := rfl
@[simp] theorem Instr.stream_aadd a b c d : Instr.stream (.aadd a b c d : Instr) = .A := rfl
@[simp] theorem Instr.uses_aadd a b c d : Instr.uses (.aadd a b c d : Instr) = ⟨[b, c], [a], [], [], [], []⟩ := rfl
@[simp] theorem Instr.coreTile_aadd a b c d : Instr.coreOk .tile (.aadd a b c d : Instr) = true := rfl
@[simp] theorem Instr.coreCroft_aadd a b c d : Instr.coreOk .croft (.aadd a b c d : Instr) = true := rfl
@[simp] theorem Instr.stream_aaddW a b c d : Instr.stream (.aaddW a b c d : Instr) = .A := rfl
@[simp] theorem Instr.uses_aaddW a b c d : Instr.uses (.aaddW a b c d : Instr) = ⟨[b, c], [a], [], [], [], []⟩ := rfl
@[simp] theorem Instr.coreTile_aaddW a b c d : Instr.coreOk .tile (.aaddW a b c d : Instr) = true := rfl
@[simp] theorem Instr.coreCroft_aaddW a b c d : Instr.coreOk .croft (.aaddW a b c d : Instr) = true := rfl
@[simp] theorem Instr.stream_faadd a b c d : Instr.stream (.faadd a b c d : Instr) = .A := rfl
@[simp] theorem Instr.uses_faadd a b c d : Instr.uses (.faadd a b c d : Instr) = ⟨[b, c], [a], [], [], [], []⟩ := rfl
@[simp] theorem Instr.coreTile_faadd a b c d : Instr.coreOk .tile (.faadd a b c d : Instr) = true := rfl
@[simp] theorem Instr.coreCroft_faadd a b c d : Instr.coreOk .croft (.faadd a b c d : Instr) = true := rfl
@[simp] theorem Instr.stream_aand a b c d : Instr.stream (.aand a b c d : Instr) = .A := rfl
@[simp] theorem Instr.uses_aand a b c d : Instr.uses (.aand a b c d : Instr) = ⟨[b, c], [a], [], [], [], []⟩ := rfl
@[simp] theorem Instr.coreTile_aand a b c d : Instr.coreOk .tile (.aand a b c d : Instr) = true := rfl
@[simp] theorem Instr.coreCroft_aand a b c d : Instr.coreOk .croft (.aand a b c d : Instr) = true := rfl
@[simp] theorem Instr.stream_aor a b c d : Instr.stream (.aor a b c d : Instr) = .A := rfl
@[simp] theorem Instr.uses_aor a b c d : Instr.uses (.aor a b c d : Instr) = ⟨[b, c], [a], [], [], [], []⟩ := rfl
@[simp] theorem Instr.coreTile_aor a b c d : Instr.coreOk .tile (.aor a b c d : Instr) = true := rfl
@[simp] theorem Instr.coreCroft_aor a b c d : Instr.coreOk .croft (.aor a b c d : Instr) = true := rfl
@[simp] theorem Instr.stream_axor a b c d : Instr.stream (.axor a b c d : Instr) = .A := rfl
@[simp] theorem Instr.uses_axor a b c d : Instr.uses (.axor a b c d : Instr) = ⟨[b, c], [a], [], [], [], []⟩ := rfl
@[simp] theorem Instr.coreTile_axor a b c d : Instr.coreOk .tile (.axor a b c d : Instr) = true := rfl
@[simp] theorem Instr.coreCroft_axor a b c d : Instr.coreOk .croft (.axor a b c d : Instr) = true := rfl
@[simp] theorem Instr.stream_amin a b c d : Instr.stream (.amin a b c d : Instr) = .A := rfl
@[simp] theorem Instr.uses_amin a b c d : Instr.uses (.amin a b c d : Instr) = ⟨[b, c], [a], [], [], [], []⟩ := rfl
@[simp] theorem Instr.coreTile_amin a b c d : Instr.coreOk .tile (.amin a b c d : Instr) = true := rfl
@[simp] theorem Instr.coreCroft_amin a b c d : Instr.coreOk .croft (.amin a b c d : Instr) = true := rfl
@[simp] theorem Instr.stream_amax a b c d : Instr.stream (.amax a b c d : Instr) = .A := rfl
@[simp] theorem Instr.uses_amax a b c d : Instr.uses (.amax a b c d : Instr) = ⟨[b, c], [a], [], [], [], []⟩ := rfl
@[simp] theorem Instr.coreTile_amax a b c d : Instr.coreOk .tile (.amax a b c d : Instr) = true := rfl
@[simp] theorem Instr.coreCroft_amax a b c d : Instr.coreOk .croft (.amax a b c d : Instr) = true := rfl
@[simp] theorem Instr.stream_aminu a b c d : Instr.stream (.aminu a b c d : Instr) = .A := rfl
@[simp] theorem Instr.uses_aminu a b c d : Instr.uses (.aminu a b c d : Instr) = ⟨[b, c], [a], [], [], [], []⟩ := rfl
@[simp] theorem Instr.coreTile_aminu a b c d : Instr.coreOk .tile (.aminu a b c d : Instr) = true := rfl
@[simp] theorem Instr.coreCroft_aminu a b c d : Instr.coreOk .croft (.aminu a b c d : Instr) = true := rfl
@[simp] theorem Instr.stream_amaxu a b c d : Instr.stream (.amaxu a b c d : Instr) = .A := rfl
@[simp] theorem Instr.uses_amaxu a b c d : Instr.uses (.amaxu a b c d : Instr) = ⟨[b, c], [a], [], [], [], []⟩ := rfl
@[simp] theorem Instr.coreTile_amaxu a b c d : Instr.coreOk .tile (.amaxu a b c d : Instr) = true := rfl
@[simp] theorem Instr.coreCroft_amaxu a b c d : Instr.coreOk .croft (.amaxu a b c d : Instr) = true := rfl
@[simp] theorem Instr.stream_aswap a b c d : Instr.stream (.aswap a b c d : Instr) = .A := rfl
@[simp] theorem Instr.uses_aswap a b c d : Instr.uses (.aswap a b c d : Instr) = ⟨[b, c], [a], [], [], [], []⟩ := rfl
@[simp] theorem Instr.coreTile_aswap a b c d : Instr.coreOk .tile (.aswap a b c d : Instr) = true := rfl
@[simp] theorem Instr.coreCroft_aswap a b c d : Instr.coreOk .croft (.aswap a b c d : Instr) = true := rfl
@[simp] theorem Instr.stream_aload a b c : Instr.stream (.aload a b c : Instr) = .A := rfl
@[simp] theorem Instr.uses_aload a b c : Instr.uses (.aload a b c : Instr) = ⟨[b], [a], [], [], [], []⟩ := rfl
@[simp] theorem Instr.coreTile_aload a b c : Instr.coreOk .tile (.aload a b c : Instr) = true := rfl
@[simp] theorem Instr.coreCroft_aload a b c : Instr.coreOk .croft (.aload a b c : Instr) = true := rfl
@[simp] theorem Instr.stream_astore a b c : Instr.stream (.astore a b c : Instr) = .A := rfl
@[simp] theorem Instr.uses_astore a b c : Instr.uses (.astore a b c : Instr) = ⟨[a, b], [], [], [], [], []⟩ := rfl
@[simp] theorem Instr.coreTile_astore a b c : Instr.coreOk .tile (.astore a b c : Instr) = true := rfl
@[simp] theorem Instr.coreCroft_astore a b c : Instr.coreOk .croft (.astore a b c : Instr) = true := rfl
@[simp] theorem Instr.stream_acas a b c d : Instr.stream (.acas a b c d : Instr) = .A := rfl
@[simp] theorem Instr.uses_acas a b c d : Instr.uses (.acas a b c d : Instr) = ⟨[b, c], [], [a], [], [], []⟩ := rfl
@[simp] theorem Instr.coreTile_acas a b c d : Instr.coreOk .tile (.acas a b c d : Instr) = true := rfl
@[simp] theorem Instr.coreCroft_acas a b c d : Instr.coreOk .croft (.acas a b c d : Instr) = true := rfl
@[simp] theorem Instr.stream_acasW a b c d : Instr.stream (.acasW a b c d : Instr) = .A := rfl
@[simp] theorem Instr.uses_acasW a b c d : Instr.uses (.acasW a b c d : Instr) = ⟨[b, c], [], [a], [], [], []⟩ := rfl
@[simp] theorem Instr.coreTile_acasW a b c d : Instr.coreOk .tile (.acasW a b c d : Instr) = true := rfl
@[simp] theorem Instr.coreCroft_acasW a b c d : Instr.coreOk .croft (.acasW a b c d : Instr) = true := rfl
@[simp] theorem Instr.stream_atopk a b c d e : Instr.stream (.atopk a b c d e : Instr) = .A := rfl
@[simp] theorem Instr.uses_atopk a b c d e : Instr.uses (.atopk a b c d e : Instr) = ⟨[b, c], [a], [], [], [], []⟩ := rfl
@[simp] theorem Instr.coreTile_atopk a b c d e : Instr.coreOk .tile (.atopk a b c d e : Instr) = true := rfl
@[simp] theorem Instr.coreCroft_atopk a b c d e : Instr.coreOk .croft (.atopk a b c d e : Instr) = false := rfl
@[simp] theorem Instr.stream_alink a b c : Instr.stream (.alink a b c : Instr) = .A := rfl
@[simp] theorem Instr.uses_alink a b c : Instr.uses (.alink a b c : Instr) = ⟨[b, c], [a], [], [], [], []⟩ := rfl
@[simp] theorem Instr.coreTile_alink a b c : Instr.coreOk .tile (.alink a b c : Instr) = true := rfl
@[simp] theorem Instr.coreCroft_alink a b c : Instr.coreOk .croft (.alink a b c : Instr) = false := rfl
@[simp] theorem Instr.stream_bwait a : Instr.stream (.bwait a : Instr) = .A := rfl
@[simp] theorem Instr.uses_bwait a : Instr.uses (.bwait a : Instr) = ⟨[], [], [], [], [], []⟩ := rfl
@[simp] theorem Instr.coreTile_bwait a : Instr.coreOk .tile (.bwait a : Instr) = true := rfl
@[simp] theorem Instr.coreCroft_bwait a : Instr.coreOk .croft (.bwait a : Instr) = false := rfl
@[simp] theorem Instr.stream_barr a : Instr.stream (.barr a : Instr) = .A := rfl
@[simp] theorem Instr.uses_barr a : Instr.uses (.barr a : Instr) = ⟨[], [], [], [], [], []⟩ := rfl
@[simp] theorem Instr.coreTile_barr a : Instr.coreOk .tile (.barr a : Instr) = true := rfl
@[simp] theorem Instr.coreCroft_barr a : Instr.coreOk .croft (.barr a : Instr) = false := rfl
@[simp] theorem Instr.stream_bredMin a b c : Instr.stream (.bredMin a b c : Instr) = .A := rfl
@[simp] theorem Instr.uses_bredMin a b c : Instr.uses (.bredMin a b c : Instr) = ⟨[b, c], [a], [], [], [], []⟩ := rfl
@[simp] theorem Instr.coreTile_bredMin a b c : Instr.coreOk .tile (.bredMin a b c : Instr) = true := rfl
@[simp] theorem Instr.coreCroft_bredMin a b c : Instr.coreOk .croft (.bredMin a b c : Instr) = false := rfl
@[simp] theorem Instr.stream_bredSum a b c : Instr.stream (.bredSum a b c : Instr) = .A := rfl
@[simp] theorem Instr.uses_bredSum a b c : Instr.uses (.bredSum a b c : Instr) = ⟨[b, c], [a], [], [], [], []⟩ := rfl
@[simp] theorem Instr.coreTile_bredSum a b c : Instr.coreOk .tile (.bredSum a b c : Instr) = true := rfl
@[simp] theorem Instr.coreCroft_bredSum a b c : Instr.coreOk .croft (.bredSum a b c : Instr) = false := rfl
@[simp] theorem Instr.stream_bredOr a b c : Instr.stream (.bredOr a b c : Instr) = .A := rfl
@[simp] theorem Instr.uses_bredOr a b c : Instr.uses (.bredOr a b c : Instr) = ⟨[b, c], [a], [], [], [], []⟩ := rfl
@[simp] theorem Instr.coreTile_bredOr a b c : Instr.coreOk .tile (.bredOr a b c : Instr) = true := rfl
@[simp] theorem Instr.coreCroft_bredOr a b c : Instr.coreOk .croft (.bredOr a b c : Instr) = false := rfl
@[simp] theorem Instr.stream_harm a b c : Instr.stream (.harm a b c : Instr) = .A := rfl
@[simp] theorem Instr.uses_harm a b c : Instr.uses (.harm a b c : Instr) = ⟨[b, c], [a], [], [], [], []⟩ := rfl
@[simp] theorem Instr.coreTile_harm a b c : Instr.coreOk .tile (.harm a b c : Instr) = true := rfl
@[simp] theorem Instr.coreCroft_harm a b c : Instr.coreOk .croft (.harm a b c : Instr) = false := rfl
@[simp] theorem Instr.stream_harr a b : Instr.stream (.harr a b : Instr) = .A := rfl
@[simp] theorem Instr.uses_harr a b : Instr.uses (.harr a b : Instr) = ⟨[a, b], [], [], [], [], []⟩ := rfl
@[simp] theorem Instr.coreTile_harr a b : Instr.coreOk .tile (.harr a b : Instr) = true := rfl
@[simp] theorem Instr.coreCroft_harr a b : Instr.coreOk .croft (.harr a b : Instr) = false := rfl
@[simp] theorem Instr.stream_hwait a b : Instr.stream (.hwait a b : Instr) = .A := rfl
@[simp] theorem Instr.uses_hwait a b : Instr.uses (.hwait a b : Instr) = ⟨[a, b], [], [], [], [], []⟩ := rfl
@[simp] theorem Instr.coreTile_hwait a b : Instr.coreOk .tile (.hwait a b : Instr) = true := rfl
@[simp] theorem Instr.coreCroft_hwait a b : Instr.coreOk .croft (.hwait a b : Instr) = false := rfl
@[simp] theorem Instr.stream_hexp a b c : Instr.stream (.hexp a b c : Instr) = .A := rfl
@[simp] theorem Instr.uses_hexp a b c : Instr.uses (.hexp a b c : Instr) = ⟨[b, c], [a], [], [], [], []⟩ := rfl
@[simp] theorem Instr.coreTile_hexp a b c : Instr.coreOk .tile (.hexp a b c : Instr) = true := rfl
@[simp] theorem Instr.coreCroft_hexp a b c : Instr.coreOk .croft (.hexp a b c : Instr) = false := rfl
@[simp] theorem Instr.stream_qfence a : Instr.stream (.qfence a : Instr) = .A := rfl
@[simp] theorem Instr.uses_qfence a : Instr.uses (.qfence a : Instr) = ⟨[a], [], [], [], [], []⟩ := rfl
@[simp] theorem Instr.coreTile_qfence a : Instr.coreOk .tile (.qfence a : Instr) = true := rfl
@[simp] theorem Instr.coreCroft_qfence a : Instr.coreOk .croft (.qfence a : Instr) = false := rfl
@[simp] theorem Instr.stream_vshape a b : Instr.stream (.vshape a b : Instr) = .C := rfl
@[simp] theorem Instr.uses_vshape a b : Instr.uses (.vshape a b : Instr) = ⟨[], [], [], [], [], []⟩ := rfl
@[simp] theorem Instr.coreTile_vshape a b : Instr.coreOk .tile (.vshape a b : Instr) = true := rfl
@[simp] theorem Instr.coreCroft_vshape a b : Instr.coreOk .croft (.vshape a b : Instr) = false := rfl
@[simp] theorem Instr.stream_vadd a b c d : Instr.stream (.vadd a b c d : Instr) = .C := rfl
@[simp] theorem Instr.uses_vadd a b c d : Instr.uses (.vadd a b c d : Instr) = ⟨[], [], [], [b, c], [a], []⟩ := rfl
@[simp] theorem Instr.coreTile_vadd a b c d : Instr.coreOk .tile (.vadd a b c d : Instr) = true := rfl
@[simp] theorem Instr.coreCroft_vadd a b c d : Instr.coreOk .croft (.vadd a b c d : Instr) = false := rfl
@[simp] theorem Instr.stream_vsub a b c d : Instr.stream (.vsub a b c d : Instr) = .C := rfl
@[simp] theorem Instr.uses_vsub a b c d : Instr.uses (.vsub a b c d : Instr) = ⟨[], [], [], [b, c], [a], []⟩ := rfl
@[simp] theorem Instr.coreTile_vsub a b c d : Instr.coreOk .tile (.vsub a b c d : Instr) = true := rfl
@[simp] theorem Instr.coreCroft_vsub a b c d : Instr.coreOk .croft (.vsub a b c d : Instr) = false := rfl
@[simp] theorem Instr.stream_vmul a b c d : Instr.stream (.vmul a b c d : Instr) = .C := rfl
@[simp] theorem Instr.uses_vmul a b c d : Instr.uses (.vmul a b c d : Instr) = ⟨[], [], [], [b, c], [a], []⟩ := rfl
@[simp] theorem Instr.coreTile_vmul a b c d : Instr.coreOk .tile (.vmul a b c d : Instr) = true := rfl
@[simp] theorem Instr.coreCroft_vmul a b c d : Instr.coreOk .croft (.vmul a b c d : Instr) = false := rfl
@[simp] theorem Instr.stream_vmla a b c d : Instr.stream (.vmla a b c d : Instr) = .C := rfl
@[simp] theorem Instr.uses_vmla a b c d : Instr.uses (.vmla a b c d : Instr) = ⟨[], [], [], [b, c], [], [a]⟩ := rfl
@[simp] theorem Instr.coreTile_vmla a b c d : Instr.coreOk .tile (.vmla a b c d : Instr) = true := rfl
@[simp] theorem Instr.coreCroft_vmla a b c d : Instr.coreOk .croft (.vmla a b c d : Instr) = false := rfl
@[simp] theorem Instr.stream_vmin a b c d : Instr.stream (.vmin a b c d : Instr) = .C := rfl
@[simp] theorem Instr.uses_vmin a b c d : Instr.uses (.vmin a b c d : Instr) = ⟨[], [], [], [b, c], [a], []⟩ := rfl
@[simp] theorem Instr.coreTile_vmin a b c d : Instr.coreOk .tile (.vmin a b c d : Instr) = true := rfl
@[simp] theorem Instr.coreCroft_vmin a b c d : Instr.coreOk .croft (.vmin a b c d : Instr) = false := rfl
@[simp] theorem Instr.stream_vmax a b c d : Instr.stream (.vmax a b c d : Instr) = .C := rfl
@[simp] theorem Instr.uses_vmax a b c d : Instr.uses (.vmax a b c d : Instr) = ⟨[], [], [], [b, c], [a], []⟩ := rfl
@[simp] theorem Instr.coreTile_vmax a b c d : Instr.coreOk .tile (.vmax a b c d : Instr) = true := rfl
@[simp] theorem Instr.coreCroft_vmax a b c d : Instr.coreOk .croft (.vmax a b c d : Instr) = false := rfl
@[simp] theorem Instr.stream_vabs a b c : Instr.stream (.vabs a b c : Instr) = .C := rfl
@[simp] theorem Instr.uses_vabs a b c : Instr.uses (.vabs a b c : Instr) = ⟨[], [], [], [b], [a], []⟩ := rfl
@[simp] theorem Instr.coreTile_vabs a b c : Instr.coreOk .tile (.vabs a b c : Instr) = true := rfl
@[simp] theorem Instr.coreCroft_vabs a b c : Instr.coreOk .croft (.vabs a b c : Instr) = false := rfl
@[simp] theorem Instr.stream_vneg a b c : Instr.stream (.vneg a b c : Instr) = .C := rfl
@[simp] theorem Instr.uses_vneg a b c : Instr.uses (.vneg a b c : Instr) = ⟨[], [], [], [b], [a], []⟩ := rfl
@[simp] theorem Instr.coreTile_vneg a b c : Instr.coreOk .tile (.vneg a b c : Instr) = true := rfl
@[simp] theorem Instr.coreCroft_vneg a b c : Instr.coreOk .croft (.vneg a b c : Instr) = false := rfl
@[simp] theorem Instr.stream_vand a b c d : Instr.stream (.vand a b c d : Instr) = .C := rfl
@[simp] theorem Instr.uses_vand a b c d : Instr.uses (.vand a b c d : Instr) = ⟨[], [], [], [b, c], [a], []⟩ := rfl
@[simp] theorem Instr.coreTile_vand a b c d : Instr.coreOk .tile (.vand a b c d : Instr) = true := rfl
@[simp] theorem Instr.coreCroft_vand a b c d : Instr.coreOk .croft (.vand a b c d : Instr) = false := rfl
@[simp] theorem Instr.stream_vor a b c d : Instr.stream (.vor a b c d : Instr) = .C := rfl
@[simp] theorem Instr.uses_vor a b c d : Instr.uses (.vor a b c d : Instr) = ⟨[], [], [], [b, c], [a], []⟩ := rfl
@[simp] theorem Instr.coreTile_vor a b c d : Instr.coreOk .tile (.vor a b c d : Instr) = true := rfl
@[simp] theorem Instr.coreCroft_vor a b c d : Instr.coreOk .croft (.vor a b c d : Instr) = false := rfl
@[simp] theorem Instr.stream_vxor a b c d : Instr.stream (.vxor a b c d : Instr) = .C := rfl
@[simp] theorem Instr.uses_vxor a b c d : Instr.uses (.vxor a b c d : Instr) = ⟨[], [], [], [b, c], [a], []⟩ := rfl
@[simp] theorem Instr.coreTile_vxor a b c d : Instr.coreOk .tile (.vxor a b c d : Instr) = true := rfl
@[simp] theorem Instr.coreCroft_vxor a b c d : Instr.coreOk .croft (.vxor a b c d : Instr) = false := rfl
@[simp] theorem Instr.stream_vnot a b c : Instr.stream (.vnot a b c : Instr) = .C := rfl
@[simp] theorem Instr.uses_vnot a b c : Instr.uses (.vnot a b c : Instr) = ⟨[], [], [], [b], [a], []⟩ := rfl
@[simp] theorem Instr.coreTile_vnot a b c : Instr.coreOk .tile (.vnot a b c : Instr) = true := rfl
@[simp] theorem Instr.coreCroft_vnot a b c : Instr.coreOk .croft (.vnot a b c : Instr) = false := rfl
@[simp] theorem Instr.stream_vshl a b c d : Instr.stream (.vshl a b c d : Instr) = .C := rfl
@[simp] theorem Instr.uses_vshl a b c d : Instr.uses (.vshl a b c d : Instr) = ⟨[], [], [], [b, c], [a], []⟩ := rfl
@[simp] theorem Instr.coreTile_vshl a b c d : Instr.coreOk .tile (.vshl a b c d : Instr) = true := rfl
@[simp] theorem Instr.coreCroft_vshl a b c d : Instr.coreOk .croft (.vshl a b c d : Instr) = false := rfl
@[simp] theorem Instr.stream_vshr a b c d : Instr.stream (.vshr a b c d : Instr) = .C := rfl
@[simp] theorem Instr.uses_vshr a b c d : Instr.uses (.vshr a b c d : Instr) = ⟨[], [], [], [b, c], [a], []⟩ := rfl
@[simp] theorem Instr.coreTile_vshr a b c d : Instr.coreOk .tile (.vshr a b c d : Instr) = true := rfl
@[simp] theorem Instr.coreCroft_vshr a b c d : Instr.coreOk .croft (.vshr a b c d : Instr) = false := rfl
@[simp] theorem Instr.stream_vadds a b c d : Instr.stream (.vadds a b c d : Instr) = .C := rfl
@[simp] theorem Instr.uses_vadds a b c d : Instr.uses (.vadds a b c d : Instr) = ⟨[], [], [], [b, c], [a], []⟩ := rfl
@[simp] theorem Instr.coreTile_vadds a b c d : Instr.coreOk .tile (.vadds a b c d : Instr) = true := rfl
@[simp] theorem Instr.coreCroft_vadds a b c d : Instr.coreOk .croft (.vadds a b c d : Instr) = false := rfl
@[simp] theorem Instr.stream_vsubs a b c d : Instr.stream (.vsubs a b c d : Instr) = .C := rfl
@[simp] theorem Instr.uses_vsubs a b c d : Instr.uses (.vsubs a b c d : Instr) = ⟨[], [], [], [b, c], [a], []⟩ := rfl
@[simp] theorem Instr.coreTile_vsubs a b c d : Instr.coreOk .tile (.vsubs a b c d : Instr) = true := rfl
@[simp] theorem Instr.coreCroft_vsubs a b c d : Instr.coreOk .croft (.vsubs a b c d : Instr) = false := rfl
@[simp] theorem Instr.stream_vsel a b c d : Instr.stream (.vsel a b c d : Instr) = .C := rfl
@[simp] theorem Instr.uses_vsel a b c d : Instr.uses (.vsel a b c d : Instr) = ⟨[], [], [], [b, c], [], [a]⟩ := rfl
@[simp] theorem Instr.coreTile_vsel a b c d : Instr.coreOk .tile (.vsel a b c d : Instr) = true := rfl
@[simp] theorem Instr.coreCroft_vsel a b c d : Instr.coreOk .croft (.vsel a b c d : Instr) = false := rfl
@[simp] theorem Instr.stream_vdiv a b c d : Instr.stream (.vdiv a b c d : Instr) = .C := rfl
@[simp] theorem Instr.uses_vdiv a b c d : Instr.uses (.vdiv a b c d : Instr) = ⟨[], [], [], [b, c], [a], []⟩ := rfl
@[simp] theorem Instr.coreTile_vdiv a b c d : Instr.coreOk .tile (.vdiv a b c d : Instr) = true := rfl
@[simp] theorem Instr.coreCroft_vdiv a b c d : Instr.coreOk .croft (.vdiv a b c d : Instr) = false := rfl
@[simp] theorem Instr.stream_vrcp a b c : Instr.stream (.vrcp a b c : Instr) = .C := rfl
@[simp] theorem Instr.uses_vrcp a b c : Instr.uses (.vrcp a b c : Instr) = ⟨[], [], [], [b], [a], []⟩ := rfl
@[simp] theorem Instr.coreTile_vrcp a b c : Instr.coreOk .tile (.vrcp a b c : Instr) = true := rfl
@[simp] theorem Instr.coreCroft_vrcp a b c : Instr.coreOk .croft (.vrcp a b c : Instr) = false := rfl
@[simp] theorem Instr.stream_vrsq a b c : Instr.stream (.vrsq a b c : Instr) = .C := rfl
@[simp] theorem Instr.uses_vrsq a b c : Instr.uses (.vrsq a b c : Instr) = ⟨[], [], [], [b], [a], []⟩ := rfl
@[simp] theorem Instr.coreTile_vrsq a b c : Instr.coreOk .tile (.vrsq a b c : Instr) = true := rfl
@[simp] theorem Instr.coreCroft_vrsq a b c : Instr.coreOk .croft (.vrsq a b c : Instr) = false := rfl
@[simp] theorem Instr.stream_vsqrt a b c : Instr.stream (.vsqrt a b c : Instr) = .C := rfl
@[simp] theorem Instr.uses_vsqrt a b c : Instr.uses (.vsqrt a b c : Instr) = ⟨[], [], [], [b], [a], []⟩ := rfl
@[simp] theorem Instr.coreTile_vsqrt a b c : Instr.coreOk .tile (.vsqrt a b c : Instr) = true := rfl
@[simp] theorem Instr.coreCroft_vsqrt a b c : Instr.coreOk .croft (.vsqrt a b c : Instr) = false := rfl
@[simp] theorem Instr.stream_vmov a b c : Instr.stream (.vmov a b c : Instr) = .C := rfl
@[simp] theorem Instr.uses_vmov a b c : Instr.uses (.vmov a b c : Instr) = ⟨[], [], [], [b], [a], []⟩ := rfl
@[simp] theorem Instr.coreTile_vmov a b c : Instr.coreOk .tile (.vmov a b c : Instr) = true := rfl
@[simp] theorem Instr.coreCroft_vmov a b c : Instr.coreOk .croft (.vmov a b c : Instr) = false := rfl
@[simp] theorem Instr.stream_vtrans a b c : Instr.stream (.vtrans a b c : Instr) = .C := rfl
@[simp] theorem Instr.uses_vtrans a b c : Instr.uses (.vtrans a b c : Instr) = ⟨[], [], [], [b], [a], []⟩ := rfl
@[simp] theorem Instr.coreTile_vtrans a b c : Instr.coreOk .tile (.vtrans a b c : Instr) = true := rfl
@[simp] theorem Instr.coreCroft_vtrans a b c : Instr.coreOk .croft (.vtrans a b c : Instr) = false := rfl
@[simp] theorem Instr.stream_vmulh a b c d : Instr.stream (.vmulh a b c d : Instr) = .C := rfl
@[simp] theorem Instr.uses_vmulh a b c d : Instr.uses (.vmulh a b c d : Instr) = ⟨[], [], [], [b, c], [a], []⟩ := rfl
@[simp] theorem Instr.coreTile_vmulh a b c d : Instr.coreOk .tile (.vmulh a b c d : Instr) = true := rfl
@[simp] theorem Instr.coreCroft_vmulh a b c d : Instr.coreOk .croft (.vmulh a b c d : Instr) = false := rfl
@[simp] theorem Instr.stream_vtacc a b c d : Instr.stream (.vtacc a b c d : Instr) = .C := rfl
@[simp] theorem Instr.uses_vtacc a b c d : Instr.uses (.vtacc a b c d : Instr) = ⟨[], [], [], [b, c], [], [a]⟩ := rfl
@[simp] theorem Instr.coreTile_vtacc a b c d : Instr.coreOk .tile (.vtacc a b c d : Instr) = true := rfl
@[simp] theorem Instr.coreCroft_vtacc a b c d : Instr.coreOk .croft (.vtacc a b c d : Instr) = false := rfl
@[simp] theorem Instr.stream_vdot4 a b c d : Instr.stream (.vdot4 a b c d : Instr) = .C := rfl
@[simp] theorem Instr.uses_vdot4 a b c d : Instr.uses (.vdot4 a b c d : Instr) = ⟨[], [], [], [b, c], [], [a]⟩ := rfl
@[simp] theorem Instr.coreTile_vdot4 a b c d : Instr.coreOk .tile (.vdot4 a b c d : Instr) = true := rfl
@[simp] theorem Instr.coreCroft_vdot4 a b c d : Instr.coreOk .croft (.vdot4 a b c d : Instr) = false := rfl
@[simp] theorem Instr.stream_vcmp a b c d e : Instr.stream (.vcmp a b c d e : Instr) = .C := rfl
@[simp] theorem Instr.uses_vcmp a b c d e : Instr.uses (.vcmp a b c d e : Instr) = ⟨[], [], [], [b, c], [a], []⟩ := rfl
@[simp] theorem Instr.coreTile_vcmp a b c d e : Instr.coreOk .tile (.vcmp a b c d e : Instr) = true := rfl
@[simp] theorem Instr.coreCroft_vcmp a b c d e : Instr.coreOk .croft (.vcmp a b c d e : Instr) = false := rfl
@[simp] theorem Instr.stream_vcvt a b c d e f : Instr.stream (.vcvt a b c d e f : Instr) = .C := rfl
@[simp] theorem Instr.uses_vcvt a b c d e f : Instr.uses (.vcvt a b c d e f : Instr) = ⟨[], [], [], [b], [a], []⟩ := rfl
@[simp] theorem Instr.coreTile_vcvt a b c d e f : Instr.coreOk .tile (.vcvt a b c d e f : Instr) = true := rfl
@[simp] theorem Instr.coreCroft_vcvt a b c d e f : Instr.coreOk .croft (.vcvt a b c d e f : Instr) = false := rfl
@[simp] theorem Instr.stream_vrint a b c : Instr.stream (.vrint a b c : Instr) = .C := rfl
@[simp] theorem Instr.uses_vrint a b c : Instr.uses (.vrint a b c : Instr) = ⟨[], [], [], [b], [a], []⟩ := rfl
@[simp] theorem Instr.coreTile_vrint a b c : Instr.coreOk .tile (.vrint a b c : Instr) = true := rfl
@[simp] theorem Instr.coreCroft_vrint a b c : Instr.coreOk .croft (.vrint a b c : Instr) = false := rfl
@[simp] theorem Instr.stream_vfloor a b c : Instr.stream (.vfloor a b c : Instr) = .C := rfl
@[simp] theorem Instr.uses_vfloor a b c : Instr.uses (.vfloor a b c : Instr) = ⟨[], [], [], [b], [a], []⟩ := rfl
@[simp] theorem Instr.coreTile_vfloor a b c : Instr.coreOk .tile (.vfloor a b c : Instr) = true := rfl
@[simp] theorem Instr.coreCroft_vfloor a b c : Instr.coreOk .croft (.vfloor a b c : Instr) = false := rfl
@[simp] theorem Instr.stream_vceil a b c : Instr.stream (.vceil a b c : Instr) = .C := rfl
@[simp] theorem Instr.uses_vceil a b c : Instr.uses (.vceil a b c : Instr) = ⟨[], [], [], [b], [a], []⟩ := rfl
@[simp] theorem Instr.coreTile_vceil a b c : Instr.coreOk .tile (.vceil a b c : Instr) = true := rfl
@[simp] theorem Instr.coreCroft_vceil a b c : Instr.coreOk .croft (.vceil a b c : Instr) = false := rfl
@[simp] theorem Instr.stream_vtrunc a b c : Instr.stream (.vtrunc a b c : Instr) = .C := rfl
@[simp] theorem Instr.uses_vtrunc a b c : Instr.uses (.vtrunc a b c : Instr) = ⟨[], [], [], [b], [a], []⟩ := rfl
@[simp] theorem Instr.coreTile_vtrunc a b c : Instr.coreOk .tile (.vtrunc a b c : Instr) = true := rfl
@[simp] theorem Instr.coreCroft_vtrunc a b c : Instr.coreOk .croft (.vtrunc a b c : Instr) = false := rfl
@[simp] theorem Instr.stream_vrne a b c : Instr.stream (.vrne a b c : Instr) = .C := rfl
@[simp] theorem Instr.uses_vrne a b c : Instr.uses (.vrne a b c : Instr) = ⟨[], [], [], [b], [a], []⟩ := rfl
@[simp] theorem Instr.coreTile_vrne a b c : Instr.coreOk .tile (.vrne a b c : Instr) = true := rfl
@[simp] theorem Instr.coreCroft_vrne a b c : Instr.coreOk .croft (.vrne a b c : Instr) = false := rfl
@[simp] theorem Instr.stream_vexf a b c : Instr.stream (.vexf a b c : Instr) = .C := rfl
@[simp] theorem Instr.uses_vexf a b c : Instr.uses (.vexf a b c : Instr) = ⟨[], [], [], [b], [a], []⟩ := rfl
@[simp] theorem Instr.coreTile_vexf a b c : Instr.coreOk .tile (.vexf a b c : Instr) = true := rfl
@[simp] theorem Instr.coreCroft_vexf a b c : Instr.coreOk .croft (.vexf a b c : Instr) = false := rfl
@[simp] theorem Instr.stream_vinse a b c d : Instr.stream (.vinse a b c d : Instr) = .C := rfl
@[simp] theorem Instr.uses_vinse a b c d : Instr.uses (.vinse a b c d : Instr) = ⟨[], [], [], [b, c], [a], []⟩ := rfl
@[simp] theorem Instr.coreTile_vinse a b c d : Instr.coreOk .tile (.vinse a b c d : Instr) = true := rfl
@[simp] theorem Instr.coreCroft_vinse a b c d : Instr.coreOk .croft (.vinse a b c d : Instr) = false := rfl
@[simp] theorem Instr.stream_vgetexp a b c : Instr.stream (.vgetexp a b c : Instr) = .C := rfl
@[simp] theorem Instr.uses_vgetexp a b c : Instr.uses (.vgetexp a b c : Instr) = ⟨[], [], [], [b], [a], []⟩ := rfl
@[simp] theorem Instr.coreTile_vgetexp a b c : Instr.coreOk .tile (.vgetexp a b c : Instr) = true := rfl
@[simp] theorem Instr.coreCroft_vgetexp a b c : Instr.coreOk .croft (.vgetexp a b c : Instr) = false := rfl
@[simp] theorem Instr.stream_vgetman a b c : Instr.stream (.vgetman a b c : Instr) = .C := rfl
@[simp] theorem Instr.uses_vgetman a b c : Instr.uses (.vgetman a b c : Instr) = ⟨[], [], [], [b], [a], []⟩ := rfl
@[simp] theorem Instr.coreTile_vgetman a b c : Instr.coreOk .tile (.vgetman a b c : Instr) = true := rfl
@[simp] theorem Instr.coreCroft_vgetman a b c : Instr.coreOk .croft (.vgetman a b c : Instr) = false := rfl
@[simp] theorem Instr.stream_vaddS a b c d : Instr.stream (.vaddS a b c d : Instr) = .C := rfl
@[simp] theorem Instr.uses_vaddS a b c d : Instr.uses (.vaddS a b c d : Instr) = ⟨[c], [], [], [b], [a], []⟩ := rfl
@[simp] theorem Instr.coreTile_vaddS a b c d : Instr.coreOk .tile (.vaddS a b c d : Instr) = true := rfl
@[simp] theorem Instr.coreCroft_vaddS a b c d : Instr.coreOk .croft (.vaddS a b c d : Instr) = false := rfl
@[simp] theorem Instr.stream_vsubS a b c d : Instr.stream (.vsubS a b c d : Instr) = .C := rfl
@[simp] theorem Instr.uses_vsubS a b c d : Instr.uses (.vsubS a b c d : Instr) = ⟨[c], [], [], [b], [a], []⟩ := rfl
@[simp] theorem Instr.coreTile_vsubS a b c d : Instr.coreOk .tile (.vsubS a b c d : Instr) = true := rfl
@[simp] theorem Instr.coreCroft_vsubS a b c d : Instr.coreOk .croft (.vsubS a b c d : Instr) = false := rfl
@[simp] theorem Instr.stream_vmulS a b c d : Instr.stream (.vmulS a b c d : Instr) = .C := rfl
@[simp] theorem Instr.uses_vmulS a b c d : Instr.uses (.vmulS a b c d : Instr) = ⟨[c], [], [], [b], [a], []⟩ := rfl
@[simp] theorem Instr.coreTile_vmulS a b c d : Instr.coreOk .tile (.vmulS a b c d : Instr) = true := rfl
@[simp] theorem Instr.coreCroft_vmulS a b c d : Instr.coreOk .croft (.vmulS a b c d : Instr) = false := rfl
@[simp] theorem Instr.stream_vmlaS a b c d : Instr.stream (.vmlaS a b c d : Instr) = .C := rfl
@[simp] theorem Instr.uses_vmlaS a b c d : Instr.uses (.vmlaS a b c d : Instr) = ⟨[c], [], [], [b], [], [a]⟩ := rfl
@[simp] theorem Instr.coreTile_vmlaS a b c d : Instr.coreOk .tile (.vmlaS a b c d : Instr) = true := rfl
@[simp] theorem Instr.coreCroft_vmlaS a b c d : Instr.coreOk .croft (.vmlaS a b c d : Instr) = false := rfl
@[simp] theorem Instr.stream_vminS a b c d : Instr.stream (.vminS a b c d : Instr) = .C := rfl
@[simp] theorem Instr.uses_vminS a b c d : Instr.uses (.vminS a b c d : Instr) = ⟨[c], [], [], [b], [a], []⟩ := rfl
@[simp] theorem Instr.coreTile_vminS a b c d : Instr.coreOk .tile (.vminS a b c d : Instr) = true := rfl
@[simp] theorem Instr.coreCroft_vminS a b c d : Instr.coreOk .croft (.vminS a b c d : Instr) = false := rfl
@[simp] theorem Instr.stream_vmaxS a b c d : Instr.stream (.vmaxS a b c d : Instr) = .C := rfl
@[simp] theorem Instr.uses_vmaxS a b c d : Instr.uses (.vmaxS a b c d : Instr) = ⟨[c], [], [], [b], [a], []⟩ := rfl
@[simp] theorem Instr.coreTile_vmaxS a b c d : Instr.coreOk .tile (.vmaxS a b c d : Instr) = true := rfl
@[simp] theorem Instr.coreCroft_vmaxS a b c d : Instr.coreOk .croft (.vmaxS a b c d : Instr) = false := rfl
@[simp] theorem Instr.stream_vbcast a b c : Instr.stream (.vbcast a b c : Instr) = .C := rfl
@[simp] theorem Instr.uses_vbcast a b c : Instr.uses (.vbcast a b c : Instr) = ⟨[b], [], [], [], [a], []⟩ := rfl
@[simp] theorem Instr.coreTile_vbcast a b c : Instr.coreOk .tile (.vbcast a b c : Instr) = true := rfl
@[simp] theorem Instr.coreCroft_vbcast a b c : Instr.coreOk .croft (.vbcast a b c : Instr) = false := rfl
@[simp] theorem Instr.stream_vshlS a b c d : Instr.stream (.vshlS a b c d : Instr) = .C := rfl
@[simp] theorem Instr.uses_vshlS a b c d : Instr.uses (.vshlS a b c d : Instr) = ⟨[c], [], [], [b], [a], []⟩ := rfl
@[simp] theorem Instr.coreTile_vshlS a b c d : Instr.coreOk .tile (.vshlS a b c d : Instr) = true := rfl
@[simp] theorem Instr.coreCroft_vshlS a b c d : Instr.coreOk .croft (.vshlS a b c d : Instr) = false := rfl
@[simp] theorem Instr.stream_vshrS a b c d : Instr.stream (.vshrS a b c d : Instr) = .C := rfl
@[simp] theorem Instr.uses_vshrS a b c d : Instr.uses (.vshrS a b c d : Instr) = ⟨[c], [], [], [b], [a], []⟩ := rfl
@[simp] theorem Instr.coreTile_vshrS a b c d : Instr.coreOk .tile (.vshrS a b c d : Instr) = true := rfl
@[simp] theorem Instr.coreCroft_vshrS a b c d : Instr.coreOk .croft (.vshrS a b c d : Instr) = false := rfl
@[simp] theorem Instr.stream_vredsum a b c d : Instr.stream (.vredsum a b c d : Instr) = .C := rfl
@[simp] theorem Instr.uses_vredsum a b c d : Instr.uses (.vredsum a b c d : Instr) = ⟨[], [], [], [b], [a], []⟩ := rfl
@[simp] theorem Instr.coreTile_vredsum a b c d : Instr.coreOk .tile (.vredsum a b c d : Instr) = true := rfl
@[simp] theorem Instr.coreCroft_vredsum a b c d : Instr.coreOk .croft (.vredsum a b c d : Instr) = false := rfl
@[simp] theorem Instr.stream_vredmax a b c d : Instr.stream (.vredmax a b c d : Instr) = .C := rfl
@[simp] theorem Instr.uses_vredmax a b c d : Instr.uses (.vredmax a b c d : Instr) = ⟨[], [], [], [b], [a], []⟩ := rfl
@[simp] theorem Instr.coreTile_vredmax a b c d : Instr.coreOk .tile (.vredmax a b c d : Instr) = true := rfl
@[simp] theorem Instr.coreCroft_vredmax a b c d : Instr.coreOk .croft (.vredmax a b c d : Instr) = false := rfl
@[simp] theorem Instr.stream_vredmin a b c d : Instr.stream (.vredmin a b c d : Instr) = .C := rfl
@[simp] theorem Instr.uses_vredmin a b c d : Instr.uses (.vredmin a b c d : Instr) = ⟨[], [], [], [b], [a], []⟩ := rfl
@[simp] theorem Instr.coreTile_vredmin a b c d : Instr.coreOk .tile (.vredmin a b c d : Instr) = true := rfl
@[simp] theorem Instr.coreCroft_vredmin a b c d : Instr.coreOk .croft (.vredmin a b c d : Instr) = false := rfl
@[simp] theorem Instr.stream_vrot a b c d : Instr.stream (.vrot a b c d : Instr) = .C := rfl
@[simp] theorem Instr.uses_vrot a b c d : Instr.uses (.vrot a b c d : Instr) = ⟨[], [], [], [b], [a], [c]⟩ := rfl
@[simp] theorem Instr.coreTile_vrot a b c d : Instr.coreOk .tile (.vrot a b c d : Instr) = true := rfl
@[simp] theorem Instr.coreCroft_vrot a b c d : Instr.coreOk .croft (.vrot a b c d : Instr) = false := rfl
@[simp] theorem Instr.stream_vperm a b c d : Instr.stream (.vperm a b c d : Instr) = .C := rfl
@[simp] theorem Instr.uses_vperm a b c d : Instr.uses (.vperm a b c d : Instr) = ⟨[], [], [], [b], [a], [c]⟩ := rfl
@[simp] theorem Instr.coreTile_vperm a b c d : Instr.coreOk .tile (.vperm a b c d : Instr) = true := rfl
@[simp] theorem Instr.coreCroft_vperm a b c d : Instr.coreOk .croft (.vperm a b c d : Instr) = false := rfl
@[simp] theorem Instr.stream_vunp3 a b : Instr.stream (.vunp3 a b : Instr) = .C := rfl
@[simp] theorem Instr.uses_vunp3 a b : Instr.uses (.vunp3 a b : Instr) = ⟨[], [], [], [b], [a], []⟩ := rfl
@[simp] theorem Instr.coreTile_vunp3 a b : Instr.coreOk .tile (.vunp3 a b : Instr) = true := rfl
@[simp] theorem Instr.coreCroft_vunp3 a b : Instr.coreOk .croft (.vunp3 a b : Instr) = false := rfl
@[simp] theorem Instr.stream_vunp4 a b : Instr.stream (.vunp4 a b : Instr) = .C := rfl
@[simp] theorem Instr.uses_vunp4 a b : Instr.uses (.vunp4 a b : Instr) = ⟨[], [], [], [b], [a], []⟩ := rfl
@[simp] theorem Instr.coreTile_vunp4 a b : Instr.coreOk .tile (.vunp4 a b : Instr) = true := rfl
@[simp] theorem Instr.coreCroft_vunp4 a b : Instr.coreOk .croft (.vunp4 a b : Instr) = false := rfl
@[simp] theorem Instr.stream_vunp3i a b : Instr.stream (.vunp3i a b : Instr) = .C := rfl
@[simp] theorem Instr.uses_vunp3i a b : Instr.uses (.vunp3i a b : Instr) = ⟨[], [], [], [b], [a], []⟩ := rfl
@[simp] theorem Instr.coreTile_vunp3i a b : Instr.coreOk .tile (.vunp3i a b : Instr) = true := rfl
@[simp] theorem Instr.coreCroft_vunp3i a b : Instr.coreOk .croft (.vunp3i a b : Instr) = false := rfl
@[simp] theorem Instr.stream_vpack4 a b : Instr.stream (.vpack4 a b : Instr) = .C := rfl
@[simp] theorem Instr.uses_vpack4 a b : Instr.uses (.vpack4 a b : Instr) = ⟨[], [], [], [b], [a], []⟩ := rfl
@[simp] theorem Instr.coreTile_vpack4 a b : Instr.coreOk .tile (.vpack4 a b : Instr) = true := rfl
@[simp] theorem Instr.coreCroft_vpack4 a b : Instr.coreOk .croft (.vpack4 a b : Instr) = false := rfl
@[simp] theorem Instr.stream_vpack3 a b : Instr.stream (.vpack3 a b : Instr) = .C := rfl
@[simp] theorem Instr.uses_vpack3 a b : Instr.uses (.vpack3 a b : Instr) = ⟨[], [], [], [b], [a], []⟩ := rfl
@[simp] theorem Instr.coreTile_vpack3 a b : Instr.coreOk .tile (.vpack3 a b : Instr) = true := rfl
@[simp] theorem Instr.coreCroft_vpack3 a b : Instr.coreOk .croft (.vpack3 a b : Instr) = false := rfl
@[simp] theorem Instr.stream_vzip a b c d : Instr.stream (.vzip a b c d : Instr) = .C := rfl
@[simp] theorem Instr.uses_vzip a b c d : Instr.uses (.vzip a b c d : Instr) = ⟨[], [], [], [b, c], [a], []⟩ := rfl
@[simp] theorem Instr.coreTile_vzip a b c d : Instr.coreOk .tile (.vzip a b c d : Instr) = true := rfl
@[simp] theorem Instr.coreCroft_vzip a b c d : Instr.coreOk .croft (.vzip a b c d : Instr) = false := rfl
@[simp] theorem Instr.stream_vunzip a b c : Instr.stream (.vunzip a b c : Instr) = .C := rfl
@[simp] theorem Instr.uses_vunzip a b c : Instr.uses (.vunzip a b c : Instr) = ⟨[], [], [], [b], [a], []⟩ := rfl
@[simp] theorem Instr.coreTile_vunzip a b c : Instr.coreOk .tile (.vunzip a b c : Instr) = true := rfl
@[simp] theorem Instr.coreCroft_vunzip a b c : Instr.coreOk .croft (.vunzip a b c : Instr) = false := rfl
@[simp] theorem Instr.stream_vsplat a b c : Instr.stream (.vsplat a b c : Instr) = .C := rfl
@[simp] theorem Instr.uses_vsplat a b c : Instr.uses (.vsplat a b c : Instr) = ⟨[], [], [], [], [a], []⟩ := rfl
@[simp] theorem Instr.coreTile_vsplat a b c : Instr.coreOk .tile (.vsplat a b c : Instr) = true := rfl
@[simp] theorem Instr.coreCroft_vsplat a b c : Instr.coreOk .croft (.vsplat a b c : Instr) = false := rfl
@[simp] theorem Instr.stream_mma a b c d : Instr.stream (.mma a b c d : Instr) = .C := rfl
@[simp] theorem Instr.uses_mma a b c d : Instr.uses (.mma a b c d : Instr) = ⟨[b, c, d], [], [], [], [], []⟩ := rfl
@[simp] theorem Instr.coreTile_mma a b c d : Instr.coreOk .tile (.mma a b c d : Instr) = true := rfl
@[simp] theorem Instr.coreCroft_mma a b c d : Instr.coreOk .croft (.mma a b c d : Instr) = false := rfl
@[simp] theorem Instr.stream_mmaZ a b c d : Instr.stream (.mmaZ a b c d : Instr) = .C := rfl
@[simp] theorem Instr.uses_mmaZ a b c d : Instr.uses (.mmaZ a b c d : Instr) = ⟨[b, c, d], [], [], [], [], []⟩ := rfl
@[simp] theorem Instr.coreTile_mmaZ a b c d : Instr.coreOk .tile (.mmaZ a b c d : Instr) = true := rfl
@[simp] theorem Instr.coreCroft_mmaZ a b c d : Instr.coreOk .croft (.mmaZ a b c d : Instr) = false := rfl
@[simp] theorem Instr.stream_mmaT a b c d : Instr.stream (.mmaT a b c d : Instr) = .C := rfl
@[simp] theorem Instr.uses_mmaT a b c d : Instr.uses (.mmaT a b c d : Instr) = ⟨[b, c, d], [], [], [], [], []⟩ := rfl
@[simp] theorem Instr.coreTile_mmaT a b c d : Instr.coreOk .tile (.mmaT a b c d : Instr) = true := rfl
@[simp] theorem Instr.coreCroft_mmaT a b c d : Instr.coreOk .croft (.mmaT a b c d : Instr) = false := rfl
@[simp] theorem Instr.stream_mmaTz a b c d : Instr.stream (.mmaTz a b c d : Instr) = .C := rfl
@[simp] theorem Instr.uses_mmaTz a b c d : Instr.uses (.mmaTz a b c d : Instr) = ⟨[b, c, d], [], [], [], [], []⟩ := rfl
@[simp] theorem Instr.coreTile_mmaTz a b c d : Instr.coreOk .tile (.mmaTz a b c d : Instr) = true := rfl
@[simp] theorem Instr.coreCroft_mmaTz a b c d : Instr.coreOk .croft (.mmaTz a b c d : Instr) = false := rfl
@[simp] theorem Instr.stream_mzero a : Instr.stream (.mzero a : Instr) = .C := rfl
@[simp] theorem Instr.uses_mzero a : Instr.uses (.mzero a : Instr) = ⟨[], [], [], [], [], []⟩ := rfl
@[simp] theorem Instr.coreTile_mzero a : Instr.coreOk .tile (.mzero a : Instr) = true := rfl
@[simp] theorem Instr.coreCroft_mzero a : Instr.coreOk .croft (.mzero a : Instr) = false := rfl
@[simp] theorem Instr.stream_mrd a b c : Instr.stream (.mrd a b c : Instr) = .C := rfl
@[simp] theorem Instr.uses_mrd a b c : Instr.uses (.mrd a b c : Instr) = ⟨[b, c], [], [], [], [], []⟩ := rfl
@[simp] theorem Instr.coreTile_mrd a b c : Instr.coreOk .tile (.mrd a b c : Instr) = true := rfl
@[simp] theorem Instr.coreCroft_mrd a b c : Instr.coreOk .croft (.mrd a b c : Instr) = false := rfl
@[simp] theorem Instr.stream_mwr a b c : Instr.stream (.mwr a b c : Instr) = .C := rfl
@[simp] theorem Instr.uses_mwr a b c : Instr.uses (.mwr a b c : Instr) = ⟨[b, c], [], [], [], [], []⟩ := rfl
@[simp] theorem Instr.coreTile_mwr a b c : Instr.coreOk .tile (.mwr a b c : Instr) = true := rfl
@[simp] theorem Instr.coreCroft_mwr a b c : Instr.coreOk .croft (.mwr a b c : Instr) = false := rfl
@[simp] theorem Instr.stream_mscl a b c d : Instr.stream (.mscl a b c d : Instr) = .C := rfl
@[simp] theorem Instr.uses_mscl a b c d : Instr.uses (.mscl a b c d : Instr) = ⟨[b, c, d], [], [], [], [], []⟩ := rfl
@[simp] theorem Instr.coreTile_mscl a b c d : Instr.coreOk .tile (.mscl a b c d : Instr) = true := rfl
@[simp] theorem Instr.coreCroft_mscl a b c d : Instr.coreOk .croft (.mscl a b c d : Instr) = false := rfl
@[simp] theorem Instr.stream_smma a b c d : Instr.stream (.smma a b c d : Instr) = .C := rfl
@[simp] theorem Instr.uses_smma a b c d : Instr.uses (.smma a b c d : Instr) = ⟨[b, c, d], [], [], [], [], []⟩ := rfl
@[simp] theorem Instr.coreTile_smma a b c d : Instr.coreOk .tile (.smma a b c d : Instr) = true := rfl
@[simp] theorem Instr.coreCroft_smma a b c d : Instr.coreOk .croft (.smma a b c d : Instr) = false := rfl
@[simp] theorem Instr.stream_smmaZ a b c d : Instr.stream (.smmaZ a b c d : Instr) = .C := rfl
@[simp] theorem Instr.uses_smmaZ a b c d : Instr.uses (.smmaZ a b c d : Instr) = ⟨[b, c, d], [], [], [], [], []⟩ := rfl
@[simp] theorem Instr.coreTile_smmaZ a b c d : Instr.coreOk .tile (.smmaZ a b c d : Instr) = true := rfl
@[simp] theorem Instr.coreCroft_smmaZ a b c d : Instr.coreOk .croft (.smmaZ a b c d : Instr) = false := rfl
@[simp] theorem Instr.stream_smmaB a b c d : Instr.stream (.smmaB a b c d : Instr) = .C := rfl
@[simp] theorem Instr.uses_smmaB a b c d : Instr.uses (.smmaB a b c d : Instr) = ⟨[b, c, d], [], [], [], [], []⟩ := rfl
@[simp] theorem Instr.coreTile_smmaB a b c d : Instr.coreOk .tile (.smmaB a b c d : Instr) = true := rfl
@[simp] theorem Instr.coreCroft_smmaB a b c d : Instr.coreOk .croft (.smmaB a b c d : Instr) = false := rfl
@[simp] theorem Instr.stream_attnQk a b c d : Instr.stream (.attnQk a b c d : Instr) = .C := rfl
@[simp] theorem Instr.uses_attnQk a b c d : Instr.uses (.attnQk a b c d : Instr) = ⟨[b, c, d], [], [], [], [], []⟩ := rfl
@[simp] theorem Instr.coreTile_attnQk a b c d : Instr.coreOk .tile (.attnQk a b c d : Instr) = true := rfl
@[simp] theorem Instr.coreCroft_attnQk a b c d : Instr.coreOk .croft (.attnQk a b c d : Instr) = false := rfl
@[simp] theorem Instr.stream_attnSm a b : Instr.stream (.attnSm a b : Instr) = .C := rfl
@[simp] theorem Instr.uses_attnSm a b : Instr.uses (.attnSm a b : Instr) = ⟨[b], [], [], [], [], []⟩ := rfl
@[simp] theorem Instr.coreTile_attnSm a b : Instr.coreOk .tile (.attnSm a b : Instr) = true := rfl
@[simp] theorem Instr.coreCroft_attnSm a b : Instr.coreOk .croft (.attnSm a b : Instr) = false := rfl
@[simp] theorem Instr.stream_attnPv a b c : Instr.stream (.attnPv a b c : Instr) = .C := rfl
@[simp] theorem Instr.uses_attnPv a b c : Instr.uses (.attnPv a b c : Instr) = ⟨[b, c], [], [], [], [], []⟩ := rfl
@[simp] theorem Instr.coreTile_attnPv a b c : Instr.coreOk .tile (.attnPv a b c : Instr) = true := rfl
@[simp] theorem Instr.coreCroft_attnPv a b c : Instr.coreOk .croft (.attnPv a b c : Instr) = false := rfl
@[simp] theorem Instr.stream_attnFin a b : Instr.stream (.attnFin a b : Instr) = .C := rfl
@[simp] theorem Instr.uses_attnFin a b : Instr.uses (.attnFin a b : Instr) = ⟨[b], [], [], [], [], []⟩ := rfl
@[simp] theorem Instr.coreTile_attnFin a b : Instr.coreOk .tile (.attnFin a b : Instr) = true := rfl
@[simp] theorem Instr.coreCroft_attnFin a b : Instr.coreOk .croft (.attnFin a b : Instr) = false := rfl
@[simp] theorem Instr.stream_attnStep a b c d : Instr.stream (.attnStep a b c d : Instr) = .C := rfl
@[simp] theorem Instr.uses_attnStep a b c d : Instr.uses (.attnStep a b c d : Instr) = ⟨[b, c, d], [], [], [], [], []⟩ := rfl
@[simp] theorem Instr.coreTile_attnStep a b c d : Instr.coreOk .tile (.attnStep a b c d : Instr) = true := rfl
@[simp] theorem Instr.coreCroft_attnStep a b c d : Instr.coreOk .croft (.attnStep a b c d : Instr) = false := rfl
@[simp] theorem Instr.stream_ppop a b c : Instr.stream (.ppop a b c : Instr) = .A := rfl
@[simp] theorem Instr.uses_ppop a b c : Instr.uses (.ppop a b c : Instr) = ⟨[], [a, b, c], [], [], [], []⟩ := rfl
@[simp] theorem Instr.coreTile_ppop a b c : Instr.coreOk .tile (.ppop a b c : Instr) = true := rfl
@[simp] theorem Instr.coreCroft_ppop a b c : Instr.coreOk .croft (.ppop a b c : Instr) = false := rfl
@[simp] theorem Instr.stream_ppopNb a b c : Instr.stream (.ppopNb a b c : Instr) = .A := rfl
@[simp] theorem Instr.uses_ppopNb a b c : Instr.uses (.ppopNb a b c : Instr) = ⟨[], [a, b, c], [], [], [], []⟩ := rfl
@[simp] theorem Instr.coreTile_ppopNb a b c : Instr.coreOk .tile (.ppopNb a b c : Instr) = true := rfl
@[simp] theorem Instr.coreCroft_ppopNb a b c : Instr.coreOk .croft (.ppopNb a b c : Instr) = false := rfl
@[simp] theorem Instr.stream_steal a b c : Instr.stream (.steal a b c : Instr) = .A := rfl
@[simp] theorem Instr.uses_steal a b c : Instr.uses (.steal a b c : Instr) = ⟨[], [a, b], [c], [], [], []⟩ := rfl
@[simp] theorem Instr.coreTile_steal a b c : Instr.coreOk .tile (.steal a b c : Instr) = true := rfl
@[simp] theorem Instr.coreCroft_steal a b c : Instr.coreOk .croft (.steal a b c : Instr) = false := rfl
@[simp] theorem Instr.stream_ppush a b c : Instr.stream (.ppush a b c : Instr) = .A := rfl
@[simp] theorem Instr.uses_ppush a b c : Instr.uses (.ppush a b c : Instr) = ⟨[b, c], [], [a], [], [], []⟩ := rfl
@[simp] theorem Instr.coreTile_ppush a b c : Instr.coreOk .tile (.ppush a b c : Instr) = true := rfl
@[simp] theorem Instr.coreCroft_ppush a b c : Instr.coreOk .croft (.ppush a b c : Instr) = false := rfl
@[simp] theorem Instr.stream_rule a b c : Instr.stream (.rule a b c : Instr) = .A := rfl
@[simp] theorem Instr.uses_rule a b c : Instr.uses (.rule a b c : Instr) = ⟨[b, c], [a], [], [], [], []⟩ := rfl
@[simp] theorem Instr.coreTile_rule a b c : Instr.coreOk .tile (.rule a b c : Instr) = true := rfl
@[simp] theorem Instr.coreCroft_rule a b c : Instr.coreOk .croft (.rule a b c : Instr) = false := rfl
@[simp] theorem Instr.stream_rewr a b c : Instr.stream (.rewr a b c : Instr) = .A := rfl
@[simp] theorem Instr.uses_rewr a b c : Instr.uses (.rewr a b c : Instr) = ⟨[a, b, c], [], [], [], [], []⟩ := rfl
@[simp] theorem Instr.coreTile_rewr a b c : Instr.coreOk .tile (.rewr a b c : Instr) = true := rfl
@[simp] theorem Instr.coreCroft_rewr a b c : Instr.coreOk .croft (.rewr a b c : Instr) = false := rfl
@[simp] theorem Instr.stream_rcall a b c : Instr.stream (.rcall a b c : Instr) = .A := rfl
@[simp] theorem Instr.uses_rcall a b c : Instr.uses (.rcall a b c : Instr) = ⟨[a, b, c], [], [], [], [], []⟩ := rfl
@[simp] theorem Instr.coreTile_rcall a b c : Instr.coreOk .tile (.rcall a b c : Instr) = true := rfl
@[simp] theorem Instr.coreCroft_rcall a b c : Instr.coreOk .croft (.rcall a b c : Instr) = false := rfl
@[simp] theorem Instr.stream_rgroup a b c : Instr.stream (.rgroup a b c : Instr) = .A := rfl
@[simp] theorem Instr.uses_rgroup a b c : Instr.uses (.rgroup a b c : Instr) = ⟨[a, b, c], [], [], [], [], []⟩ := rfl
@[simp] theorem Instr.coreTile_rgroup a b c : Instr.coreOk .tile (.rgroup a b c : Instr) = true := rfl
@[simp] theorem Instr.coreCroft_rgroup a b c : Instr.coreOk .croft (.rgroup a b c : Instr) = false := rfl
@[simp] theorem Instr.stream_nalloc a b c : Instr.stream (.nalloc a b c : Instr) = .A := rfl
@[simp] theorem Instr.uses_nalloc a b c : Instr.uses (.nalloc a b c : Instr) = ⟨[b, c], [a], [], [], [], []⟩ := rfl
@[simp] theorem Instr.coreTile_nalloc a b c : Instr.coreOk .tile (.nalloc a b c : Instr) = true := rfl
@[simp] theorem Instr.coreCroft_nalloc a b c : Instr.coreOk .croft (.nalloc a b c : Instr) = false := rfl
@[simp] theorem Instr.stream_nfree a b : Instr.stream (.nfree a b : Instr) = .A := rfl
@[simp] theorem Instr.uses_nfree a b : Instr.uses (.nfree a b : Instr) = ⟨[a, b], [], [], [], [], []⟩ := rfl
@[simp] theorem Instr.coreTile_nfree a b : Instr.coreOk .tile (.nfree a b : Instr) = true := rfl
@[simp] theorem Instr.coreCroft_nfree a b : Instr.coreOk .croft (.nfree a b : Instr) = false := rfl
@[simp] theorem Instr.stream_mext a b : Instr.stream (.mext a b : Instr) = .A := rfl
@[simp] theorem Instr.uses_mext a b : Instr.uses (.mext a b : Instr) = ⟨[a, b], [], [], [], [], []⟩ := rfl
@[simp] theorem Instr.coreTile_mext a b : Instr.coreOk .tile (.mext a b : Instr) = false := rfl
@[simp] theorem Instr.coreCroft_mext a b : Instr.coreOk .croft (.mext a b : Instr) = true := rfl
@[simp] theorem Instr.stream_mget a b : Instr.stream (.mget a b : Instr) = .A := rfl
@[simp] theorem Instr.uses_mget a b : Instr.uses (.mget a b : Instr) = ⟨[a, b], [], [], [], [], []⟩ := rfl
@[simp] theorem Instr.coreTile_mget a b : Instr.coreOk .tile (.mget a b : Instr) = false := rfl
@[simp] theorem Instr.coreCroft_mget a b : Instr.coreOk .croft (.mget a b : Instr) = true := rfl
@[simp] theorem Instr.stream_mlock a : Instr.stream (.mlock a : Instr) = .A := rfl
@[simp] theorem Instr.uses_mlock a : Instr.uses (.mlock a : Instr) = ⟨[a], [], [], [], [], []⟩ := rfl
@[simp] theorem Instr.coreTile_mlock a : Instr.coreOk .tile (.mlock a : Instr) = false := rfl
@[simp] theorem Instr.coreCroft_mlock a : Instr.coreOk .croft (.mlock a : Instr) = true := rfl
@[simp] theorem Instr.stream_cfgrd a b : Instr.stream (.cfgrd a b : Instr) = .A := rfl
@[simp] theorem Instr.uses_cfgrd a b : Instr.uses (.cfgrd a b : Instr) = ⟨[b], [a], [], [], [], []⟩ := rfl
@[simp] theorem Instr.coreTile_cfgrd a b : Instr.coreOk .tile (.cfgrd a b : Instr) = false := rfl
@[simp] theorem Instr.coreCroft_cfgrd a b : Instr.coreOk .croft (.cfgrd a b : Instr) = true := rfl
@[simp] theorem Instr.stream_cfgwr a b : Instr.stream (.cfgwr a b : Instr) = .A := rfl
@[simp] theorem Instr.uses_cfgwr a b : Instr.uses (.cfgwr a b : Instr) = ⟨[a, b], [], [], [], [], []⟩ := rfl
@[simp] theorem Instr.coreTile_cfgwr a b : Instr.coreOk .tile (.cfgwr a b : Instr) = false := rfl
@[simp] theorem Instr.coreCroft_cfgwr a b : Instr.coreOk .croft (.cfgwr a b : Instr) = true := rfl
@[simp] theorem Instr.stream_fret : Instr.stream (.fret : Instr) = .A := rfl
@[simp] theorem Instr.uses_fret : Instr.uses (.fret : Instr) = ⟨[], [], [], [], [], []⟩ := rfl
@[simp] theorem Instr.coreTile_fret : Instr.coreOk .tile (.fret : Instr) = false := rfl
@[simp] theorem Instr.coreCroft_fret : Instr.coreOk .croft (.fret : Instr) = true := rfl

end Sys2Proof
end

