-- ==== Sys2Proof/Laws/Ops.lean ====
section
/-! SUPPORT. What the shared forms of a meaning answer: the frame of a word, its parts, the issue rule, and the results
of the scalar forms. -/

namespace Sys2Proof.Machine

/-! ## Results and their sequence -/

@[simp] theorem Try.ok_bind {α β : Type} (a : α) (f : α → Try β) : ((Except.ok a : Try α) >>= f) = f a := rfl
@[simp] theorem Try.error_bind {α β : Type} (e : Stop) (f : α → Try β) :
    ((Except.error e : Try α) >>= f) = .error e := rfl

/-- A sequence answers a value just when its first part does and the rest does from there. -/
theorem Try.bind_ok {α β : Type} {x : Try α} {f : α → Try β} {b : β} :
    (x >>= f) = .ok b ↔ ∃ a, x = .ok a ∧ f a = .ok b := by
  cases x with
  | ok a => simp
  | error e => simp

@[simp] theorem need_true (code : Code) (d a : Word) : need true code d a = .ok () := rfl
@[simp] theorem need_false (code : Code) (d a : Word) :
    need false code d a = .error (.trap { code := code, detail := d, addr := a }) := rfl
@[simp] theorem await_true (k : WaitKind) : await true k = .ok () := rfl
@[simp] theorem await_false (k : WaitKind) : await false k = .error (.wait k) := rfl

theorem need_ok {b : Bool} {code : Code} {d a : Word} {u : Unit} : need b code d a = .ok u ↔ b = true := by
  cases b <;> simp [need, trapWith]
theorem await_ok {b : Bool} {k : WaitKind} {u : Unit} : await b k = .ok u ↔ b = true := by
  cases b <;> simp [await]

/-! ## The frame of a word -/

/-- A word that issues and whose own effect answers `t` goes on from `t`. -/
theorem word_next {i : Instr} {s t : State} {body : State → Try State} (h0 : s.issue i = .ok ()) (h : body s = .ok t) :
    word i s body = .next (t.retire i.stream) := by
  simp only [word, h0, Try.ok_bind, h, conclude]

/-- A word that issues and whose own effect traps raises the trap from the state it met. -/
theorem word_trap {i : Instr} {s : State} {body : State → Try State} {x : Trap} (h0 : s.issue i = .ok ())
    (h : body s = .error (.trap x)) : word i s body = .next (s.raise i.stream x) := by
  simp only [word, h0, Try.ok_bind, h, Try.error_bind, conclude]

/-- A word that issues and whose own effect waits leaves the wait alone. -/
theorem word_wait {i : Instr} {s : State} {body : State → Try State} {k : WaitKind} (h0 : s.issue i = .ok ())
    (h : body s = .error (.wait k)) : word i s body = .next (s.block i k) := by
  simp only [word, h0, Try.ok_bind, h, Try.error_bind, conclude]

/-- A word that does not issue has none of its effect. -/
theorem word_stopped {i : Instr} {s : State} {body : State → Try State} {e : Stop} (h0 : s.issue i = .error e) :
    word i s body = conclude s i (.error e) := by
  simp only [word, h0, Try.error_bind]

theorem wordTo_next {i : Instr} {s t : State} {body : State → Try State} (h0 : s.issue i = .ok ())
    (h : body s = .ok t) : wordTo i s body = .next t := by
  simp only [wordTo, h0, Try.ok_bind, h, conclude]
theorem wordTo_trap {i : Instr} {s : State} {body : State → Try State} {x : Trap} (h0 : s.issue i = .ok ())
    (h : body s = .error (.trap x)) : wordTo i s body = .next (s.raise i.stream x) := by
  simp only [wordTo, h0, Try.ok_bind, h, conclude]
theorem wordTo_wait {i : Instr} {s : State} {body : State → Try State} {k : WaitKind} (h0 : s.issue i = .ok ())
    (h : body s = .error (.wait k)) : wordTo i s body = .next (s.block i k) := by
  simp only [wordTo, h0, Try.ok_bind, h, conclude]
theorem wordTo_goto {i : Instr} {s t : State} {body : State → Try State} (h0 : s.issue i = .ok ())
    (h : body s = .error (.goto t)) : wordTo i s body = .next t := by
  simp only [wordTo, h0, Try.ok_bind, h, conclude]
theorem wordTo_stopped {i : Instr} {s : State} {body : State → Try State} {e : Stop} (h0 : s.issue i = .error e) :
    wordTo i s body = conclude s i (.error e) := by
  simp only [wordTo, h0, Try.error_bind]

/-! ## The issue rule -/

theorem here_tile {s : State} {site slot : Nat} {m : Stream} {c : Ctx} (ht : s.turn = .tile site slot m)
    (hc : s.ctx? site slot = some c) : s.here = .ok (site, slot, c) := by
  simp only [State.here, ht, hc]

/-- On a tile a word issues just when the tile has it and its queues and ports are ready. -/
theorem issue_tile {s : State} {i : Instr} {site slot : Nat} {m : Stream} {c : Ctx} (ht : s.turn = .tile site slot m)
    (hc : s.ctx? site slot = some c) :
    s.issue i = .ok () ↔ i.coreOk .tile = true ∧ classOk (siteClass site) i = true ∧
      readyFor (s.tile site) slot c i.uses = true := by
  simp only [State.issue, ht, hc, Try.bind_ok, need_ok, await_ok]
  constructor
  · rintro ⟨_, h1, _, h2, h3⟩
    exact ⟨h1, h2, h3⟩
  · rintro ⟨h1, h2, h3⟩
    exact ⟨(), h1, (), h2, h3⟩

/-- On a Croft core a word issues just when the core has it. -/
theorem issue_croft {s : State} {i : Instr} {n : Nat} (ht : s.turn = .croft n) :
    s.issue i = .ok () ↔ i.coreOk .croft = true := by
  simp only [State.issue, ht, need_ok]

/-- A class instruction or bank that the tile does not have raises ILLCLASS. -/
theorem issue_class {s : State} {i : Instr} {site slot : Nat} {m : Stream} {c : Ctx} (ht : s.turn = .tile site slot m)
    (hc : s.ctx? site slot = some c) (hk : i.coreOk .tile = true) (h : classOk (siteClass site) i = false) :
    s.issue i = .error (.trap { code := .illclass }) := by
  simp only [State.issue, ht, hc, hk, h, need_true, need_false, Try.ok_bind, Try.error_bind]

/-- A word whose queues are not ready waits. -/
theorem issue_waits {s : State} {i : Instr} {site slot : Nat} {m : Stream} {c : Ctx} (ht : s.turn = .tile site slot m)
    (hc : s.ctx? site slot = some c) (hk : i.coreOk .tile = true) (h : classOk (siteClass site) i = true)
    (hr : readyFor (s.tile site) slot c i.uses = false) : s.issue i = .error (.wait .queue) := by
  simp only [State.issue, ht, hc, hk, h, hr, need_true, await_false, Try.ok_bind]

/-! ## The scalar forms -/

theorem alu2_next {i : Instr} {m : Stream} {d a b : Spec} {f : Word → Word → Word} {s s1 s2 t : State} {va vb : Word}
    (h0 : s.issue i = .ok ()) (ha : s.src m a = .ok (va, s1)) (hb : s1.src m b = .ok (vb, s2))
    (hd : s2.dst m d (f va vb) = .ok t) : alu2 i m d a b f s = .next (t.retire i.stream) :=
  word_next h0 (by simp only [ha, Try.ok_bind, hb, hd])

theorem alu1_next {i : Instr} {m : Stream} {d a : Spec} {f : Word → Word} {s s1 t : State} {va : Word}
    (h0 : s.issue i = .ok ()) (ha : s.src m a = .ok (va, s1)) (hd : s1.dst m d (f va) = .ok t) :
    alu1 i m d a f s = .next (t.retire i.stream) :=
  word_next h0 (by simp only [ha, Try.ok_bind, hd])

/-- Without bit errors a read of a unit changes nothing (R385). -/
theorem scrub_clean {s : State} {site slot : Nat} {c : Ctx} {u : RegUnit} (hc : s.ctx? site slot = some c)
    (h : c.marks = []) : s.scrub site slot u = .ok s := by
  simp only [State.scrub, hc, h, List.isEmpty_nil, if_true]

theorem unmark_clean {c : Ctx} (u : RegUnit) (h : c.marks = []) : c.unmark u = c := by
  simp only [Ctx.unmark, h, List.isEmpty_nil, if_true]

/-! ## The home memory -/

/-- A write to a line the machine does not have changes nothing. -/
theorem lineWrite_absent {s : State} {k : LineKey} (o : Nat) (bs : List Byte) (h : k.exists = false) :
    s.lineWrite k o bs = s := by
  simp only [State.lineWrite, h, Bool.not_false, if_true]

/-- A line that has its way, or whose set has one free, sends no other away (R7). -/
theorem makeRoom_held {s : State} {f : Nat} {k : LineKey} (h : (s.l2find k).isSome = true) : s.makeRoom f k = s := by
  simp only [State.makeRoom, h, Bool.true_or, if_true]

theorem makeRoom_short {s : State} {f : Nat} {k : LineKey}
    (h : (s.l2.filter (fun l => l.field == f && l.slice == s.homeSlice f k && s.homeSet f l.key == s.homeSet f k)).length < 16) :
    s.makeRoom f k = s := by
  simp only [State.makeRoom, l2Ways, h, decide_true, Bool.or_true, if_true]

/-- Where no operand read is kept, an acquire changes nothing and a store is the plain store (R189). -/
theorem acquired_none {s : State} (site : Nat) (h : ∀ p ∈ s.tiles, p.2.opReads = []) : s.acquired site = s := by
  simp only [State.acquired, ite_eq_left_iff, List.all_eq_true, List.isEmpty_iff]
  exact fun n => absurd h n

theorem writeBy_none {t : Tile} (site off : Nat) (bs : List Byte) (h : t.opReads = []) :
    t.writeBy site off bs = t.spadWrite off bs := by
  have k : (t.spadWrite off bs).opReads = [] := by
    rw [← h]
    simp only [Tile.spadWrite]
    split <;> rfl
  simp only [Tile.writeBy, k, List.isEmpty_nil, if_true]

/-- A read beyond the machine's memory draws a free value and changes nothing else. -/
theorem beyond_frame (s : State) (k : LineKey) : { s.beyond k with draws := s.draws } = s := by
  unfold State.beyond
  split <;> rfl

theorem beyond_exists {s : State} {k : LineKey} (h : k.exists = true) : s.beyond k = s := by
  simp only [State.beyond, h, if_true]

/-- Noting a leaf whose A and D bits are owed touches that list alone. -/
theorem noteLeaf_frame (s : State) (l : Leaf) : { s.noteLeaf l with leaves := s.leaves } = s := by
  simp only [State.noteLeaf]
  split <;> rfl

end Sys2Proof.Machine
end

