-- ==== Sys2Proof/Tests/Slice0.lean ====
section
/-! SUPPORT. Small tests: words written out from the encoding tables and what they decode to; a smoke test of
well-formedness; results that the spec's tables state; and for every statement a state and operands that meet its
hypotheses. -/

namespace Sys2Proof.Tests

set_option Elab.async false

open Sys2Proof Sys2Proof.Machine

/-! ## Every word of the table, each field with a value of its own

The words are laid out from the encoding tables of 04_encoding.md (R69 to R83, R394): major opcode, fields and fixed
bits at the places that the tables give. -/

/-- Words 1 to 33 of the table. -/
def table0 : List (CoreKind × IWord × Instr) := [
  (.tile, 0x804AD280, .add .A 9 22 37),
  (.tile, 0x804AD281, .sub .A 9 22 37),
  (.tile, 0x804AD282, .and .A 9 22 37),
  (.tile, 0x804AD283, .or .A 9 22 37),
  (.tile, 0x804AD284, .xor .A 9 22 37),
  (.tile, 0x804AD285, .sll .A 9 22 37),
  (.tile, 0x804AD286, .srl .A 9 22 37),
  (.tile, 0x804AD287, .sra .A 9 22 37),
  (.tile, 0x804AD288, .slt .A 9 22 37),
  (.tile, 0x804AD289, .sltu .A 9 22 37),
  (.tile, 0x804AD28A, .min .A 9 22 37),
  (.tile, 0x804AD28B, .max .A 9 22 37),
  (.tile, 0x804AD28C, .minu .A 9 22 37),
  (.tile, 0x804AD28D, .maxu .A 9 22 37),
  (.tile, 0x804AD28E, .mul .A 9 22 37),
  (.tile, 0x804AD28F, .mulh .A 9 22 37),
  (.tile, 0x804AD290, .mulhu .A 9 22 37),
  (.tile, 0x804AD291, .div .A 9 22 37),
  (.tile, 0x804AD292, .divu .A 9 22 37),
  (.tile, 0x804AD293, .rem .A 9 22 37),
  (.tile, 0x804AD294, .remu .A 9 22 37),
  (.tile, 0x804AC015, .clz .A 9 22),
  (.tile, 0x804AC016, .ctz .A 9 22),
  (.tile, 0x804AC017, .popc .A 9 22),
  (.tile, 0x804AD298, .addsl1 .A 9 22 37),
  (.tile, 0x804AD299, .addsl2 .A 9 22 37),
  (.tile, 0x804AD29A, .addsl3 .A 9 22 37),
  (.tile, 0x804AD29B, .addsl4 .A 9 22 37),
  (.tile, 0x824AD002, .addi .A 9 22 4098),
  (.tile, 0x844AD002, .andi .A 9 22 4098),
  (.tile, 0x864AD002, .ori .A 9 22 4098),
  (.tile, 0x884AD002, .xori .A 9 22 4098),
  (.tile, 0x8A4AD002, .slti .A 9 22 4098)]

theorem test_decode_table0 : ∀ p ∈ table0, decode p.1 p.2.1 = .ok p.2.2 := by decide +kernel

/-- Words 34 to 66 of the table. -/
def table1 : List (CoreKind × IWord × Instr) := [
  (.tile, 0x8C4AC025, .slli .A 9 22 37),
  (.tile, 0x8C4AC825, .srli .A 9 22 37),
  (.tile, 0x8C4AD025, .srai .A 9 22 37),
  (.tile, 0x8E4C0002, .li .A 9 262146),
  (.tile, 0x904C0002, .lih .A 9 262146),
  (.tile, 0x924AC945, .bfx .A 9 22 37 5),
  (.tile, 0x924AD945, .bfxu .A 9 22 37 5),
  (.tile, 0x944AC945, .bfi .A 9 22 37 5),
  (.tile, 0x964AD280, .part 9 22 37),
  (.tile, 0x964AD281, .partY 9 22 37),
  (.tile, 0x184AD280, .fadd 9 22 37),
  (.tile, 0x184AD281, .fsub 9 22 37),
  (.tile, 0x184AD282, .fmul 9 22 37),
  (.tile, 0x184AD283, .ffma 9 22 37),
  (.tile, 0x184AD284, .fmin 9 22 37),
  (.tile, 0x184AD285, .fmax 9 22 37),
  (.tile, 0x184AD286, .feq 9 22 37),
  (.tile, 0x184AD287, .flt 9 22 37),
  (.tile, 0x184AD288, .fle 9 22 37),
  (.tile, 0x184AC009, .fcvtSI 9 22),
  (.tile, 0x184AC00A, .fcvtIS 9 22),
  (.tile, 0xA004C002, .beqz 9 16386),
  (.tile, 0xA024C002, .bnez 9 16386),
  (.tile, 0xA044C002, .bltz 9 16386),
  (.tile, 0xA064C002, .bgez 9 16386),
  (.tile, 0xA084C002, .bgtz 9 16386),
  (.tile, 0xA0A4C002, .blez 9 16386),
  (.tile, 0xA24C0002, .jal 9 262146),
  (.tile, 0xA44AD002, .jalr 9 22 4098),
  (.tile, 0x260412C0, .rpt 130 22),
  (.tile, 0xA8000000, .nop .A),
  (.tile, 0xA8000100, .done),
  (.tile, 0xA8000200, .yield)]

theorem test_decode_table1 : ∀ p ∈ table1, decode p.1 p.2.1 = .ok p.2.2 := by decide +kernel

/-- Words 67 to 99 of the table. -/
def table2 : List (CoreKind × IWord × Instr) := [
  (.tile, 0xA8000300, .step),
  (.tile, 0xA8000482, .safept 130),
  (.tile, 0xA8000582, .trap 130),
  (.tile, 0xA8000682, .brk 130),
  (.tile, 0xAA480028, .sysrd .A 9 40),
  (.tile, 0xAA01302B, .syswr .A 9 43),
  (.tile, 0xAC4AC000, .tokreq 9 22),
  (.tile, 0xAC4AC001, .tokret 9 22),
  (.tile, 0xAC4AD282, .toklend 9 22 37),
  (.tile, 0xAC480003, .tokwait 9),
  (.tile, 0xAC480004, .tokq 9),
  (.tile, 0xB04AD442, .ldB 9 22 5 66),
  (.tile, 0xB04AD4C2, .ldBu 9 22 5 66),
  (.tile, 0xB04AD542, .ldH 9 22 5 66),
  (.tile, 0xB04AD5C2, .ldHu 9 22 5 66),
  (.tile, 0xB04AD642, .ldW 9 22 5 66),
  (.tile, 0xB04AD6C2, .ldWu 9 22 5 66),
  (.tile, 0xB04AD742, .ldD 9 22 5 66),
  (.tile, 0xB24AD442, .stB 9 22 5 66),
  (.tile, 0xB24AD542, .stH 9 22 5 66),
  (.tile, 0xB24AD642, .stW 9 22 5 66),
  (.tile, 0xB24AD742, .stD 9 22 5 66),
  (.tile, 0xB44AD442, .ldfW 9 22 5 66),
  (.tile, 0xB44AD4C2, .ldfD 9 22 5 66),
  (.tile, 0xB44AD542, .ldtW 9 22 5 66),
  (.tile, 0xB44AD5C2, .ldtD 9 22 5 66),
  (.tile, 0xB44AD642, .stfW 9 22 5 66),
  (.tile, 0xB44AD6C2, .stfD 9 22 5 66),
  (.tile, 0xB44AD742, .stxW 9 22 5 66),
  (.tile, 0xB44AD7C2, .stxD 9 22 5 66),
  (.tile, 0xB6EAD2D0, .vld 29 22 37 5),
  (.tile, 0xB6FAD2D1, .vst 31 22 37 5),
  (.tile, 0xB6EAD2D2, .vldx 29 22 37 5)]

theorem test_decode_table2 : ∀ p ∈ table2, decode p.1 p.2.1 = .ok p.2.2 := by decide +kernel

/-- Words 100 to 132 of the table. -/
def table3 : List (CoreKind × IWord × Instr) := [
  (.tile, 0xB6FAD2D3, .vstx 31 22 37 5),
  (.tile, 0xB6EAD2D4, .vldb 29 22 37 5),
  (.tile, 0xB8000001, .acq .g),
  (.tile, 0xB8000801, .rel .g),
  (.tile, 0xB8001000, .fence),
  (.tile, 0xBA012B00, .cwb 9 22),
  (.tile, 0xBA012B01, .cinv 9 22),
  (.tile, 0xBA012B02, .disc 9 22),
  (.tile, 0xBA012B03, .pf 9 22),
  (.tile, 0xBA012B04, .pf2 9 22),
  (.tile, 0xBA012B05, .pmig 9 22),
  (.tile, 0xBA012B06, .fefill 9 22),
  (.tile, 0xBA012B07, .feempty 9 22),
  (.tile, 0xC04AD2C0, .aadd 9 22 37 .rel),
  (.tile, 0xC04AD2C1, .aaddW 9 22 37 .rel),
  (.tile, 0xC04AD2C2, .faadd 9 22 37 .rel),
  (.tile, 0xC04AD2C3, .aand 9 22 37 .rel),
  (.tile, 0xC04AD2C4, .aor 9 22 37 .rel),
  (.tile, 0xC04AD2C5, .axor 9 22 37 .rel),
  (.tile, 0xC04AD2C6, .amin 9 22 37 .rel),
  (.tile, 0xC04AD2C7, .amax 9 22 37 .rel),
  (.tile, 0xC04AD2C8, .aminu 9 22 37 .rel),
  (.tile, 0xC04AD2C9, .amaxu 9 22 37 .rel),
  (.tile, 0xC04AD2CA, .aswap 9 22 37 .rel),
  (.tile, 0xC04AC04B, .aload 9 22 .rel),
  (.tile, 0xC0012B4C, .astore 9 22 .rel),
  (.tile, 0xC24AD2C0, .acas 9 22 37 .rel),
  (.tile, 0xC24AD2C1, .acasW 9 22 37 .rel),
  (.tile, 0xC44AD2C1, .atopk 9 22 37 .rel 1),
  (.tile, 0xC64AD280, .alink 9 22 37),
  (.tile, 0xC8000005, .bwait 5),
  (.tile, 0xC8001005, .barr 5),
  (.tile, 0xCA4AD280, .bredMin 9 22 37)]

theorem test_decode_table3 : ∀ p ∈ table3, decode p.1 p.2.1 = .ok p.2.2 := by decide +kernel

/-- Words 133 to 165 of the table. -/
def table4 : List (CoreKind × IWord × Instr) := [
  (.tile, 0xCA4AD281, .bredSum 9 22 37),
  (.tile, 0xCA4AD282, .bredOr 9 22 37),
  (.tile, 0xCA4AD283, .harm 9 22 37),
  (.tile, 0xCA012B04, .harr 9 22),
  (.tile, 0xCA012B05, .hwait 9 22),
  (.tile, 0xCA4AD286, .hexp 9 22 37),
  (.tile, 0xCA012007, .qfence 9),
  (.tile, 0x4E013040, .vshape 9 130),
  (.tile, 0x50B354C0, .vadd 11 6 21 .u16),
  (.tile, 0x50B354C1, .vsub 11 6 21 .u16),
  (.tile, 0x50B354C2, .vmul 11 6 21 .u16),
  (.tile, 0x50B354C3, .vmla 11 6 21 .u16),
  (.tile, 0x50B354C4, .vmin 11 6 21 .u16),
  (.tile, 0x50B354C5, .vmax 11 6 21 .u16),
  (.tile, 0x50B300C6, .vabs 11 6 .u16),
  (.tile, 0x50B300C7, .vneg 11 6 .u16),
  (.tile, 0x50B354C8, .vand 11 6 21 .u16),
  (.tile, 0x50B354C9, .vor 11 6 21 .u16),
  (.tile, 0x50B354CA, .vxor 11 6 21 .u16),
  (.tile, 0x50B300CB, .vnot 11 6 .u16),
  (.tile, 0x50B3548C, .vshl 11 6 21 .i16),
  (.tile, 0x50B354CD, .vshr 11 6 21 .u16),
  (.tile, 0x50B3544E, .vadds 11 6 21 .u8),
  (.tile, 0x50B3550F, .vsubs 11 6 21 .i32),
  (.tile, 0x50B354D0, .vsel 11 6 21 .u16),
  (.tile, 0x50B35611, .vdiv 11 6 21 .e4m3),
  (.tile, 0x50B30192, .vrcp 11 6 .bf16),
  (.tile, 0x50B30193, .vrsq 11 6 .bf16),
  (.tile, 0x50B30214, .vsqrt 11 6 .e4m3),
  (.tile, 0x50B300D5, .vmov 11 6 .u16),
  (.tile, 0x50B300D6, .vtrans 11 6 .u16),
  (.tile, 0x50B35557, .vmulh 11 6 21 .u32),
  (.tile, 0x50B35498, .vtacc 11 6 21 .i16)]

theorem test_decode_table4 : ∀ p ∈ table4, decode p.1 p.2.1 = .ok p.2.2 := by decide +kernel

/-- Words 166 to 198 of the table. -/
def table5 : List (CoreKind × IWord × Instr) := [
  (.tile, 0x50B35459, .vdot4 11 6 21 .u8),
  (.tile, 0x52B354C3, .vcmp 11 6 21 .u16 .le),
  (.tile, 0x54B30180, .vcvt 11 6 .bf16 false false .i8),
  (.tile, 0x56B30200, .vrint 11 6 .e4m3),
  (.tile, 0x56B30201, .vfloor 11 6 .e4m3),
  (.tile, 0x56B30202, .vceil 11 6 .e4m3),
  (.tile, 0x56B30203, .vtrunc 11 6 .e4m3),
  (.tile, 0x56B30204, .vrne 11 6 .e4m3),
  (.tile, 0x56B301C5, .vexf 11 6 .fp32),
  (.tile, 0x56B355C6, .vinse 11 6 21 .fp32),
  (.tile, 0x56B30187, .vgetexp 11 6 .bf16),
  (.tile, 0x56B30188, .vgetman 11 6 .bf16),
  (.tile, 0x58B34A60, .vaddS 11 6 37 .u16),
  (.tile, 0x58B34A61, .vsubS 11 6 37 .u16),
  (.tile, 0x58B34A62, .vmulS 11 6 37 .u16),
  (.tile, 0x58B34A63, .vmlaS 11 6 37 .u16),
  (.tile, 0x58B34A64, .vminS 11 6 37 .u16),
  (.tile, 0x58B34A65, .vmaxS 11 6 37 .u16),
  (.tile, 0x58B02C66, .vbcast 11 22 .u16),
  (.tile, 0x58B34A67, .vshlS 11 6 37 .u16),
  (.tile, 0x58B34A88, .vshrS 11 6 37 .i32),
  (.tile, 0x5AB300C8, .vredsum 11 6 .u16 .all),
  (.tile, 0x5AB300C9, .vredmax 11 6 .u16 .all),
  (.tile, 0x5AB300CA, .vredmin 11 6 .u16 .all),
  (.tile, 0x5CB354C0, .vrot 11 6 21 .u16),
  (.tile, 0x5CB354C1, .vperm 11 6 21 .u16),
  (.tile, 0x5CB30002, .vunp3 11 6),
  (.tile, 0x5CB30003, .vunp4 11 6),
  (.tile, 0x5CB30004, .vunp3i 11 6),
  (.tile, 0x5CB30005, .vpack4 11 6),
  (.tile, 0x5CB30006, .vpack3 11 6),
  (.tile, 0x5CB354C7, .vzip 11 6 21 .u16),
  (.tile, 0x5CB300C8, .vunzip 11 6 .u16)]

theorem test_decode_table5 : ∀ p ∈ table5, decode p.1 p.2.1 = .ok p.2.2 := by decide +kernel

/-- Words 199 to 231 of the table. -/
def table6 : List (CoreKind × IWord × Instr) := [
  (.tile, 0x5EB80023, .vsplat 11 32770 .u16),
  (.tile, 0x615694E0, .mma 5 22 37 14),
  (.tile, 0x615694E1, .mmaZ 5 22 37 14),
  (.tile, 0x615694E2, .mmaT 5 22 37 14),
  (.tile, 0x615694E3, .mmaTz 5 22 37 14),
  (.tile, 0x63400000, .mzero 5),
  (.tile, 0x63560251, .mrd 5 22 37),
  (.tile, 0x63560252, .mwr 5 22 37),
  (.tile, 0x635694E3, .mscl 5 22 37 14),
  (.tile, 0x649694E0, .smma 2 22 37 14),
  (.tile, 0x649694E1, .smmaZ 2 22 37 14),
  (.tile, 0x649694E2, .smmaB 2 22 37 14),
  (.tile, 0x675694E0, .attnQk 5 22 37 14),
  (.tile, 0x67400161, .attnSm 5 22),
  (.tile, 0x67560252, .attnPv 5 22 37),
  (.tile, 0x67400163, .attnFin 5 22),
  (.tile, 0x675694E4, .attnStep 5 22 37 14),
  (.tile, 0xE84AD280, .ppop 9 22 37),
  (.tile, 0xE84AD281, .ppopNb 9 22 37),
  (.tile, 0xE84AD282, .steal 9 22 37),
  (.tile, 0xE84AD283, .ppush 9 22 37),
  (.tile, 0xEA4AD280, .rule 9 22 37),
  (.tile, 0xEC4AD280, .rewr 9 22 37),
  (.tile, 0xEC4AD281, .rcall 9 22 37),
  (.tile, 0xEC4AD282, .rgroup 9 22 37),
  (.tile, 0xEE4AD280, .nalloc 9 22 37),
  (.tile, 0xEE012B01, .nfree 9 22),
  (.croft, 0xFC012B00, .mext 9 22),
  (.croft, 0xFC012B01, .mget 9 22),
  (.croft, 0xFC012002, .mlock 9),
  (.croft, 0xFC4AC003, .cfgrd 9 22),
  (.croft, 0xFC012B04, .cfgwr 9 22),
  (.croft, 0xFC000005, .fret)]

theorem test_decode_table6 : ∀ p ∈ table6, decode p.1 p.2.1 = .ok p.2.2 := by decide +kernel

/-! ## Well-formedness: an ill-formed term for each check -/

theorem test_wf_core : Instr.wellFormed .croft (.ppop 1 2 3) = false ∧ Instr.wellFormed .tile .fret = false ∧
    Instr.wellFormed .croft .fret = true := by decide
theorem test_wf_stream : Instr.wellFormed .croft (.add .C 1 2 3) = false ∧ Instr.wellFormed .tile (.add .C 1 2 3) = true := by
  decide
theorem test_wf_zero_word : Instr.wellFormed .tile (.add .C 0 0 0) = false ∧ Instr.wellFormed .tile (.add .A 0 0 0) = false := by
  decide
theorem test_wf_fields_inside : Instr.wellFormed .tile (.bfx .A 1 2 32 31) = true ∧
    Instr.wellFormed .tile (.bfx .A 1 2 33 31) = false ∧ Instr.wellFormed .tile (.bfxu .A 1 2 63 1) = false ∧
    Instr.wellFormed .tile (.bfi .A 1 2 1 63) = false := by decide
theorem test_wf_sysregs : Instr.wellFormed .tile (.sysrd .A 1 0x0E) = false ∧ Instr.wellFormed .tile (.sysrd .A 1 0x30) = false ∧
    Instr.wellFormed .croft (.sysrd .A 1 0x30) = true ∧ Instr.wellFormed .tile (.syswr .A 1 0x00) = false ∧
    Instr.wellFormed .tile (.syswr .C 1 0x00) = true := by decide
theorem test_wf_vector_queues : Instr.wellFormed .tile (.vld 27 1 2 0) = false ∧ Instr.wellFormed .tile (.vld 30 1 2 0) = false ∧
    Instr.wellFormed .tile (.vst 29 1 2 0) = false ∧ Instr.wellFormed .tile (.vstx 5 1 2 0) = false ∧
    Instr.wellFormed .tile (.vldx 3 1 2 0) = false ∧ Instr.wellFormed .tile (.vldb 31 1 2 0) = false := by decide
theorem test_wf_integer_types : Instr.wellFormed .tile (.vshl 1 2 3 .fp32) = false ∧
    Instr.wellFormed .tile (.vshr 1 2 3 .bf16) = false ∧ Instr.wellFormed .tile (.vadds 1 2 3 .e4m3) = false ∧
    Instr.wellFormed .tile (.vsubs 1 2 3 .e5m2) = false ∧ Instr.wellFormed .tile (.vmulh 1 2 3 .fp32) = false ∧
    Instr.wellFormed .tile (.vshlS 1 2 3 .fp32) = false ∧ Instr.wellFormed .tile (.vshrS 1 2 3 .bf16) = false := by decide
theorem test_wf_float_types : Instr.wellFormed .tile (.vdiv 1 2 3 .i32) = false ∧
    Instr.wellFormed .tile (.vsqrt 1 2 .u8) = false ∧ Instr.wellFormed .tile (.vrcp 1 2 .e4m3) = false ∧
    Instr.wellFormed .tile (.vrsq 1 2 .i16) = false ∧ Instr.wellFormed .tile (.vrint 1 2 .i8) = false ∧
    Instr.wellFormed .tile (.vfloor 1 2 .i8) = false ∧ Instr.wellFormed .tile (.vceil 1 2 .i8) = false ∧
    Instr.wellFormed .tile (.vtrunc 1 2 .i8) = false ∧ Instr.wellFormed .tile (.vrne 1 2 .i8) = false ∧
    Instr.wellFormed .tile (.vexf 1 2 .bf16) = false ∧ Instr.wellFormed .tile (.vinse 1 2 3 .bf16) = false ∧
    Instr.wellFormed .tile (.vgetexp 1 2 .e5m2) = false ∧ Instr.wellFormed .tile (.vgetman 1 2 .i32) = false := by decide
theorem test_wf_dot_types : Instr.wellFormed .tile (.vtacc 1 2 3 .u8) = false ∧ Instr.wellFormed .tile (.vdot4 1 2 3 .i16) = false := by
  decide
theorem test_wf_conditions : Instr.wellFormed .tile (.vcmp 1 2 3 .i32 .ord) = false ∧
    Instr.wellFormed .tile (.vcmp 1 2 3 .fp32 .ord) = true := by decide
theorem test_wf_conversions : Instr.wellFormed .tile (.vcvt 1 2 .i32 false true .i8) = false ∧
    Instr.wellFormed .tile (.vcvt 1 2 .fp32 true false .i8) = false ∧
    Instr.wellFormed .tile (.vcvt 1 2 .i32 true false .i8) = true := by decide
theorem test_wf_specifiers : Instr.wellFormed .tile (.add .A 60 1 2) = false ∧ Instr.wellFormed .tile (.add .C 56 1 2) = false ∧
    Instr.wellFormed .croft (.add .A 48 1 2) = false := by decide
theorem test_wf_directions : Instr.wellFormed .tile (.add .A 52 1 2) = false ∧ Instr.wellFormed .tile (.add .A 48 1 2) = true ∧
    Instr.wellFormed .tile (.add .C 1 52 2) = false ∧ Instr.wellFormed .tile (.add .A 1 56 2) = false ∧
    Instr.wellFormed .tile (.lih .A 48 1) = false ∧ Instr.wellFormed .tile (.vadd 1 30 2 .i8) = false ∧
    Instr.wellFormed .tile (.vadd 28 1 2 .i8) = false ∧ Instr.wellFormed .tile (.vmla 30 1 2 .i8) = false := by decide

/-! ## Small states -/

/-- A task of domain 0 of launch 1. -/
def task0 : Task := { msg := { words := [0x4000000000000000], launch := 1 }, id := 7 }

/-- A context with 6, -4 and 0 in x1, x2, x3 and in s1, s2, s3. -/
def ctx0 : Ctx := { Ctx.fresh task0 0x2000000000 0 0 {} 0 with
  x := vput (vput (Vector.replicate 48 0) 1 6) 2 (-4)
  s := vput (vput (Vector.replicate 48 0) 1 6) 2 (-4) }

/-- The same context in ordered domain 1. -/
def ctx1 : Ctx := { ctx0 with task := { task0 with msg := { task0.msg with dom := 1 } } }

/-- A tile of launch 1 whose one context is `c`, the turn of stream `m`. -/
def tileAt (site : Nat) (m : Stream) (c : Ctx) (t : Tile := {}) : State := { State.reset with
  agenda := []
  turn := .tile site 0 m
  tiles := [(site, { t with named := true, name := 0x8000, launch := some 1, cur := some 0,
                            ctxs := vput t.ctxs 0 (some c) })]
  launches := [(1, placeLaunch site)] }

/-- Croft core 0 at a level, with 6 in x1, its turn. -/
def croftAt (level : Bool) : State := { State.reset with
  agenda := []
  crofts := [(0, { x := vput (Vector.replicate 48 0) 1 6, pc := 0x1000, level := level, prev := false, cvec := 0x4000,
                   cepc := 0x2000, held := false })] }

/-- A tile's state after an instruction, seen through its context. -/
def seen {α : Type} (o : Host.Outcome State Fault Refusal) (site : Nat) (f : Ctx → α) : Option α :=
  match o with
  | .next t => (t.ctx? site 0).map f
  | _ => none

/-- x3 after an A-stream instruction with A in x1 and B in x2. -/
def result (i : Instr) (a b : Word) : Option Word :=
  seen (exec i (tileAt 0 .A { ctx0 with x := vput (vput ctx0.x 1 a) 2 b })) 0 (fun c => vget 0 c.x 3)

/-- s3 after a C-stream instruction with A in s1 and B in s2. -/
def resultC (i : Instr) (a b : Word) : Option Word :=
  seen (exec i (tileAt 0 .C { ctx0 with s := vput (vput ctx0.s 1 a) 2 b, front := [(0, 0)] })) 0 (fun c => vget 0 c.s 3)

/-! ## Results that the spec's tables state -/

-- R93 and R94
theorem test_add_wraps : result (.add .A 3 1 2) 0xFFFFFFFFFFFFFFFF 1 = some 0 := by decide +kernel
theorem test_mulh_signed : result (.mulh .A 3 1 2) (-1) 2 = some 0xFFFFFFFFFFFFFFFF := by decide +kernel
theorem test_sra_count_wraps : result (.sra .A 3 1 2) 0x8000000000000000 127 = some 0xFFFFFFFFFFFFFFFF := by decide +kernel
theorem test_clz_zero : result (.clz .A 3 1) 0 0 = some 64 := by decide +kernel
theorem test_div_zero_positive : result (.div .A 3 1 2) 5 0 = some 0x7FFFFFFFFFFFFFFF := by decide +kernel
theorem test_div_zero_negative : result (.div .A 3 1 2) (-5) 0 = some 0x8000000000000000 := by decide +kernel
theorem test_div_zero_zero : result (.div .A 3 1 2) 0 0 = some 0 ∧ result (.divu .A 3 1 2) 0 0 = some 0 := by decide +kernel
theorem test_div_overflow : result (.div .A 3 1 2) 0x8000000000000000 (-1) = some 0x7FFFFFFFFFFFFFFF ∧
    result (.rem .A 3 1 2) 0x8000000000000000 (-1) = some 0 := by decide +kernel
theorem test_rem_sign : result (.rem .A 3 1 2) (-7) 2 = some (-1) ∧ result (.div .A 3 1 2) (-7) 2 = some (-3) := by
  decide +kernel
-- R95 to R98
theorem test_addi_extends : result (.addi .A 3 1 0x1FFF) 0 0 = some 0xFFFFFFFFFFFFFFFF := by decide +kernel
theorem test_bfx_sign : result (.bfx .A 3 1 4 3) 0xF0 0 = some 0xFFFFFFFFFFFFFFFF ∧
    result (.bfxu .A 3 1 4 3) 0xF0 0 = some 0xF := by decide +kernel
-- R100, R101: 1.0 + 2.0 and an integer's FP32
theorem test_fadd : resultC (.fadd 3 1 2) 0x3F800000 0x40000000 = some 0x40400000 := by decide +kernel
theorem test_fle_equal : resultC (.fle 3 1 2) 0x3F800000 0x3F800000 = some 1 := by decide +kernel
theorem test_fcvt_si : resultC (.fcvtSI 3 1) (-2) 0 = some 0xC0000000 := by decide +kernel
-- R102 to R104
theorem test_bltz_taken : seen (exec (.bltz 2 0x7FFF) (tileAt 0 .A ctx0)) 0 (·.pc) = some 0x1FFFFFFFFC := by decide +kernel
theorem test_jal_links : result (.jal 3 16) 0 0 = some 0x2000000004 := by decide +kernel
-- R111, R381: a software trap holds the task in the Launch Unit, and its context is free
theorem test_trap_holds : (match exec (.trap 9) (tileAt 0 .A ctx0) with
    | .next t => some (t.ctx? 0 0, t.luTasks.map (fun x => (x.task.id, x.state)))
    | _ => none) = some (none, [(7, LuState.held)]) := by decide +kernel
-- R393: a fault on a Croft core
theorem test_croft_trap : (match exec (.trap 9) (croftAt false) with
    | .next t => some ((t.croft 0).pc, (t.croft 0).cepc, (t.croft 0).level, (t.croft 0).prev)
    | _ => none) = some (0x4000, 0x1000, true, false) := by decide +kernel
-- R101, the rows of its table
/-- d and the sticky flags after a floating-point instruction with A in s1 and B in s2 and these FPC bits. -/
def fpResult (i : Instr) (fpc a b : Word) : Option (Word × Word) :=
  seen (exec i (tileAt 0 .C { ctx0 with fpc := fpc, s := vput (vput ctx0.s 1 a) 2 b, front := [(0, 0)] })) 0
    (fun c => (vget 0 c.s 3, c.fpc >>> 11))
theorem test_r101_fadd : fpResult (.fadd 3 1 2) 0 0x7F7FFFFF 0x7F7FFFFF = some (0x7F800000, 5) ∧
    fpResult (.fadd 3 1 2) 1 0x7F7FFFFF 0x7F7FFFFF = some (0x7F7FFFFF, 5) := by decide +kernel
theorem test_r101_fmul : fpResult (.fmul 3 1 2) 0 0x0D800000 0x2B800000 = some (0x200, 0) ∧
    fpResult (.fmul 3 1 2) 4 0x0D800000 0x2B800000 = some (0, 3) := by decide +kernel
theorem test_r101_fcvt_is : fpResult (.fcvtIS 3 1) 0 0x40600000 0 = some (4, 1) ∧
    fpResult (.fcvtIS 3 1) 0 0xC0200000 0 = some (0xFFFFFFFFFFFFFFFE, 1) ∧
    fpResult (.fcvtIS 3 1) 0 0x5F800000 0 = some (0x7FFFFFFFFFFFFFFF, 16) := by decide +kernel
theorem test_r101_fcvt_si : fpResult (.fcvtSI 3 1) 0 16777217 0 = some (0x4B800000, 1) ∧
    fpResult (.fcvtSI 3 1) 2 16777217 0 = some (0x4B800001, 1) := by decide +kernel
-- R57: byte 196 decodes to +1, -1, 0, +1, -1
theorem test_tern5 : (List.range 5).map (tritWeight 196) = [1, -1, 0, 1, -1] := by decide +kernel
-- R61, the worked example: 16 x 1.125 x 7 at the scale 0x3DCD into 16,777,216
theorem test_r61 :
    let a := Fmt.e4m3.unpack 0x39
    let b := Fmt.bf16.unpack 0x40E0
    let v := groupSum {} (List.replicate 16 (a, b)) (Fmt.bf16.unpack 0x3F80) (Fmt.bf16.unpack 0x3DCD)
    addGroup {} (0x4B800000, 0) v = (0x4B800006, 1) ∧ v.2 = 0 := by decide +kernel
-- R143, the worked example: both orders end with the same slots
theorem test_r143 :
    let put (s : List (BitVec 32)) (c : BitVec 32) := (insertTop c s).1
    let empty : List (BitVec 32) := [0xFF80FFFF, 0xFF80FFFF]
    put (put (put empty 0x3F000003) 0x3F400001) 0x3F000002 = [0x3F400001, 0x3F000002] ∧
    put (put (put empty 0x3F000002) 0x3F000003) 0x3F400001 = [0x3F400001, 0x3F000002] ∧
    (insertTop 0x3F000002 [0x3F400001, 0x3F000003]).2 = true := by decide +kernel

/-! ## Witnesses: states and operands that meet the hypotheses of the statements

Each theorem names the statement, and a clause where it has several. -/

theorem wit_EncodeThenDecode : Instr.wellFormed .tile (.add .A 3 1 2) = true ∧ encode (.add .A 3 1 2) = some 0x80182100 ∧
    Instr.wellFormed .croft .fret = true ∧ encode .fret = some 0xFC000005 := by decide +kernel
theorem wit_DecodeThenEncode : decode .tile 0x80182100 = .ok (.add .A 3 1 2) ∧ decode .croft 0xFC000005 = .ok .fret := by
  decide +kernel
theorem wit_PermanentlyIllegalWords : decode .croft 0xFC000005 = .ok .fret ∧
    (0xFC000005 : IWord).extractLsb' 25 6 = 0x3E ∧ (0x7E000000 : IWord).extractLsb' 25 6 = 0x3F := by decide +kernel

/-- A tile of each class, its C-stream's turn. -/
theorem wit_WordsThatDoNotDecode_class :
    ((tileAt 12 .C ctx0).turn = .tile 12 0 .C ∧ (tileAt 12 .C ctx0).ctx? 12 0 = some ctx0 ∧ siteClass 12 = .vt) ∧
    ((tileAt 6 .C ctx0).ctx? 6 0 = some ctx0 ∧ siteClass 6 = .st) ∧ siteClass 9 = .at ∧ siteClass 0 = .dt :=
  ⟨⟨rfl, rfl, rfl⟩, ⟨rfl, rfl⟩, rfl, rfl⟩
theorem wit_WordsThatDoNotDecode_word : decode .tile 0 = .error .illop ∧ decode .tile 0x60000004 = .error .illop ∧
    decode .tile 0x83E00000 = .error .illstrm := by decide +kernel

/-- A tile whose task's page, at the first global address, is mapped to HBM that holds these bytes. -/
def mapped (site : Nat) (m : Stream) (c : Ctx) (bytes : List Byte) (t : Tile := {}) : State := { tileAt site m c t with
  mem := Memory.writeN [] 0x1000 bytes
  clusters := [(siteCluster site,
    { tlb := [{ vi := 0, asid := 0, vpage := 0x1000000, span := 1, pte := 0x10CF, pteAt := 0 }] })] }

set_option maxRecDepth 100000 in
/-- A step of each kind of agent. -/
theorem wit_Step_aStream : ∃ (s s' : State) (c : Ctx), s.onTurn s ∧ s.turn = .tile 0 0 .A ∧ s.ctx? 0 0 = some c ∧
    (s.tile 0).awake = true ∧ (s.tile 0).cur = some 0 ∧ c.front.length < Config.frontWords ∧ c.aFront = [] ∧
    s.fetch (s.spaceOf 0) c.pc = .ok (0x80182100, s') ∧ streamOf 0x80182100 = .A ∧
    decode .tile 0x80182100 = .ok (.add .A 3 1 2) :=
  ⟨mapped 0 .A { ctx0 with pc := 0x1000000000 } [0x00, 0x21, 0x18, 0x80], _, _, .inl ⟨rfl, rfl⟩, rfl, rfl, rfl, rfl, by decide,
    rfl, rfl, by decide, by decide +kernel⟩
/-- A context whose A front end holds an addition. -/
def ctxAhead : Ctx := { ctx0 with aFront := [⟨0x2000000000, 0x80182100, 0, 0⟩], ahead := 0x1000000000 }
theorem wit_Step_aFront : ∃ (s : State) (a : AWord), s.onTurn s ∧ s.turn = .tile 0 0 .A ∧ s.ctx? 0 0 = some ctxAhead ∧
    (s.tile 0).awake = true ∧ (s.tile 0).cur = some 0 ∧ ctxAhead.front.length < Config.frontWords ∧ ctxAhead.aFront = [a] ∧
    decode .tile a.word = .ok (.add .A 3 1 2) :=
  ⟨tileAt 0 .A ctxAhead, _, .inl ⟨rfl, rfl⟩, rfl, rfl, rfl, rfl, by decide, rfl, by decide +kernel⟩
set_option maxRecDepth 100000 in
/-- Fetching ahead of an A-word that waits: an A-word and a C-word. -/
theorem wit_Step_fetch (w : IWord) (hw : w = 0x80182100 ∨ w = 0x00182100) : ∃ (s s' : State) (c' : Ctx),
    s.agenda = [.fetch 0 0] ∧ s.ctx? 0 0 = some ctxAhead ∧ (s.tile 0).awake = true ∧ (s.tile 0).cur = some 0 ∧
    ctxAhead.front.length < Config.frontWords ∧ ctxAhead.aFront.length < Config.aFrontWords ∧
    (∀ a, ctxAhead.aFront.getLast? = some a → fetchStops a.word = false) ∧
    (({ s with agenda := [] } : State).fetch (s.spaceOf 0) ctxAhead.ahead) = .ok (w, s') ∧ s'.ctx? 0 0 = some ctxAhead ∧
    ctxAhead.enterAhead ctxAhead.ahead w = some c' := by
  rcases hw with rfl | rfl
  · exact ⟨{ mapped 0 .A ctxAhead [0x00, 0x21, 0x18, 0x80] with agenda := [.fetch 0 0] }, _, _, rfl, rfl, rfl, rfl, by decide,
      by decide, by decide, rfl, rfl, rfl⟩
  · exact ⟨{ mapped 0 .A ctxAhead [0x00, 0x21, 0x18, 0x00] with agenda := [.fetch 0 0] }, _, _, rfl, rfl, rfl, rfl, by decide,
      by decide, by decide, rfl, rfl, rfl⟩
set_option maxRecDepth 100000 in
theorem wit_Step_frontEnd : ∃ (s s' : State) (c : Ctx), s.onTurn s ∧ s.turn = .tile 0 0 .A ∧ s.ctx? 0 0 = some c ∧
    (s.tile 0).awake = true ∧ (s.tile 0).cur = some 0 ∧ c.front.length < Config.frontWords ∧ c.aFront = [] ∧
    s.fetch (s.spaceOf 0) c.pc = .ok (0x00182100, s') ∧ streamOf 0x00182100 = .C :=
  ⟨mapped 0 .A { ctx0 with pc := 0x1000000000 } [0x00, 0x21, 0x18, 0x00], _, _, .inl ⟨rfl, rfl⟩, rfl, rfl, rfl, rfl, by decide,
    rfl, rfl, rfl⟩
theorem wit_Step_cStream : ∃ (s : State) (c : Ctx), s.onTurn s ∧ s.turn = .tile 0 0 .C ∧ s.ctx? 0 0 = some c ∧
    (s.tile 0).awake = true ∧ (s.tile 0).cur = some 0 ∧ c.vecBusy = 0 ∧ c.issueC = some 0x00182100 ∧
    isVector 0x00182100 = false ∧ decode .tile 0x00182100 = .ok (.add .C 3 1 2) :=
  ⟨State.reset.withFetchWord 32 0x00182100, _, .inl ⟨rfl, rfl⟩, rfl, rfl, rfl, rfl, rfl, rfl, rfl, rfl⟩
/-- A vector word, the tile's vector unit free. -/
theorem wit_Step_vector : isVector 0x50A00000 = true ∧ ((tileAt 0 .C ctx0).tile 0).vecHold = 0 := ⟨rfl, rfl⟩
set_option maxRecDepth 100000 in
theorem wit_Step_croft : ∃ (s s' : State), s.onTurn s ∧ s.turn = .croft 0 ∧ (s.croft 0).held = false ∧
    s.croftFetch 0 = .ok (0xFC000005, s') ∧ decode .croft 0xFC000005 = .ok .fret :=
  ⟨State.reset.withFetchWord 32 0xFC000005, _, .inl ⟨rfl, rfl⟩, rfl, rfl, rfl, rfl⟩
theorem wit_Step_event : State.reset.agenda = .event .boot :: [] := rfl

/-- A context with an entry in q4, in e1 and in the header of e0. -/
def ctxQ : Ctx := { ctx0 with
  q := vput ctx0.q 4 [5, 6]
  inp := vput ctx0.inp 0 [9]
  out := vput ctx0.out 1 [0x0000400000000010] }

theorem wit_OperandForms_state : (tileAt 0 .A ctxQ).turn = .tile 0 0 .A ∧ (tileAt 0 .A ctxQ).ctx? 0 0 = some ctxQ ∧
    ctxQ.marks = [] := ⟨rfl, rfl, rfl⟩
theorem wit_OperandForms_sources : canRead .A 52 = true ∧ vget [] ctxQ.q 4 = [5, 6] ∧ specExists .tile .A 57 = true ∧
    canRead .A 57 = true ∧ vget [] ctxQ.inp 0 = [9] ∧ canRead .A 53 = true ∧ vget [] ctxQ.q 5 = [] ∧ canRead .A 59 = true ∧
    vget [] ctxQ.inp 1 = [] ∧ specExists .tile .A 60 = false ∧ specExists .tile .A 48 = true ∧ canRead .A 48 = false := by
  decide +kernel
theorem wit_OperandForms_destinations : canWrite .A 48 = true ∧ specExists .tile .A 56 = true ∧ canWrite .A 56 = true ∧
    hdrCnt (wordAt (vget [] ctxQ.out 0 ++ [0x0000800000000010]) 0) + 1 ≠ 1 ∧ ctxQ.task.msg.dom = 0 ∧
    specExists .tile .A 61 = false ∧ specExists .tile .A 57 = true ∧ canWrite .A 57 = false := by decide +kernel
/-- A header with CNT = 1 (R89) in e2, and its last word. -/
theorem wit_OperandForms_command : specExists .tile .A 58 = true ∧ canWrite .A 58 = true ∧
    (vget [] ctxQ.out 1 ++ [7]).length = hdrCnt (wordAt (vget [] ctxQ.out 1 ++ [7]) 0) + 1 := by decide +kernel
theorem wit_OperandForms_croft : (croftAt true).turn = .croft 0 := rfl

/-- An A-stream word whose queue is empty, one whose queue is full. -/
theorem wit_QueuesBlockIssue : encode (.add .A 3 52 1) ≠ none ∧
    Instr.coreOk .tile (.add .A 3 52 1) = true ∧ classOk (siteClass 0) (.add .A 3 52 1) = true ∧
    ctx0.holds 52 < occurs 52 (Instr.uses (.add .A 3 52 1)).src ∧
    (let c : Ctx := { ctx0 with q := vput ctx0.q 0 (List.replicate 16 1) }
     queueRoom ((tileAt 0 .A c).tile 0) 0 c 48 < occurs 48 (Instr.uses (.add .A 48 1 2)).dst) ∧
    (vget [] ctx0.vq 0).length < ((Instr.uses (.vmov 1 28 .i8)).vsrc.filter (· == 28)).length := by decide +kernel

theorem wit_TileFaultPlacesTheTask : ∃ l, (tileAt 0 .A ctx0).turn = .tile 0 0 .A ∧
    (tileAt 0 .A ctx0).ctx? 0 0 = some ctx0 ∧ (tileAt 0 .A ctx0).launch? ctx0.task.msg.launch = some l ∧
    ((tileAt 0 .A ctx0).tile 0).launch = some ctx0.task.msg.launch := ⟨_, rfl, rfl, rfl, rfl⟩
theorem wit_TileFault_dispositions : dispoOf .pagenp 0 false true = .parked ∧ dispoOf .swtrap 0 false true = .held := by decide
/-- Two data tiles of a launch whose record lets tasks run again, with a fault ring; and one tile of one that does not. -/
def lossAt (w0 : Word) (others : List (Nat × Tile)) : State := { tileAt 0 .A ctx0 with
  tiles := (tileAt 0 .A ctx0).tiles ++ others
  vis := [(0, { frctl := 0x40001 })]
  launches := [(1, { placeLaunch 0 with rec_ := [w0, 0x0000000100010101] })] }
theorem wit_TileFault_lost : (let s := lossAt 0x0100004000000000 [(1, { launch := some 1 })]
    s.turn = .tile 0 0 .A ∧ s.ctx? 0 0 = some ctx0 ∧ (s.tile 0).launch = some ctx0.task.msg.launch ∧ (s.tile 0).status = 0 ∧
    (s.vi ctx0.task.msg.vi).frctl.getLsbD 0 = true ∧ (s.launch? ctx0.task.msg.launch).map (·.restartable) = some true ∧
    (ctx0.task.repeated .uce (ctx0.pcOf .A)).rep < 16 ∧ s.otherTiles ctx0.task.msg.launch 0 = [1]) ∧
    ((lossAt 0x0100000000000000 []).launch? ctx0.task.msg.launch).map (·.restartable) = some false ∧
    (lossAt 0x0100004000000000 []).otherTiles ctx0.task.msg.launch 0 = [] := by decide +kernel
theorem wit_CroftFaultEntry : (croftAt false).turn = .croft 0 ∧
    ({ code := .swtrap, detail := 9 } : Trap).detail.toNat < 2 ^ 16 := by decide

theorem wit_PrivilegedWords_levelD : ((croftAt false).croft 0).level = false := rfl
theorem wit_PrivilegedWords_mlock : ∃ s1, (croftAt true).turn = .croft 0 ∧ ((croftAt true).croft 0).level = true ∧
    (croftAt true).src .A 1 = .ok (6, s1) ∧ (croftAt true).issue (.mlock 1) = .ok () := ⟨_, rfl, rfl, rfl, rfl⟩
theorem wit_PrivilegedWords_mext : ∃ (s1 s2 s3 : State) (l : Line), (croftAt true).src .A 1 = .ok (6, s1) ∧
    s1.src .A 0 = .ok (0, s2) ∧ (croftAt true).issue (.mext 1 0) = .ok () ∧ (croftAt true).issue (.mget 1 0) = .ok () ∧
    s2.sec.lock.getLsbD 6 = false ∧ s2.measLine 0 0 = .ok (l, s3) := ⟨_, _, _, _, rfl, rfl, rfl, rfl, rfl, rfl⟩
theorem wit_PrivilegedWords_locked : (({ croftAt true with
    sec := { (croftAt true).sec with lock := 0x40 } } : State).sec.lock.getLsbD 6) = true := by decide
theorem wit_PrivilegedWords_cfg : ∃ (s2 t u : State) (w : Word), (croftAt true).cfgRead 0x01001008 = .ok (w, s2) ∧
    s2.dst .A 3 w = .ok t ∧ (croftAt true).cfgWrite 0x01001000 0x18001 = .ok u ∧
    (croftAt true).issue (.cfgrd 3 1) = .ok () ∧ (croftAt true).issue (.cfgwr 1 1) = .ok () :=
  ⟨_, _, _, _, rfl, rfl, rfl, rfl, rfl⟩
theorem wit_PrivilegedWords_noRegister : ∀ u, cfgUnit 0x010000F8 = some u → u.has (0xF8 % 256) = false := by
  intro u h; revert h; decide +revert

/-! Scalar instructions -/

theorem wit_Computes2 : ∃ (s s1 s2 t : State) (va vb : Word), s.issue (.add .A 3 1 2) = .ok () ∧
    s.src .A 1 = .ok (va, s1) ∧ s1.src .A 2 = .ok (vb, s2) ∧ s2.dst .A 3 (va + vb) = .ok t :=
  ⟨tileAt 0 .A ctx0, _, _, _, _, _, rfl, rfl, rfl, rfl⟩
theorem wit_Computes2_queue : ∃ (s s1 s2 t : State) (va vb : Word), s.issue (.sub .A 48 52 52) = .ok () ∧
    s.src .A 52 = .ok (va, s1) ∧ s1.src .A 52 = .ok (vb, s2) ∧ s2.dst .A 48 (va - vb) = .ok t :=
  ⟨tileAt 0 .A ctxQ, _, _, _, _, _, rfl, rfl, rfl, rfl⟩
theorem wit_Computes1 : ∃ (s s1 t : State) (va : Word), s.issue (.clz .C 3 1) = .ok () ∧ s.src .C 1 = .ok (va, s1) ∧
    s1.dst .C 3 61 = .ok t := ⟨tileAt 0 .C ctx0, _, _, _, rfl, rfl, rfl⟩
theorem wit_Writes : ∃ (s t : State), s.issue (.li .A 0 5) = .ok () ∧ s.dst .A 0 5 = .ok t :=
  ⟨tileAt 0 .A ctx0, _, rfl, rfl⟩
theorem wit_IntegerComputations_bfi : ∃ (s s1 s2 t : State), (0 : BitVec 6).toNat + (63 : BitVec 6).toNat + 1 ≤ 64 ∧
    s.issue (.bfi .A 3 1 0 63) = .ok () ∧ s.src .A 1 = .ok (6, s1) ∧ s1.src .A 3 = .ok (0, s2) ∧ s2.dst .A 3 6 = .ok t ∧
    s.issue (.lih .A 3 1) = .ok () := ⟨tileAt 0 .A ctx0, _, _, _, by decide, rfl, rfl, rfl, rfl, rfl⟩
theorem wit_IntegerComputations_part : ∃ (s s1 s2 t : State) (c : Ctx), s.here = .ok (0, 0, c) ∧ s.src .A 1 = .ok (6, s1) ∧
    s1.src .A 0 = .ok (0, s2) ∧ s.issue (.part 3 1 0) = .ok () ∧ s.issue (.partY 3 1 0) = .ok () ∧ s2.dst .A 3 0 = .ok t :=
  ⟨tileAt 0 .A ctx0, _, _, _, _, rfl, rfl, rfl, rfl, rfl, rfl⟩
theorem wit_ComputesF : ∃ (s s1 s2 t : State) (c : Ctx), s.issue (.fadd 3 1 2) = .ok () ∧ s.src .C 1 = .ok (6, s1) ∧
    s1.src .C 2 = .ok (-4, s2) ∧ s2.here = .ok (0, 0, c) ∧ (0 : Flags) &&& c.enables = 0 ∧
    (s2.setCtx 0 0 c).dst .C 3 1 = .ok t := ⟨tileAt 0 .C ctx0, _, _, _, _, rfl, rfl, rfl, rfl, rfl, rfl⟩
/-- An enabled overflow (FPC bit 8): R101's first row traps. -/
theorem wit_ComputesF_traps : (0x14 : Flags) &&& ({ ctx0 with fpc := 0x100 } : Ctx).enables ≠ 0 := by decide
theorem wit_ScalarFloatingPoint_ffma : ∃ (s s1 s2 s3 : State) (c : Ctx), s.issue (.ffma 3 1 2) = .ok () ∧
    s.src .C 1 = .ok (6, s1) ∧ s1.src .C 2 = .ok (-4, s2) ∧ s2.src .C 3 = .ok (0, s3) ∧ s3.here = .ok (0, 0, c) :=
  ⟨tileAt 0 .C ctx0, _, _, _, _, rfl, rfl, rfl, rfl, rfl⟩
/-- Enabled flags of the other forms: 2^126 x 2^126 overflows, an odd integer above 2^24 and 2.5 are inexact. -/
theorem wit_ScalarFloatingPoint_traps :
    (Fmt.fp32.roundEx Modes.ne (FVal.fma .rne (Fmt.fp32.unpack 0x7E800000) (Fmt.fp32.unpack 0x7E800000)
      (Fmt.fp32.unpack 0))).2 &&& ({ ctx0 with fpc := 0x100 } : Ctx).enables ≠ 0 ∧
    (Fmt.fp32.ofInt Modes.ne 16777217).2 &&& ({ ctx0 with fpc := 0x40 } : Ctx).enables ≠ 0 ∧
    (toInt .rne (-2 ^ 63) (2 ^ 63 - 1) (Fmt.fp32.unpack 0x40200000)).2 &&& ({ ctx0 with fpc := 0x40 } : Ctx).enables ≠ 0 := by
  decide +kernel
theorem wit_ScalarFloatingPoint_fcvt : ∃ (s s1 : State) (c : Ctx), s.issue (.fcvtSI 3 1) = .ok () ∧
    s.issue (.fcvtIS 3 1) = .ok () ∧ s.src .C 1 = .ok (6, s1) ∧ s1.here = .ok (0, 0, c) :=
  ⟨tileAt 0 .C ctx0, _, _, rfl, rfl, rfl, rfl⟩
/-- The smallest FP32 number, 1.0 between whose neighbours a value lies, and a value beyond BF16. -/
theorem wit_RoundingToTheFormat : (1 < 2 ^ Fmt.fp32.bits ∧ Fmt.fp32.isNaN 1 = false) ∧
    (Fmt.fp32.unpack 0x3F800000 = .fin false 0x800000 (-23) ∧ 0x3F800000 / 2 ^ Fmt.fp32.mbits % 2 ^ Fmt.fp32.ebits ≠ 0 ∧
      2 ^ 2 < 2 * 3 ∧ 3 < 2 ^ 2 ∧ 0x3F800000 % Fmt.fp32.signBit true < Fmt.fp32.maxPat) ∧
    ((Fmt.bf16.maxPat / 2 ^ Fmt.bf16.mbits : Nat) - Fmt.bf16.bias < (128 : Int) + Nat.log2 1) ∧
    ((-200 : Int) + Nat.log2 1 < Fmt.fp32.emin) := by decide +kernel
theorem wit_ScalarFrame : ∃ (t : State) (d : Ctx), Instr.computesScalar (.add .A 3 1 2) = true ∧
    exec (.add .A 3 1 2) (tileAt 0 .A ctx0) = .next t ∧ t.ctx? 0 0 = some d := ⟨_, _, rfl, rfl, rfl⟩

/-! Control -/

theorem wit_ControlTransfers_branch : ∃ (s s1 : State) (v : Word), s.issue (.bnez 1 0x7FFC) = .ok () ∧
    s.src .A 1 = .ok (v, s1) ∧ v.toInt ≠ 0 ∧ s.issue (.beqz 1 0x7FFC) = .ok () :=
  ⟨tileAt 0 .A ctx0, _, _, rfl, rfl, by decide, rfl⟩
theorem wit_ControlTransfers_jal : ∃ (s t : State), s.issue (.jal 1 16) = .ok () ∧ s.dst .A 1 (s.pc + 4) = .ok t :=
  ⟨tileAt 0 .A ctx0, _, rfl, rfl⟩
theorem wit_ControlTransfers_jalr : ∃ (s s1 s2 t : State), s.issue (.jalr 3 1 0) = .ok () ∧ s.src .A 1 = .ok (6, s1) ∧
    (6 : Word).toNat % 4 ≠ 0 ∧ s.src .A 0 = .ok (0, s2) ∧ (0 : Word).toNat % 4 = 0 ∧
    s2.dst .A 3 (s.pc + 4) = .ok t := ⟨tileAt 0 .A ctx0, _, _, _, rfl, rfl, by decide, rfl, by decide, rfl⟩
theorem wit_ControlTransfers_jalr_far : ∃ (s s1 : State), s.src .A 2 = .ok (-4, s1) ∧ (-4 : Word).toNat % 4 = 0 ∧
    2 ^ 57 ≤ ((-4 : Word) + 0).toNat := ⟨tileAt 0 .A ctx0, _, rfl, by decide, by decide⟩

/-- A front end with `rpt`, 16 additions behind it, and a word of no frame after 3. -/
def ctxR (ws : List IWord) : Ctx := { ctx0 with front := (0x26001820 :: ws).map (fun w => (0x2000000000, w)) }
theorem wit_StreamsAndFrames_rpt : (((ctxR (List.replicate 16 0x00182100)).front.drop 1).take 16).length = 16 ∧
    (((ctxR (List.replicate 16 0x00182100)).front.drop 1).take 16).all (fun p => frameMajor p.2) = true := ⟨rfl, rfl⟩
theorem wit_StreamsAndFrames_rpt_fault : ∃ p ∈ ((ctxR [0x00182100, 0x26001820]).front.drop 1).take 16,
    frameMajor p.2 = false := ⟨(0x2000000000, 0x26001820), by simp [ctxR], rfl⟩
theorem wit_StreamsAndFrames_rpt_waits : (((ctxR [0x00182100]).front.drop 1).take 16).length < 16 ∧
    (ctxR [0x00182100]).atDone = false ∧
    (((ctxR [0x00182100]).front.drop 1).take 16).all (fun p => frameMajor p.2) = true := ⟨by simp [ctxR], rfl, rfl⟩
theorem wit_StreamsAndFrames_retire : (tileAt 0 .C (ctxR [])).ctx? 0 0 = some (ctxR []) ∧ (ctxR []).frame = none ∧
    ({ ctx0 with frame := some ⟨[(0, 0x00182100)], 2, 3, 0, 0⟩ } : Ctx).frame = some ⟨[(0, 0x00182100)], 2, 3, 0, 0⟩ :=
  ⟨rfl, rfl, rfl⟩
theorem wit_StreamsAndFrames_aFront : ctx0.aFront = [] ∧ ctxAhead.aFront = [⟨0x2000000000, 0x80182100, 0, 0⟩] ∧
    ({ ctxAhead with aFront := ctxAhead.aFront ++ ctxAhead.aFront } : Ctx).aFront =
      ⟨0x2000000000, 0x80182100, 0, 0⟩ :: ⟨0x2000000000, 0x80182100, 0, 0⟩ :: [] := ⟨rfl, rfl, rfl⟩
theorem wit_StreamsAndFrames_rename : (0x00182100 : IWord).extractLsb' 25 6 = 0 ∧
    (0x50A00000 : IWord).extractLsb' 25 6 = 0x28 := by decide

theorem wit_TasksYieldTrapAndEnd : ∃ (s : State) (c : Ctx) (l : Launch), s.issue (.nop .A) = .ok () ∧ s.issue .yield = .ok () ∧
    s.here = .ok (0, 0, c) ∧ s.issue (.trap 9) = .ok () ∧ s.issue (.brk 9) = .ok () ∧ s.turn = .tile 0 0 .A ∧
    s.ctx? 0 0 = some c ∧ s.launch? c.task.msg.launch = some l ∧ s.cRetired 0 0 c = true ∧ s.ownCommands 0 0 c = [] ∧
    ∀ k, k < 4 → vget [] c.out k = [] := ⟨tileAt 0 .A ctx0, _, _, rfl, rfl, rfl, rfl, rfl, rfl, rfl, rfl, rfl, rfl, by decide⟩
theorem wit_Done_partlyWritten : (tileAt 0 .A ctxQ).cRetired 0 0 ctxQ = true ∧ (tileAt 0 .A ctxQ).ownCommands 0 0 ctxQ = [] ∧
    vget [] ctxQ.out 1 ≠ [] ∧ vget [] ctxQ.out 0 = [] := by decide +kernel
theorem wit_Done_waits : (tileAt 0 .A (ctxR [])).cRetired 0 0 (ctxR []) = false := by decide +kernel

theorem wit_StepsAndSafePoints_step : ∃ l, (tileAt 0 .A ctx0).launch? ctx0.task.msg.launch = some l ∧
    ctx0.task.msg.dom = 0 ∧ ctx0.aWait = none ∧ ctx1.task.msg.dom ≠ 0 ∧
    ({ kind := .step 0, since := 0, inst := .step } : Wait).kind = .step 0 ∧ ({ kind := .step 0, since := 0, inst := .step } : Wait).inst = .step ∧ (0 ≤ l.stepPh) :=
  ⟨_, rfl, rfl, rfl, by decide, rfl, rfl, by decide⟩
/-- A tile whose task waits in step phase 0, the launch's running phase `ph`. -/
def stepping (ph : Nat) : State := { tileAt 0 .A { ctx0 with aWait := some ⟨.step 0, 0, .step⟩ } with
  launches := [(1, { placeLaunch 0 with stepPh := ph })] }
theorem wit_StepsAndSafePoints_waiting : ∃ (c : Ctx) (l : Launch) (w : Wait), (stepping 0).turn = .tile 0 0 .A ∧
    (stepping 0).ctx? 0 0 = some c ∧ (stepping 0).launch? c.task.msg.launch = some l ∧ c.task.msg.dom = 0 ∧
    c.aWait = some w ∧ w.kind = .step 0 ∧ w.inst = .step ∧ l.stepPh ≤ 0 := ⟨_, _, _, rfl, rfl, rfl, rfl, rfl, rfl, rfl, by decide⟩
theorem wit_StepsAndSafePoints_completed : ∃ (c : Ctx) (l : Launch) (w : Wait), (stepping 1).turn = .tile 0 0 .A ∧
    (stepping 1).ctx? 0 0 = some c ∧ (stepping 1).launch? c.task.msg.launch = some l ∧ c.task.msg.dom = 0 ∧
    c.aWait = some w ∧ w.kind = .step 0 ∧ w.inst = .step ∧ 0 < l.stepPh := ⟨_, _, _, rfl, rfl, rfl, rfl, rfl, rfl, rfl, by decide⟩
set_option maxRecDepth 100000 in
theorem wit_StepsAndSafePoints_safept : ∃ (s1 s2 s3 s4 s5 : State) (m0 m1 m2 : Word),
    let c : Ctx := { ctx0 with safemap := 0x1000000000 }
    let s := mapped 0 .A c [] { preempt := some 0 }
    let sp := s.spaceOf 0
    (s.tile 0).preempt ≠ none ∧ s.cRetired 0 0 c = true ∧ c.quiet = true ∧
    s.homeWord sp 0x1000000060 = .ok (m0, s1) ∧ s1.homeWord sp 0x1000000068 = .ok (m1, s2) ∧
    s2.homeWord sp 0x1000000070 = .ok (m2, s3) ∧ s3.homeWord sp 0x1000000078 = .ok (0, s4) ∧ m0.toNat < 2 ^ 48 ∧
    m1.toNat < 2 ^ 48 ∧ m2.toNat < 2 ^ 36 ∧ (liveUnits m0 m1 m2).foldlM (fun s u => s.scrub 0 0 u) s4 = .ok s5 :=
  ⟨_, _, _, _, _, _, _, _, by decide, rfl, rfl, rfl, rfl, rfl, rfl, by decide +kernel, by decide +kernel, by decide +kernel, rfl⟩

/-! System registers and tokens -/

theorem wit_SystemRegisters_sysrd : ∃ (s x : State), s.issue (.sysrd .A 3 7) = .ok () ∧ s.dst .A 3 7 = .ok x :=
  ⟨tileAt 0 .A ctx0, _, rfl, rfl⟩
theorem wit_SystemRegisters_syswr : ∃ (s s1 : State), s.issue (.syswr .C 1 0) = .ok () ∧ s.src .C 1 = .ok (6, s1) ∧
    s1.turn = .tile 0 0 .C ∧ s.turn = s1.turn ∧ s1.ctx? 0 0 = some ctx0 ∧ s.issue (.syswr .C 1 6) = .ok () ∧
    s.issue (.syswr .C 1 0x28) = .ok () := ⟨tileAt 0 .C ctx0, _, rfl, rfl, rfl, rfl, rfl, rfl, rfl⟩
theorem wit_SystemRegisters_croft : ∃ x y : State, (croftAt true).dst .A 3 1 = .ok x ∧
    ((croftAt true).croft 0).level = true ∧ ((croftAt false).croft 0).level = false ∧
    (croftAt true).src .A 1 = .ok (6, croftAt true) ∧
    ({ croftAt true with draws := 1 } : State).dst .A 3 (Config.freeValue 0) = .ok y := ⟨_, _, rfl, rfl, rfl, rfl, rfl⟩

/-- A tile whose task holds 20 tokens, and one under a notice of 5. -/
def ctxT : Ctx := { ctx0 with tok := { own := 20 } }
def ctxN : Ctx := { ctx0 with tok := { own := 20, notice := 5, left := 100 } }
theorem wit_TokensOfATask_tokreq : ∃ (s s1 t : State) (c : Ctx), s.issue (.tokreq 3 1) = .ok () ∧ s.src .A 1 = .ok (6, s1) ∧
    s1.here = .ok (0, 0, c) ∧ min (6 : Word).toNat 128 ≤ c.tok.avail ∧
    (s1.setCtx 0 0 { c with tok := { c.tok with want := 0, opened := false } }).dst .A 3
      (BitVec.ofNat 64 (256 * (c.tok.held % 256))) = .ok t :=
  ⟨tileAt 0 .A ctxT, _, _, _, rfl, rfl, rfl, by decide +kernel, rfl⟩
/-- More than is held: refused under a notice, granted from the Drover, and refused when the cap of 0 gives nothing. -/
theorem wit_TokensOfATask_tokreq_more :
    (let s := tileAt 0 .A { ctxN with x := vput ctx0.x 1 100 }
     ctxN.tok.avail < min 100 128 ∧ ctxN.tok.notice ≠ 0 ∧ s.issue (.tokreq 3 1) = .ok ()) ∧
    (let s := { tileAt 0 .A ctxT with vis := [(0, { tokcap := 1000 })] }
     ctxT.tok.avail < min 100 128 ∧
     min (min (100 - 20) (s.field 0).drover.free) (min (s.tileRoom 0) (s.capRoom 0)) ≠ 0) ∧
    (let s := tileAt 0 .A ctxT
     min (min (100 - 20) (s.field 0).drover.free) (min (s.tileRoom 0) (s.capRoom 0)) = 0) := by
  refine ⟨⟨by decide +kernel, by decide +kernel, rfl⟩, ⟨by decide +kernel, by decide +kernel⟩, by decide +kernel⟩
theorem wit_TokensOfATask_others : ∃ (s s1 s2 t u v : State), s.issue (.tokwait 3) = .ok () ∧ ctxT.tok.want = 0 ∧
    s.dst .A 3 (BitVec.ofNat 64 (256 * (ctxT.tok.held % 256))) = .ok t ∧ s.issue (.tokq 3) = .ok () ∧
    s.issue (.tokret 3 1) = .ok () ∧ s.src .A 1 = .ok (6, s1) ∧ s1.ctx? 0 0 = some ctxT ∧ s1.turn = s.turn ∧
    ctxT.tok.loans = [] ∧ ctxT.tok.notice = 0 ∧ s1.dst .A 3 14 = .ok u ∧ s.issue (.toklend 3 1 0) = .ok () ∧
    s1.src .A 0 = .ok (0, s2) ∧ s2.runningOn 0 1 6 = none ∧ s2.dst .A 3 0 = .ok v :=
  ⟨tileAt 0 .A ctxT, _, _, _, _, _, rfl, rfl, rfl, rfl, rfl, rfl, rfl, rfl, rfl, rfl, rfl, rfl, rfl, by decide +kernel, rfl⟩
theorem wit_TokensOfATask_waits : ({ ctxT with tok := { ctxT.tok with want := 3 } } : Ctx).tok.want ≠ 0 := by decide
/-- A holding with borrowed tokens, some of its tokens under notice from its own field and from the lender's. -/
def tokB (f : Nat) : Holding := { own := 20, loans := [⟨8, 1, (0, 0, 9), 1⟩], notice := 5, by_ := f }
theorem wit_TokensOfATask_borrowed (f : Nat) (h : f = 0 ∨ f = 1) : ∃ s1 : State,
    let s := tileAt 0 .A { ctxT with tok := tokB f }
    s.issue (.tokret 3 1) = .ok () ∧ s.src .A 1 = .ok (6, s1) ∧ s1.ctx? 0 0 = some { ctxT with tok := tokB f } ∧
    s1.turn = s.turn ∧ (tokB f).notice ≤ (if (tokB f).by_ = siteField 0 then (tokB f).own else 0) +
      (((tokB f).loans.filter (fun l => l.field == (tokB f).by_)).map (·.n)).sum ∧ ∃ t, s1.dst .A 3 19 = .ok t := by
  rcases h with rfl | rfl <;> exact ⟨_, rfl, rfl, rfl, rfl, by decide, _, rfl⟩
/-- A lender that runs on its tile, and one that does not. -/
theorem wit_TokensOfATask_returned : ((tileAt 0 .A ctxT).tile 0).slotOf ctxT.task.who = some 0 ∧
    ((tileAt 0 .A ctxT).tile 0).slotOf (0, 0, 9) = none ∧ ((tileAt 0 .A ctxT).tile 0).tokens + 108 ≤ 128 := by decide +kernel

theorem wit_TokensOfATask_toklend : ∃ p, (tileAt 0 .A ctxT).runningOn 0 1 0x8000 = some p := by
  exact ⟨_, rfl⟩

/-! Memory -/

/-- Local address 0x40 of the task's own tile; x1 holds it. -/
def ctxL : Ctx := { ctx0 with x := vput (vput ctx0.x 1 0x40) 2 0x1234 }
theorem wit_localOk : (tileAt 0 .A ctxL).localOk 0 0x40 8 := ⟨by decide, rfl, rfl, rfl, by decide, by decide⟩
theorem wit_LoadsAndStores_load : ∃ (s s1 s2 t : State) (bs : List Byte), s.issue (.ldD 3 1 0 0) = .ok () ∧
    s.src .A 1 = .ok (0x40, s1) ∧ s1.load (effAddr 0x40 0 0 8) 8 = .ok (bs, s2) ∧
    s2.dst .A 3 (BitVec.ofNat 64 (leNat bs)) = .ok t :=
  ⟨tileAt 0 .A ctxL, _, _, _, _, rfl, rfl, rfl, rfl⟩
theorem wit_LoadsAndStores_align : ∃ (s s1 : State) (x : Nat × Nat × Ctx), s.issue (.ldD 3 1 0 0) = .ok () ∧
    s.src .A 1 = .ok (6, s1) ∧ (effAddr 6 0 0 8).toNat % 8 ≠ 0 ∧ s1.here = .ok x :=
  ⟨tileAt 0 .A ctx0, _, _, rfl, rfl, by decide, rfl⟩
theorem wit_LoadsAndStores_croft : ∃ (s s1 s2 t : State) (bs : List Byte), s.issue (.ldD 3 0 0 1) = .ok () ∧
    s.src .A 0 = .ok (0, s1) ∧ s1.load (effAddr 0 1 0 8) 8 = .ok (bs, s2) ∧
    s2.dst .A 3 (BitVec.ofNat 64 (leNat bs)) = .ok t := ⟨croftAt true, _, _, _, _, rfl, rfl, rfl, rfl⟩
theorem wit_LoadsAndStores_store : ∃ (s s1 s2 t : State), s.issue (.stD 2 1 0 0) = .ok () ∧ s.src .A 1 = .ok (0x40, s1) ∧
    s1.src .A 2 = .ok (0x1234, s2) ∧ s2.store (effAddr 0x40 0 0 8) (leBytes 8 0x1234) = .ok t :=
  ⟨tileAt 0 .A ctxL, _, _, _, rfl, rfl, rfl, rfl⟩
/-- A misaligned store, and one of domain 1 to another tile's scratchpad. -/
theorem wit_LoadsAndStores_store_align : ∃ (s s1 s2 : State) (c : Ctx), s.issue (.stD 2 1 0 0) = .ok () ∧
    s.src .A 1 = .ok (6, s1) ∧ s1.src .A 2 = .ok (-4, s2) ∧ (effAddr 6 0 0 8).toNat % 8 ≠ 0 ∧ s2.here = .ok (0, 0, c) ∧
    c.task.msg.dom = 0 := ⟨tileAt 0 .A ctx0, _, _, _, rfl, rfl, rfl, by decide, rfl, rfl⟩
theorem wit_LoadsAndStores_store_domain : ∃ (s s1 s2 : State) (c : Ctx), s.issue (.stD 2 1 0 0) = .ok () ∧
    s.src .A 1 = .ok (0x10000000, s1) ∧ s1.src .A 2 = .ok (-4, s2) ∧ s2.here = .ok (0, 0, c) ∧ c.task.msg.dom ≠ 0 ∧
    otherTile 0 (effAddr 0x10000000 0 0 8) = true :=
  ⟨tileAt 0 .A { ctx1 with x := vput ctx1.x 1 0x10000000 }, _, _, _, rfl, rfl, rfl, rfl, by decide, by decide +kernel⟩
/-- R189, R190: after an acquire, and after its own store to the range, a kept operand read serves the tile no more. -/
def readAt : State := tileAt 0 .A ctxL { opReads := [⟨[(0x40, 64)], 0, 0, [2], []⟩] }
theorem test_acq_ends_kept_reads : (match exec (.acq .t) readAt with
    | .next t => (t.tile 0).opReads.map (·.served)
    | _ => []) = [[0, 2]] := by decide +kernel
theorem test_store_ends_kept_reads : (match exec (.stD 2 1 0 0) readAt with
    | .next t => (t.tile 0).opReads.map (·.served)
    | _ => []) = [[0, 2]] := by decide +kernel
/-- Field 0 with one live slice, 16 dirty lines in one set, and a page by which the walk found their frames. -/
def fullSet : State := { State.reset with
  choices := [3]
  fields := [(0, { fieldReset 0 with live := 1 })]
  leaves := [{ vi := 0, asid := 0, vpage := 0, span := 65536, pte := 0xCF, pteAt := 0 }]
  l2 := (List.range 16).map (fun k => ⟨.pa (8192 * k), 7, true, 0, 0⟩) }
/-- R7: a 17th line of the set takes the way of another, which is in HBM then. -/
theorem test_full_set_makes_room : (let t := fullSet.lineWrite (.pa (8192 * 16)) 0 [5]
    (t.l2.length, t.l2.map (·.key) |>.contains (.pa (8192 * 16)), t.mem.length)) = (16, true, 1) := by decide +kernel
theorem wit_MemoryAccesses_local : (0x40 : Word).toNat < 2 ^ 36 ∧ (0x40 : Word).toNat % 8 = 0 ∧
    ((tileAt 0 .A ctxL).tile 0).overlaps 0x40 8 false = false ∧ ((tileAt 0 .A ctxL).tile 0).sound ∧
    ((tileAt 0 .A ctxL).tile 0).overlaps 0x40 8 true = false ∧ ctxL.task.msg.dom = 0 :=
  ⟨by decide, by decide, rfl, ⟨rfl, rfl, rfl⟩, rfl, rfl⟩
/-- An A-stream that nothing holds back, and one that has popped what its C-stream pushed after an ME.MMA. -/
theorem wit_heldBack : (tileAt 0 .A ctxL).heldBack = false ∧
    (tileAt 0 .A { ctxL with popped := 1 } { cmds := [{ words := [0x2001000000000000], port := 4, seq := 0, slot := some 0, task := 7, msg := task0.msg }] }).heldBack = true := by
  decide +kernel
/-- An address of a tile that no launch holds, one under an inbound range, and one of another tile in domain 1. -/
theorem wit_MemoryAccesses_refused : ¬ (tileAt 0 .A ctxL).localOk 0 0x0000100000 8 ∨
    ((tileAt 0 .A ctxL).tile 1).named = false := .inr rfl
theorem wit_MemoryAccesses_range :
    ({ ranges := [{ inbound := true, lo := 0x40, hi := 0x80, site := 0, seq := 1 }] } : Tile).overlaps 0x40 8 false = true := by
  decide
theorem wit_MemoryAccesses_domain : ctx1.task.msg.dom ≠ 0 ∧ locTile 0x10000000 ≠ siteIdx 0 := by decide

/-- The same page with attribute `a` (R371). -/
def attred (site : Nat) (m : Stream) (c : Ctx) (a : Nat) (t : Tile := {}) : State := { tileAt site m c t with
  clusters := [(siteCluster site, { tlb :=
    [{ vi := 0, asid := 0, vpage := 0x1000000, span := 1, pte := BitVec.ofNat 64 (0x10CF + 16 * a), pteAt := 0 }] })] }

/-- A line of the first global address in the tile's L1, writable. -/
def line0 : L1Line := { asid := 0, line := 0x40000000, key := .pa 0x40, data := 0, wr := true }
theorem wit_MemoryAccesses_hit : let s := tileAt 0 .A ctxL { l1 := [line0] }
    2 ^ 36 ≤ (0x1000000000 : Word).toNat ∧ ctxL.task.msg.dom = 0 ∧ ctxL.buf = [] ∧
    (s.tile 0).l1find (s.asidOf 0) ((0x1000000000 : Word).toNat / 64) = some line0 ∧ line0.bad = 0 ∧ line0.poison = 0 ∧
    line0.weak = 0 ∧ line0.wr = true ∧ s.streamPage (s.spaceOf 0) 0x1000000000 = false := ⟨by decide, rfl, rfl, rfl, rfl, rfl, rfl, rfl, rfl⟩
/-- The same line, its page of attribute 2 (stream). -/
theorem wit_MemoryAccesses_hit_stream : let s := attred 0 .A ctxL 2 { l1 := [line0] }
    (s.tile 0).l1find (s.asidOf 0) ((0x1000000000 : Word).toNat / 64) = some line0 ∧ line0.wr = true ∧
    s.streamPage (s.spaceOf 0) 0x1000000000 = true := ⟨rfl, rfl, rfl⟩
set_option maxRecDepth 100000 in
/-- A miss on a write-back page and on an uncached one. -/
theorem wit_MemoryAccesses_miss (a : Nat) (h : a = 0 ∨ a = 1 ∨ a = 2) : ∃ (leaf leaf' : Leaf) (k k' : LineKey) (s1 s1' : State),
    let s := attred 0 .A ctxL a
    ctxL.task.msg.dom = 0 ∧ ctxL.buf = [] ∧ (s.tile 0).l1find (s.asidOf 0) ((0x1000000000 : Word).toNat / 64) = none ∧
    s.reach (s.spaceOf 0) .load 0x1000000000 = .ok (leaf, k, s1) ∧
    s.reach (s.spaceOf 0) .store 0x1000000000 = .ok (leaf', k', s1') ∧
    (s1.lineErrors k (some ctxL.task.msg.launch)).poisoned k = false ∧ pteAttr leaf.pte = a ∧ pteAttr leaf'.pte = a := by
  rcases h with rfl | rfl | rfl <;> exact ⟨_, _, _, _, _, _, rfl, rfl, rfl, rfl, rfl, rfl, rfl, rfl⟩
set_option maxRecDepth 100000 in
theorem wit_MemoryAccesses_buffered : ∃ (leaf : Leaf) (s1 : State) (e : Ctx),
    let s := mapped 0 .A { ctx1 with specLines := [0x40000000] } []
    s.translate (s.spaceOf 0) .store 0x1000000000 = .ok (leaf, s1) ∧ (leaf.key 0x1000000000).exists = true ∧
    s1.ctx? 0 0 = some e ∧ (0x1000000000 : Word).toNat / 64 ∈ e.specLines :=
  ⟨_, _, _, rfl, rfl, rfl, by decide⟩
theorem wit_LocalStoreFrame : ∃ (s s1 s2 : State) (e : Ctx), s.turn = .tile 0 0 .A ∧ s.ctx? 0 0 = some ctxL ∧
    s.issue (.stD 2 1 0 0) = .ok () ∧ s.src .A 1 = .ok (0x40, s1) ∧ s1.src .A 2 = .ok (0x1234, s2) ∧ s2.ctx? 0 0 = some e ∧
    (effAddr 0x40 0 0 8).toNat < 2 ^ 36 ∧ (effAddr 0x40 0 0 8).toNat % 8 = 0 ∧ s2.localOk 0 (effAddr 0x40 0 0 8) 8 ∧
    (s2.tile 0).overlaps 0x40 8 true = false ∧ ctxL.task.msg.dom = 0 ∧ (s.tile 0).spad.wf = true :=
  ⟨tileAt 0 .A ctxL, _, _, _, rfl, rfl, rfl, rfl, rfl, rfl, by decide, by decide,
    ⟨by decide, rfl, rfl, rfl, by decide, by decide⟩, rfl, rfl, rfl⟩

/-- A tile whose tags 16 and 17 are full, and one whose tags are empty. -/
theorem wit_FullEmptyTags_load : ∃ (s s1 t : State) (c : Ctx), s.issue (.ldfD 3 1 0 0) = .ok () ∧
    s.issue (.ldtD 3 1 0 0) = .ok () ∧ s.src .A 1 = .ok (0x40, s1) ∧ s1.here = .ok (0, 0, c) ∧
    s1.feReady 0 c (effAddr 0x40 0 0 8) 8 (some true) ∧ (s1.tile 0).sound ∧ s1.dst .A 3 0 = .ok t :=
  ⟨tileAt 0 .A ctxL { tags := [16, 17] }, _, _, _, rfl, rfl, rfl, rfl,
    ⟨⟨rfl, by decide, ⟨by decide, rfl, rfl, rfl, by decide, by decide⟩⟩, rfl, by intro v ⟨_, _, _, _, h⟩; exact (nomatch h), rfl, by intro x h; cases h; exact ⟨rfl, by decide⟩⟩, ⟨rfl, rfl, rfl⟩, rfl⟩
theorem wit_FullEmptyTags_store : ∃ (s s1 s2 : State) (c : Ctx), s.issue (.stfD 2 1 0 0) = .ok () ∧
    s.issue (.stxD 2 1 0 0) = .ok () ∧ s.src .A 1 = .ok (0x40, s1) ∧ s1.src .A 2 = .ok (0x1234, s2) ∧
    s2.here = .ok (0, 0, c) ∧ s2.feReady 0 c (effAddr 0x40 0 0 8) 8 (some false) ∧
    s2.feReady 0 c (effAddr 0x40 0 0 8) 8 none :=
  ⟨tileAt 0 .A ctxL, _, _, _, rfl, rfl, rfl, rfl, rfl,
    ⟨⟨rfl, by decide, ⟨by decide, rfl, rfl, rfl, by decide, by decide⟩⟩, rfl, by intro v ⟨_, _, _, _, h⟩; exact (nomatch h), rfl, by intro x h; cases h; exact ⟨rfl, by decide⟩⟩,
    ⟨⟨rfl, by decide, ⟨by decide, rfl, rfl, rfl, by decide, by decide⟩⟩, rfl, by intro v ⟨_, _, _, _, h⟩; exact (nomatch h), rfl, by intro x h; exact (nomatch h)⟩⟩
theorem wit_FullEmptyTags_waits : (feLdf 8).wants = some true ∧ (feLdf 8).size = 8 ∧
    (tileAt 0 .A ctxL).localOk 0 0x40 8 ∧ ((tileAt 0 .A ctxL).tile 0).overlaps 0x40 8 true = false ∧
    (tileAt 0 .A ctxL).heldBack = false ∧ (∀ y, ¬ ctxL.feServed y) ∧
    ∃ w ∈ wordsAt 0x40 8, ((tileAt 0 .A ctxL).tile 0).full w ≠ true :=
  ⟨rfl, rfl, ⟨by decide, rfl, rfl, rfl, by decide, by decide⟩, rfl, rfl, by intro y ⟨_, _, _, _, h⟩; exact (nomatch h), 16,
    by decide, by decide⟩
/-- A context whose access at word 16 the port has served, and a tile with one waiter that is ready. -/
def ctxF (v : Option Word) : Ctx := { ctxL with aWait := some ⟨.fullEmpty 0 16 ⟨false, true, false, false, 0⟩ 0 v, 0, .ldtW 3 1 0 0⟩ }
theorem wit_FullEmptyTags_served : (tileAt 0 .A (ctxF (some 5))).feOk 0 (ctxF (some 5)) 0x40 4 ∧ (ctxF (some 5)).feServed 5 ∧
    ∃ t, (tileAt 0 .A (ctxF (some 5))).dst .A 3 5 = .ok t :=
  ⟨⟨rfl, by decide, ⟨by decide, rfl, rfl, rfl, by decide, by decide⟩⟩, ⟨_, _, _, _, rfl⟩, _, rfl⟩
theorem wit_FullEmptyTags_serves : ∃ (x : FeWaiter) (v : Word) (s1 : State), let s := tileAt 0 .A (ctxF none) { tags := [16] }
    s.feWaiters 0 = [x] ∧ s.feAct x.site 0 x.word x.port x.launch = .ok (v, s1) := ⟨_, _, _, rfl, rfl⟩
theorem wit_FullEmptyTags_no_waiter : ∀ k slot e w tg wd f arr v, (tileAt 0 .A ctxL).ctx? k slot = some e → e.aWait = some w →
    w.kind ≠ .fullEmpty tg wd f arr v := by
  intro k slot e w tg wd f arr v h hw
  have none_ : ∀ j, vget (none : Option Ctx) (Vector.replicate 4 none) j = none := by
    intro j
    unfold vget
    rw [Vector.getElem?_replicate]
    split <;> rfl
  by_cases hk : k = 0
  · subst hk
    by_cases hs : slot = 0
    · subst hs
      obtain rfl : ctxL = e := Option.some.inj h
      exact nomatch hw
    · have hn : (tileAt 0 .A ctxL).ctx? 0 slot = none := by
        show vget none (vput (Vector.replicate 4 none) 0 (some ctxL)) slot = none
        rw [vget_vput_ne _ _ _ hs]
        exact none_ slot
      rw [hn] at h
      exact nomatch h
  · have h0 : (tileAt 0 .A ctxL).tile k = {} := by
      simp [State.tile, sget, tileAt, Ne.symm hk]
    have hn : (tileAt 0 .A ctxL).ctx? k slot = none := by
      unfold State.ctx?
      rw [h0]
      exact none_ slot
    rw [hn] at h
    exact nomatch h
theorem wit_FullEmptyTags_refused : ctx1.task.msg.dom ≠ 0 ∧ ctx0.task.msg.dom = 0 ∧
    2 ^ 36 ≤ (0x1000000000 : Word).toNat := by decide
theorem wit_FullEmptyTags_ranges : ∃ (s s1 s2 : State) (c : Ctx), s.src .A 1 = .ok (0x40, s1) ∧ s1.src .A 2 = .ok (8, s2) ∧
    s2.here = .ok (0, 0, c) ∧ (0x40 : Word).toNat % 4 = 0 ∧ (8 : Word).toNat % 4 = 0 ∧ c.task.msg.dom = 0 ∧
    s.issue (.fefill 1 2) = .ok () ∧ s.issue (.feempty 1 2) = .ok () ∧ (8 : Word).toNat % 2 ^ 32 ≠ 0 ∧
    s2.localOk 0 0x40 8 ∧ (s2.tile 0).overlaps 0x40 8 true = false :=
  ⟨tileAt 0 .A { ctxL with x := vput ctxL.x 2 8 }, _, _, _, rfl, rfl, rfl, by decide, by decide, rfl, rfl, rfl, by decide,
    ⟨by decide, rfl, rfl, rfl, by decide, by decide⟩, rfl⟩
theorem wit_FullEmptyTags_empty_range : (0x100000000 : Word).toNat % 2 ^ 32 = 0 ∧ (0x100000000 : Word).toNat % 4 = 0 := by
  decide

/-- Window 0 of the tile has bytes; a shape of one row and one column. -/
theorem wit_VectorLoads : ∃ (s s1 s2 s3 s4 : State) (c : Ctx) (starts : List Word) (chk : List (Nat × List (Word × Nat)))
    (bs : List Byte), s.issue (.vld 28 1 0 0) = .ok () ∧ s.src .A 1 = .ok (0x40, s1) ∧ s1.src .A 0 = .ok (0, s2) ∧
    s2.here = .ok (0, 0, c) ∧ (vget [] c.vq 0).length < 4 ∧ c.aShape = .ok (1, 1) ∧
    vecWindow ((s2.tile 0).window (locWin 0x40)) = .ok none ∧
    s2.rowStarts 0 c.task.msg.launch false 0x40 0 1 = .ok (starts, s3) ∧
    starts.mapM (fun x => s3.checkRow 0 (locWin 0x40) 0 x 1) = .ok chk ∧
    chk.foldlM (fun (acc : List Byte × State) row => do
      let r ← acc.2.readRow c.task.msg.launch row
      .ok (acc.1 ++ r.1, r.2)) ([], s3) = .ok (bs, s4) :=
  ⟨tileAt 0 .A ctxL, _, _, _, _, _, _, _, _, rfl, rfl, rfl, rfl, by decide, rfl, rfl, rfl, rfl, rfl⟩
/-- The same with the row's place in an index record at 0x100, and with one element for the row. -/
theorem wit_VectorLoads_indexed : ∃ (s s1 s2 s3 s4 : State) (c : Ctx) (starts : List Word) (chk : List (Nat × List (Word × Nat)))
    (bs : List Byte), s.issue (.vldx 28 1 4 0) = .ok () ∧ s.issue (.vldb 28 1 4 0) = .ok () ∧ s.src .A 1 = .ok (0x40, s1) ∧
    s1.src .A 4 = .ok (0x100, s2) ∧ s2.here = .ok (0, 0, c) ∧ (vget [] c.vq 0).length < 4 ∧ c.aShape = .ok (1, 1) ∧
    vecWindow ((s2.tile 0).window (locWin 0x40)) = .ok none ∧
    s2.rowStarts 0 c.task.msg.launch true 0x40 0x100 1 = .ok (starts, s3) ∧
    starts.mapM (fun x => s3.checkRow 0 (locWin 0x40) 0 x 1) = .ok chk ∧
    chk.foldlM (fun (acc : List Byte × State) row => do
      let r ← acc.2.readRow c.task.msg.launch row
      .ok (acc.1 ++ (List.replicate 1 r.1).flatten, r.2)) ([], s3) = .ok (bs, s4) :=
  ⟨tileAt 0 .A { ctxL with x := vput ctxL.x 4 0x100 }, _, _, _, _, _, _, _, _, rfl, rfl, rfl, rfl, rfl, by decide, rfl, rfl, rfl,
    rfl, rfl⟩
theorem wit_VectorStores_indexed : ∃ (s s1 s2 s3 : State) (c : Ctx) (e : VEntry) (starts : List Word)
    (chk : List (Nat × List (Word × Nat))), s.issue (.vstx 30 1 4 0) = .ok () ∧ s.src .A 1 = .ok (0x40, s1) ∧
    s1.src .A 4 = .ok (0x100, s2) ∧ s2.here = .ok (0, 0, c) ∧ c.aShape = .ok (1, 1) ∧ vget [] c.vq 2 = [e] ∧ e.rows = 1 ∧
    e.cols = 1 ∧ vecWindow ((s2.tile 0).window (locWin 0x40)) = .ok none ∧
    (s3.modCtx 0 0 (fun c => { c.setV 2 [] with popped := Nat.max c.popped e.mark })).heldBack = false ∧
    s2.rowStarts 0 c.task.msg.launch true 0x40 0x100 1 = .ok (starts, s3) ∧ c.task.msg.dom = 0 ∧
    starts.mapM (fun x => s3.checkRow 0 (locWin 0x40) 0 x (1 * e.ty.size)) = .ok chk ∧
    ∀ row ∈ chk, (s3.tile row.1).ranges = [] :=
  ⟨tileAt 0 .A { ctxL with x := vput ctxL.x 4 0x100, vq := vput ctxL.vq 2 [⟨1, 1, .i8, 5, 0⟩] }, _, _, _, _, _, _, _, rfl, rfl,
    rfl, rfl, rfl, rfl, rfl, rfl, rfl, rfl, rfl, rfl, rfl, by decide⟩
/-- An entry pushed after an ME.MMA that has not read its operands. -/
theorem wit_VectorStores_held : ∃ (s : State) (e : VEntry), s.ctx? 0 0 = some { ctxL with vq := vput ctxL.vq 2 [e] } ∧
    (s.modCtx 0 0 (fun c => { c.setV 2 [] with popped := Nat.max c.popped e.mark })).heldBack = true :=
  ⟨tileAt 0 .A { ctxL with vq := vput ctxL.vq 2 [⟨1, 1, .i8, 5, 7⟩] } 
    { cmds := [{ words := [0x2001000000000000], port := 4, seq := 3, slot := some 0, task := 7, msg := task0.msg }] },
    ⟨1, 1, .i8, 5, 7⟩, rfl, by decide⟩
/-- A window of FP32 that a scale format makes unfit for vector words has the size of its format. -/
theorem wit_VectorStores_unfit : vtypeOf (fld (0x17 : Word) 0 4) = some .fp32 ∧ 4096 < 64 * 64 * VType.fp32.size ∧
    vecWindow 0x17 = .error (.trap { code := .winfmt }) := ⟨rfl, by decide, rfl⟩
/-- A 64 x 64 entry of bytes, and the shape of 64 x 64 through a window of a 2-byte format. -/
theorem wit_VectorStores_shape : vecWindow (({ wd := vput (Vector.replicate 16 0xE) 1 6 } : Tile).window 1) = .ok (some .bf16) ∧
    4096 < 64 * 64 * VType.bf16.size ∧ ({ ctxL with vshape := 0x3F3F } : Ctx).aShape = .ok (64, 64) := ⟨rfl, by decide, rfl⟩
theorem wit_VectorStores : ∃ (s s1 s2 s3 : State) (c : Ctx) (e : VEntry) (starts : List Word)
    (chk : List (Nat × List (Word × Nat))), s.issue (.vst 30 1 0 0) = .ok () ∧ s.src .A 1 = .ok (0x40, s1) ∧
    s1.src .A 0 = .ok (0, s2) ∧ s2.here = .ok (0, 0, c) ∧ c.aShape = .ok (1, 1) ∧ vget [] c.vq 2 = [e] ∧ e.rows = 1 ∧
    e.cols = 1 ∧ vecWindow ((s2.tile 0).window (locWin 0x40)) = .ok none ∧
    s2.rowStarts 0 c.task.msg.launch false 0x40 0 1 = .ok (starts, s3) ∧ c.task.msg.dom = 0 ∧
    starts.mapM (fun x => s3.checkRow 0 (locWin 0x40) 0 x (1 * e.ty.size)) = .ok chk ∧
    ∀ row ∈ chk, (s3.tile row.1).ranges = [] :=
  ⟨tileAt 0 .A { ctxL with vq := vput ctxL.vq 2 [⟨1, 1, .i8, 5, 0⟩] }, _, _, _, _, _, _, _, rfl, rfl, rfl, rfl, rfl, rfl, rfl, rfl,
    rfl, rfl, rfl, rfl, by decide⟩
theorem wit_VectorRows : ∃ row, (tileAt 0 .A ctxL).checkRow 0 0 0 0x40 4 = .ok row ∧
    ((tileAt 0 .A ctxL).tile row.1).ranges = [] ∧ ((tileAt 0 .A ctxL).tile row.1).spad.wf = true := ⟨_, rfl, rfl, rfl⟩

theorem wit_FencesOrder : (tileAt 0 .A ctx0).turn = .tile 0 0 .A ∧ (tileAt 0 .A ctx0).ctx? 0 0 = some ctx0 ∧
    ctx0.task.msg.dom = 0 ∧ ctx1.task.msg.dom ≠ 0 ∧ (tileAt 0 .A ctx0).cRetired 0 0 ctx0 = true ∧ ((tileAt 0 .A ctx0).tile 0).unread ctx0 ((tileAt 0 .A ctx0).tile 0).seq = false ∧
    (tileAt 0 .A (ctxR [])).cRetired 0 0 (ctxR []) = false := ⟨rfl, rfl, rfl, by decide, rfl, rfl, rfl⟩
theorem wit_FencesOrder_qfence : ∃ (s s1 : State) (c : Ctx), s.issue (.qfence 1) = .ok () ∧ s.src .A 1 = .ok (6, s1) ∧
    s1.here = .ok (0, 0, c) ∧ (6 : Word) ≠ 0 ∧ (6 : Word).toNat < 8 ∧ c.front = [] ∧ c.frame = none ∧
    (∀ k, k < 3 → (6 : Word).getLsbD k = true → vget [] c.out k = []) ∧
    (∀ k, k < 3 → (6 : Word).getLsbD k = true → portUsed (s1.tile 0) 0 c k < 16) :=
  ⟨tileAt 0 .A ctx0, _, _, rfl, rfl, rfl, by decide, by decide, rfl, rfl, by decide, by decide +kernel⟩
theorem wit_FencesOrder_qfence_bad : (2 : Word).toNat < 4 ∧ (2 : Word).getLsbD 1 = true ∧ vget [] ctxQ.out 1 ≠ [] := by
  decide +kernel

theorem wit_RangesAndDiscards : ∃ (s s1 s2 : State) (c : Ctx), s.src .A 1 = .ok (0x1000000000, s1) ∧
    s1.src .A 2 = .ok (64, s2) ∧ s2.turn = .tile 0 0 .A ∧ s2.ctx? 0 0 = some c ∧ s.issue (.cwb 1 2) = .ok () ∧
    s.issue (.cinv 1 2) = .ok () ∧ s.issue (.pf 1 2) = .ok () ∧ s.issue (.pf2 1 2) = .ok () ∧ s.issue (.disc 1 2) = .ok () ∧
    2 ^ 36 ≤ (0x1000000000 : Word).toNat ∧ c.task.msg.dom = 0 :=
  ⟨tileAt 0 .A { ctx0 with x := vput (vput ctx0.x 1 0x1000000000) 2 64 }, _, _, _, rfl, rfl, rfl, rfl, rfl, rfl, rfl, rfl, rfl,
    by decide, rfl⟩
/-- A line of the L1 with marked bytes and no other of its key, and a line of L2 that HBM has room for. -/
def dirty0 : L1Line := { line0 with data := 5, mask := 1 }
theorem wit_WriteBacks : let s := tileAt 0 .A { ctx0 with x := vput (vput ctx0.x 1 0x1000000000) 2 64 } { l1 := [dirty0] }
    dirty0 ∈ (s.tile 0).l1 ∧ dirty0.key.exists = true ∧ dirty0.key.isUnb = false ∧
    (∀ x ∈ (s.tile 0).l1, x.key = dirty0.key → x.mask ≠ 0 → x = dirty0) ∧ dirty0.asid = s.asidOf 0 ∧
    (0x1000000000 : Word).toNat / 64 ≤ dirty0.line ∧
    dirty0.line ≤ ((0x1000000000 : Word).toNat + (64 : Word).toNat % 2 ^ 32 - 1) / 64 ∧
    dirty0.line ∉ ctx0.specLines ∧ (64 : Word).toNat % 2 ^ 32 ≠ 0 := by decide +kernel
theorem wit_WriteBacks_hbm : let s : State := { State.reset with l2 := [⟨.pa 0x40, 5, false, 0, 0⟩] }
    s.mem.wf = true ∧ s.stackOk 0x40 = true ∧ (LineKey.pa 0x40).exists = true ∧
    s.l2find (.pa 0x40) = some ⟨.pa 0x40, 5, false, 0, 0⟩ := by decide +kernel
set_option maxRecDepth 100000 in
theorem wit_RangesAndDiscards_disc : ∃ t, (List.range (64 / 64)).foldlM (fun s k =>
    State.discLine s 0 ((0x1000000000 : Word).toNat / 64 + k)) (mapped 0 .A ctx0 []) = .ok t := ⟨_, rfl⟩
/-- An unbacked page homed in field 0, and the launch's field 0. -/
theorem wit_RangesAndDiscards_pmig : ∃ (s s1 s2 s3 : State) (c : Ctx) (l : Launch) (leaf : Leaf),
    s.issue (.pmig 1 0) = .ok () ∧ s.src .A 1 = .ok (0x1000000000, s1) ∧ s1.src .A 0 = .ok (0, s2) ∧ s2.here = .ok (0, 0, c) ∧
    c.task.msg.dom = 0 ∧ s2.translate (s2.spaceOf 0) .own 0x1000000000 = .ok (leaf, s3) ∧
    (0x1000000000 : Word).toNat % (4096 * leaf.span) = 0 ∧ pteUnb leaf.pte = true ∧
    s3.launch? c.task.msg.launch = some l ∧ 0 ∈ l.fields :=
  ⟨{ tileAt 0 .A { ctx0 with x := vput ctx0.x 1 0x1000000000 } with
      clusters := [(0, { tlb := [{ vi := 0, asid := 0, vpage := 0x1000000, span := 1, pte := 0x80000000000000CF, pteAt := 0 }] })] },
    _, _, _, _, _, _, rfl, rfl, rfl, rfl, rfl, rfl, by decide, rfl, rfl, by decide⟩
theorem wit_RangesAndDiscards_replaced : ∃ p ∈ ({ State.reset with fields := [(0, { fieldReset 0 with
    migrations := [⟨0, 0, 16, 0⟩] })] } : State).fields, ∃ x ∈ p.2.migrations, x.vi = 0 ∧ x.asid = 0 ∧ x.vpage = 16 := by
  exact ⟨_, List.mem_singleton.2 rfl, _, List.mem_singleton.2 rfl, rfl, rfl, rfl⟩

/-! Atomics and synchronisation -/

theorem wit_Atomics_acts : ∃ (s s1 s2 s3 t : State) (r : Word), s.issue (.aadd 3 1 2 .rlx) = .ok () ∧
    s.src .A 1 = .ok (0x40, s1) ∧ s1.src .A 2 = .ok (0x1234, s2) ∧ s2.atom .add 3 0x40 0x1234 = .ok (some r, s3) ∧
    s3.dst .A 3 r = .ok t := ⟨tileAt 0 .A ctxL, _, _, _, _, _, rfl, rfl, rfl, rfl, rfl⟩
theorem wit_Atomics_aload : ∃ (s s1 s2 t : State) (x : Word), s.issue (.aload 3 1 .acq) = .ok () ∧
    s.src .A 1 = .ok (0x40, s1) ∧ s1.atom .load 3 0x40 0 = .ok (some x, s2) ∧ s2.dst .A 3 x = .ok t :=
  ⟨tileAt 0 .A ctxL, _, _, _, _, rfl, rfl, rfl, rfl⟩
theorem wit_Atomics_astore : ∃ (s s1 s2 s3 : State) (x : Option Word), s.issue (.astore 1 2 .rel) = .ok () ∧
    s.src .A 1 = .ok (0x40, s1) ∧ s1.src .A 2 = .ok (0x1234, s2) ∧ s2.atom .store 0 0x40 0x1234 = .ok (x, s3) :=
  ⟨tileAt 0 .A ctxL, _, _, _, _, rfl, rfl, rfl, rfl⟩
theorem wit_Atomics_acas : ∃ (s s1 s2 s3 s4 t : State) (y : Word), s.src .A 1 = .ok (0x40, s1) ∧
    s1.src .A 2 = .ok (0x1234, s2) ∧ s2.src .A 3 = .ok (0, s3) ∧ s.issue (.acas 3 1 2 .ar) = .ok () ∧
    s3.atom (.cas 0) 3 0x40 0x1234 = .ok (some y, s4) ∧ s4.dst .A 3 y = .ok t ∧ s.issue (.acasW 3 1 2 .ar) = .ok () :=
  ⟨tileAt 0 .A ctxL, _, _, _, _, _, _, rfl, rfl, rfl, rfl, rfl, rfl, rfl⟩
theorem wit_Atomics_where : (tileAt 0 .A ctxL).localOk 0 0x40 (AtomOp.bytes .add) ∧ (0x40 : Word).toNat % 8 = 0 ∧
    (0x44 : Word).toNat % AtomOp.bytes .add ≠ 0 ∧ ctx1.task.msg.dom ≠ 0 ∧ locTile 0x10000000 ≠ siteIdx 0 ∧
    AtomOp.isCas .add = false :=
  ⟨⟨by decide, rfl, rfl, rfl, by decide, by decide⟩, by decide, by decide, by decide, by decide, rfl⟩
set_option maxRecDepth 100000 in
theorem wit_Atomics_global : ∃ (leaf : Leaf) (k : LineKey) (s1 : State), let s := mapped 0 .A ctx0 []
    s.reach (s.spaceOf 0) .atomic 0x1000000000 = .ok (leaf, k, s1) ∧ 2 ^ 36 ≤ (0x1000000000 : Word).toNat ∧
    (0x1000000000 : Word).toNat % AtomOp.align .add = 0 ∧
    ((s1.dropOwn 0 k).lineErrors k (s.spaceOf 0).launch).poisoned k = false := ⟨_, _, _, rfl, by decide, by decide, rfl⟩
theorem wit_TopkKeepsTheOrder : better 0x3F000002 0x3F400001 = false ∧ slotNaN 0x7FC00001 = true ∧
    slotNaN 0x3F000002 = false ∧ better 0x40000003 0x3F400001 = true := by
  refine ⟨?_, rfl, rfl, ?_⟩ <;> decide +kernel

/-- A candidate that enters at slot 1 of three, and a record at local address 0x40. -/
theorem wit_TopkKeepsTheOrder_enters : slotNaN 0x40000003 = false ∧
    ([0x40800001, 0x3F400001, 0x3F000002] : List (BitVec 32))[1]? = some 0x3F400001 ∧ better 0x40000003 0x3F400001 = true ∧
    (∀ q ∈ ([0x40800001, 0x3F400001, 0x3F000002] : List (BitVec 32)).take 1, better 0x40000003 q = false) ∧
    (insertTop 0x40000003 [0x40800001, 0x3F400001]).2 = true := by
  refine ⟨rfl, rfl, ?_, ?_, ?_⟩
  · decide +kernel
  · intro q h
    rw [show q = 0x40800001 from List.mem_singleton.1 h]
    decide +kernel
  · decide +kernel
theorem wit_TopkKeepsTheOrder_record : let s := tileAt 0 .A ctxL
    s.localOk 0 0x40 (4 * 4) ∧ (0x40 : Word).toNat % 16 = 0 ∧ s.heldBack = false ∧ ctxL.task.msg.dom = 0 ∧
    (s.tile 0).overlaps (locOff 0x40) (4 * 4) true = false ∧ (s.tile 0).sound ∧ (s.tile 0).spad.wf = true :=
  ⟨⟨by decide, rfl, rfl, rfl, by decide, by decide⟩, rfl, by decide, rfl, rfl, ⟨rfl, rfl, rfl⟩, rfl⟩
theorem wit_Bells_barr : ∃ l, (tileAt 0 .A ctx0).launch? ctx0.task.msg.launch = some l ∧ l.holdsCell 0 = true ∧
    (∀ x ∈ (vget {} l.bells 0).arrived, x.1 ≠ 0 ∧ x.2.1 = 0) ∧ l.holdsCell 5 = false ∧
    (∀ p, sget? 0 (vget {} l.bells 0).latest = some p → p < (vget {} l.bells 0).phase) :=
  ⟨_, rfl, rfl, by decide, rfl, by intro p h; exact nomatch (show (none : Option Nat) = some p from h)⟩
/-- A Bell at which tile 0 has arrived with `barr`, one at which tile 1 has with `bred.sum`. -/
theorem wit_Bells_overrun : (∃ x ∈ ({ arrived := [(0, 0, 0)] } : Bell).arrived, x.1 = 0) ∧
    (∀ x ∈ ({ arrived := [(1, 2, 5)] } : Bell).arrived, x.1 ≠ 0) ∧
    (∃ x ∈ ({ arrived := [(1, 2, 5)] } : Bell).arrived, x.2.1 ≠ 0) ∧
    sget? 0 ({ latest := [(0, 3)], phase := 3 } : Bell).latest = some 3 := by decide
theorem wit_Bells_bred : ∃ (s s1 s2 : State) (c : Ctx) (l : Launch), s.issue (.bredSum 3 0 1) = .ok () ∧
    s.src .A 0 = .ok (0, s1) ∧ s1.src .A 1 = .ok (6, s2) ∧ s.here = .ok (0, 0, c) ∧ c.task.msg.dom = 0 ∧
    s2.launch? c.task.msg.launch = some l ∧ s.launch? c.task.msg.launch = some l ∧ c.aWait = none ∧
    l.holdsCell 0 = true ∧ (vget {} l.bells 0).arrived = [] :=
  ⟨tileAt 0 .A ctx0, _, _, _, _, rfl, rfl, rfl, rfl, rfl, rfl, rfl, rfl, rfl, rfl⟩
/-- The same word in a later turn: its phase 0 has completed. -/
def belled (b : Bell) (c : Ctx) : State := { tileAt 0 .A c with
  launches := [(1, { placeLaunch 0 with bells := vput (placeLaunch 0).bells 0 b })] }
theorem wit_Bells_bred_done : ∃ (s s1 s2 t : State) (c : Ctx) (w : Wait), s.issue (.bredSum 3 0 1) = .ok () ∧
    s.src .A 0 = .ok (0, s1) ∧ s1.src .A 1 = .ok (6, s2) ∧ s.here = .ok (0, 0, c) ∧ c.aWait = some w ∧
    w.kind = .bell 0 0 ∧ 0 < ({ phase := 1, results := [6] } : Bell).phase ∧ s2.dst .A 3 6 = .ok t :=
  ⟨belled { phase := 1, results := [6] } { ctx0 with aWait := some ⟨.bell 0 0, 0, .bredSum 3 0 1⟩ }, _, _, _, _, _, rfl, rfl, rfl,
    rfl, rfl, rfl, by decide, rfl⟩
theorem wit_Bells_complete : ∃ l, (belled { arrived := [(0, 2, 6)] } ctx0).launch? 1 = some l ∧
    (vget {} l.bells 0).arrived ≠ [] ∧ (∀ x ∈ l.cells, ∃ y ∈ (vget {} l.bells 0).arrived, y.1 = x.2) ∧
    (∀ x ∈ (vget {} l.bells 0).arrived, x.2.1 = 2) := ⟨_, rfl, by decide, by decide, by decide⟩

theorem wit_Hurdles : ∃ (s s1 s2 : State) (c : Ctx), s.src .A 1 = .ok (0x40, s1) ∧ s1.src .A 2 = .ok (0x1234, s2) ∧
    s2.here = .ok (0, 0, c) ∧ c.task.msg.dom = 0 ∧ s2.localOk 0 0x40 16 ∧ (0x40 : Word).toNat % 16 = 0 ∧
    s2.heldBack = false ∧ (s2.tile 0).sound ∧ (s2.tile 0).spad.wf = true ∧ s.issue (.harm 3 1 2) = .ok () ∧ s.issue (.hexp 3 1 2) = .ok () ∧
    s.issue (.hwait 1 2) = .ok () ∧ c.aWait = none ∧ (s2.hurdleAt 0 0x40).gen ≠ fld (0x1234 : Word) 0 4 ∧
    (s2.hurdleAt 0 0x40).gen = fld (0 : Word) 0 4 :=
  ⟨tileAt 0 .A ctxL, _, _, _, rfl, rfl, rfl, rfl, ⟨by decide, rfl, rfl, rfl, by decide, by decide⟩, by decide, by decide,
    ⟨rfl, rfl, rfl⟩, rfl, rfl, rfl, rfl, rfl, by decide +kernel, by decide +kernel⟩
/-- An armed Hurdle at 0x40 that expects 2 arrivals. -/
def hurdled : State := tileAt 0 .A { ctx0 with x := vput (vput ctx0.x 1 0x8000) 2 0x40 }
  { spad := Memory.writeN [] 0x40 (leBytes 16 (Hurdle.bits { expect := 2, pend := 2, gen := 0, ovr := false, armed := true, low := 0, high := 0, inb := 0, outb := 0 }).toNat) }
theorem wit_Hurdles_harr : ∃ (s1 s2 : State), hurdled.issue (.harr 1 2) = .ok () ∧ hurdled.src .A 1 = .ok (0x8000, s1) ∧
    s1.src .A 2 = .ok (0x40, s2) ∧ s2.siteOfName 0 1 0x8000 = some 0 ∧ (0x40 : Word).toNat % 16 = 0 ∧
    (0x40 : Word).toNat + 16 ≤ spadSize (s2.tile 0).l1sz ∧ (s2.hurdleAt 0 0x40).armed = true ∧
    (s2.hurdleAt 0 0x40).pend ≠ 0 ∧ (s2.hurdleAt 0 0x80).armed = false ∧ s2.heldBack = false :=
  ⟨_, _, rfl, rfl, rfl, rfl, by decide, by decide, by decide +kernel, by decide +kernel, by decide +kernel, by decide⟩
theorem wit_Hurdles_released : ({ ctx0 with aWait := some ⟨.hurdle 0 0x40 true, 0, .hwait 1 2⟩ } : Ctx).aWait =
    some ⟨.hurdle 0 0x40 true, 0, .hwait 1 2⟩ := rfl

/-! Vectors -/

/-- One row of four columns; v1 and v2 hold bytes. -/
def ctxV : Ctx := { ctx0 with vshape := 0x300, v := vput (vput ctx0.v 1 0x04030201) 2 0x7F80FF05, front := [(0, 0)] }
def r14 (t : VType) : Rect := ⟨1, 4, t⟩
theorem fits8 : (r14 .i8).fits := by unfold Rect.fits; decide
theorem wit_VectorOperands_register : ∃ vals, (tileAt 0 .C ctxV).ctx? 0 0 = some ctxV ∧ ctxV.marks = [] ∧ (r14 .i8).fits ∧
    (tileAt 0 .C ctxV).vsrc 0 0 1 (r14 .i8) = .ok (vals, tileAt 0 .C ctxV) ∧ [5, 6, 7, 300 % 256].length = 1 * 4 ∧
    (∀ e ∈ [5, 6, 7, 300 % 256], e < 2 ^ (8 * VType.i8.size)) := ⟨_, rfl, rfl, fits8, rfl, by decide, by decide⟩
/-- An entry of a queue with its shape, and one with another. -/
theorem wit_VectorOperands_queue : (28 : VSpec).toNat - 28 = 0 ∧ vget [] (ctxV.setV 0 [⟨1, 4, .u8, 5, 0⟩]).vq 0 = [⟨1, 4, .u8, 5, 0⟩] ∧
    (⟨1, 4, .u8, 5, 0⟩ : VEntry).ty.size = (r14 .i8).ty.size ∧ (⟨1, 2, .i8, 5, 0⟩ : VEntry).cols ≠ (r14 .i8).cols ∧
    (⟨1, 4, .i16, 5, 0⟩ : VEntry).ty.size ≠ (r14 .i8).ty.size := ⟨rfl, rfl, rfl, by decide, by decide⟩

theorem wit_Vec2 : ∃ (s : State) (vals : List (List Nat)) (s1 s2 : State), s.issue (.vadd 3 1 2 .i8) = .ok () ∧
    s.issue (.vcmp 3 1 2 .i8 .le) = .ok () ∧ s.turn = .tile 0 0 .C ∧ s.ctx? 0 0 = some ctxV ∧
    ctxV.vshape.toNat % 64 + 1 = 1 ∧ ctxV.vshape.toNat / 256 % 256 + 1 = 4 ∧ (r14 .i8).fits ∧
    s.vsrcs 0 0 [(1, r14 .i8), (2, r14 .i8)] = .ok (vals, s1) ∧ s1.vdst 0 0 3 (r14 .i8) [6, 1, 131, 131] = .ok s2 :=
  ⟨tileAt 0 .C ctxV, _, _, _, rfl, rfl, rfl, rfl, rfl, rfl, fits8, rfl, rfl⟩
/-- Sixty-four rows of 256 columns of a 2-byte type do not fit. -/
theorem wit_VecRuns_shape : ¬ (⟨64, 256, .i16⟩ : Rect).fits ∧ ¬ (⟨1, 3, .u8⟩ : Rect).cols % 4 = 0 := by
  unfold Rect.fits; decide
theorem wit_Vec3 : ∃ (s : State) (vals : List (List Nat)) (s1 s2 : State), s.issue (.vmla 3 1 2 .i32) = .ok () ∧
    s.issue (.vsel 3 1 2 .i32) = .ok () ∧ (3 : VSpec).toNat < 28 ∧ (r14 .i32).fits ∧
    s.vsrcs 0 0 [(1, r14 .i32), (2, r14 .i32), (3, r14 .i32)] = .ok (vals, s1) ∧
    s1.vdst 0 0 3 (r14 .i32) [1, 2, 3, 4] = .ok s2 :=
  ⟨tileAt 0 .C ctxV, _, _, _, rfl, rfl, by decide, by unfold Rect.fits; decide, rfl, rfl⟩
theorem wit_VecS : ∃ (s s0 : State) (vals : List (List Nat)) (s1 s2 : State), s.issue (.vmulS 3 1 2 .i8) = .ok () ∧
    s.issue (.vbcast 3 2 .i8) = .ok () ∧ s.issue (.vmlaS 3 1 2 .i8) = .ok () ∧ s.issue (.vsplat 3 0x3F80 .fp32) = .ok () ∧
    s.src .C 2 = .ok (-4, s0) ∧ s0.turn = .tile 0 0 .C ∧ s0.ctx? 0 0 = some ctxV ∧
    s0.vsrcs 0 0 [(1, r14 .i8)] = .ok (vals, s1) ∧ s1.vdst 0 0 3 (r14 .i8) [252, 248, 244, 240] = .ok s2 :=
  ⟨tileAt 0 .C ctxV, _, _, _, _, rfl, rfl, rfl, rfl, rfl, rfl, rfl, rfl, rfl⟩
theorem wit_VectorIntegers : VType.isInt .i8 = true ∧ VType.isInt .u32 = true := ⟨rfl, rfl⟩
theorem wit_Accumulating : ∃ (s : State) (vals : List (List Nat)) (s1 s2 : State), s.issue (.vdot4 3 1 2 .i8) = .ok () ∧
    s.issue (.vtacc 3 1 2 .i8) = .ok () ∧ s.vsrcs 0 0 [(1, r14 .i8), (2, r14 .i8), (3, ⟨1, 1, .i32⟩)] = .ok (vals, s1) ∧
    s1.vdst 0 0 3 ⟨1, 1, .i32⟩ [7] = .ok s2 := ⟨tileAt 0 .C ctxV, _, _, _, rfl, rfl, rfl, rfl⟩
theorem wit_FloatVectors : fmtOf .fp32 = some .fp32 ∧ ∃ (s : State) (vals : List (List Nat)) (s1 s2 : State),
    s.issue (.vdiv 3 1 2 .fp32) = .ok () ∧ s.issue (.vinse 3 1 2 .fp32) = .ok () ∧ s.issue (.vexf 3 1 .bf16) = .ok () ∧
    s.vsrcs 0 0 [(1, r14 .fp32), (2, r14 .fp32)] = .ok (vals, s1) ∧
    s1.vdst 0 0 3 (r14 .fp32) [0, 1, 2, 0x3F800000] = .ok s2 := ⟨rfl, tileAt 0 .C ctxV, _, _, _, rfl, rfl, rfl, rfl, rfl⟩
theorem wit_Conversions : ∃ (s : State) (vals : List (List Nat)) (s1 s2 : State),
    s.issue (.vcvt 3 1 .fp32 false true .bf16) = .ok () ∧ s.issue (.vcvt 3 1 .i32 true false .i8) = .ok () ∧
    s.vsrcs 0 0 [(1, r14 .fp32)] = .ok (vals, s1) ∧ s1.vdst 0 0 3 (r14 .bf16) [0, 1, 2, 0x3F80] = .ok s2 :=
  ⟨tileAt 0 .C ctxV, _, _, _, rfl, rfl, rfl, rfl⟩
theorem wit_Conversions_amax : (0x1FFFFFFFF : Word).toNat < 2 ^ 33 ∧ magOf .fp32 0x7FC00000 = none ∧
    magOf .fp32 0xBF800000 = some 0x3F800000 := by decide +kernel
theorem wit_SpecialFunctions : (0x40400000 < 2 ^ Fmt.fp32.bits ∧ Fmt.fp32.isNaN 0x40400000 = false ∧
      0x40400000 / 2 ^ Fmt.fp32.mbits % 2 ^ Fmt.fp32.ebits ≠ 0 ∧ 0x40400000 < Fmt.fp32.signBit true) ∧
    (Fmt.fp32.unpack 0x7FC00000 = .nan ∧ Fmt.fp32.unpack 0xFF800000 = .inf true ∧
      Fmt.fp32.unpack 0x80000000 = .fin true 0 (-149) ∧ Fmt.fp32.unpack 0xBF800000 = .fin true 0x800000 (-23)) ∧
    (0x3F800000 < 0x3F800001 % 2 ^ 31 ∧ 0x3F800001 % 2 ^ 31 < 0x7F800000 ∧ 0x807FFFFF % 2 ^ 31 < 0x00800000) := by
  decide +kernel
theorem wit_Reductions : ∃ (s : State) (es : List Nat) (s1 s2 : State), s.issue (.vredsum 3 1 .i8 .rows) = .ok () ∧
    s.issue (.vredmax 3 1 .i8 .all) = .ok () ∧ s.issue (.vredmin 3 1 .i8 .cols) = .ok () ∧ (r14 .i8).fits ∧
    s.vsrcs 0 0 [(1, r14 .i8)] = .ok ([es], s1) ∧ es.length = 1 * 4 ∧ s1.vdst 0 0 3 ⟨1, 1, .i8⟩ [10] = .ok s2 :=
  ⟨tileAt 0 .C ctxV, _, _, _, rfl, rfl, rfl, fits8, rfl, rfl, rfl⟩
theorem wit_Reductions_elements : ([255, 3] : List Nat) ≠ [] ∧ ∀ e ∈ ([255, 3] : List Nat), e < 2 ^ VType.i8.width := by decide
theorem wit_Rearrangements : ∃ (s : State) (vals : List (List Nat)) (s1 s2 : State), s.issue (.vtrans 3 1 .i8) = .ok () ∧
    s.issue (.vrot 3 1 2 .i8) = .ok () ∧ s.issue (.vperm 3 1 2 .i8) = .ok () ∧ s.issue (.vzip 3 1 2 .i8) = .ok () ∧
    s.issue (.vunzip 3 1 .i8) = .ok () ∧ s.vsrcs 0 0 [(1, r14 .i8), (2, r14 .u16)] = .ok (vals, s1) ∧
    s1.vdst 0 0 3 (r14 .i8) [4, 3, 2, 1] = .ok s2 ∧ 2 * 4 ≤ 256 ∧ 4 % 2 = 0 :=
  ⟨tileAt 0 .C ctxV, _, _, _, rfl, rfl, rfl, rfl, rfl, rfl, rfl, by decide, rfl⟩
/-- One row of 80 columns: a multiple of 5 and of 16. -/
theorem wit_NarrowFormats : ∃ (s : State) (vals : List (List Nat)) (s1 s2 : State), s.issue (.vunp3 3 1) = .ok () ∧
    s.issue (.vunp4 3 1) = .ok () ∧ s.issue (.vunp3i 3 1) = .ok () ∧ s.issue (.vpack4 3 1) = .ok () ∧
    s.issue (.vpack3 3 1) = .ok () ∧ s.vsrcs 0 0 [(1, ⟨1, 80 / 5, .u8⟩)] = .ok (vals, s1) ∧
    s1.vdst 0 0 3 ⟨1, 80, .i8⟩ (List.replicate 80 1) = .ok s2 ∧ 80 % 5 = 0 ∧ 80 % 16 = 0 :=
  ⟨tileAt 0 .C { ctxV with vshape := 0x4F00 }, _, _, _, rfl, rfl, rfl, rfl, rfl, rfl, rfl, rfl, rfl⟩
theorem wit_NarrowFormats_fields : ∀ z ∈ ([-8, 7] : List Int), -(2 ^ (4 - 1) : Nat) ≤ z ∧ z < (2 ^ (4 - 1) : Nat) := by decide
theorem wit_VectorFrame : ∃ (t : State) (d : Ctx), Instr.isVector (.vmov 3 1 .i8) = true ∧
    exec (.vmov 3 1 .i8) (tileAt 0 .C ctxV) = .next t ∧ t.ctx? 0 0 = some d := ⟨_, _, rfl, rfl, rfl⟩

/-! The matrix array -/

/-- Addresses of window 1, K = 16, and tokens for the array. -/
def ctxM : Ctx := { ctx0 with front := [(0, 0)], tok := { own := 300 },
                              s := vput (vput (vput ctx0.s 1 0x100000000) 2 0x100008000) 4 16 }
/-- A tile whose window 1 is BF16. -/
def tileM (site : Nat) (c : Ctx) (t : Tile := {}) : State := tileAt site .C c { t with wd := vput t.wd 1 6 }
theorem wit_MatrixWork_mma : ∃ (s s1 s2 s3 : State) (x : Ctx) (w : MatWork), s.issue (.mma 2 1 2 4) = .ok () ∧
    s.issue (.mmaZ 2 1 2 4) = .ok () ∧ s.issue (.mmaT 2 1 2 4) = .ok () ∧ s.issue (.mmaTz 2 1 2 4) = .ok () ∧
    s.src .C 4 = .ok (16, s1) ∧ s1.src .C 1 = .ok (0x100000000, s2) ∧ s2.src .C 2 = .ok (0x100008000, s3) ∧
    s3.here = .ok (0, 0, x) ∧ s3.matWork 0 .mma false 2 0x100000000 0x100008000 16 x.modes.fz = .ok w :=
  ⟨tileM 0 ctxM, _, _, _, _, _, rfl, rfl, rfl, rfl, rfl, rfl, rfl, rfl, rfl⟩
theorem wit_MatrixWork_smma : ∃ (s : State) (w v : MatWork), s.issue (.smma 2 1 2 4) = .ok () ∧
    s.issue (.smmaZ 2 1 2 4) = .ok () ∧ s.issue (.smmaB 2 1 2 4) = .ok () ∧
    s.matWork 6 .smma true 2 0x160000000 0x160008000 16 false = .ok w ∧
    s.matWork 6 .smmaB false 2 0x160000000 0x160008000 16 false = .ok v :=
  ⟨tileM 6 ctxM, _, _, rfl, rfl, rfl, rfl, rfl⟩
/-- An attention tile: PBANK is 0 and TAU is 1.0. -/
theorem wit_MatrixWork_attn : ∃ (s s1 : State) (u v w x y : MatWork), s.issue (.attnQk 0 1 2 4) = .ok () ∧
    s.issue (.attnSm 0 4) = .ok () ∧ s.issue (.attnPv 1 1 4) = .ok () ∧ s.issue (.attnFin 1 4) = .ok () ∧
    s.issue (.attnStep 0 1 2 4) = .ok () ∧ s.src .C 4 = .ok (0x3F80000000000040, s1) ∧
    cfgCheck true 0x3F80000000000040 = .ok () ∧
    s.qkWork 9 0 0x190000000 0x190008000 0x3F80000000000040 {} = .ok u ∧
    smWork 0 0x3F80000000000040 {} = .ok v ∧ s.pvWork 9 1 0x190000000 0x3F80000000000040 {} = .ok w ∧
    finWork 1 0x3F80000000000040 {} = .ok x ∧
    s.stepWork 9 0 0x190000000 0x190008000 0x3F80000000000040 {} = .ok y :=
  ⟨tileM 9 { ctxM with s := vput ctxM.s 4 0x3F80000000000040 }, _, _, _, _, _, _, rfl, rfl, rfl, rfl, rfl, rfl, rfl, rfl, rfl,
    rfl, rfl, rfl⟩
/-- Configuration words that R85 forbids: K of 0, of 8 and above 4,096, TRI of 3, a bit above 39. -/
theorem wit_MatrixWork_illegal : (0 : Word).toNat % 2 ^ 16 = 0 ∧ (8 : Word).toNat % 16 ≠ 0 ∧
    4096 < (0x1010 : Word).toNat % 2 ^ 16 ∧ (0x300010 : Word).toNat / 2 ^ 20 % 4 = 3 ∧
    (0x10000000010 : Word).toNat / 2 ^ 40 ≠ 0 := ⟨rfl, by decide, by decide, rfl, by decide⟩
/-- Work that clears bank 2. -/
def workZ : MatWork := ⟨[{ wd := 0, fmt := 14, target := 0, off := 0x40, spans := [(0x40, 64)] }], 512, [2], fun b => ({ b with acc := vput b.acc 2 0 }, 0), false, []⟩
theorem wit_MatrixWork_runs : ∃ t, (tileM 0 ctxM).runItem 0 0 workZ = .ok t ∧ (tileM 0 ctxM).ctx? 0 0 = some ctxM ∧
    ((tileM 0 ctxM).tile 0).arrayFree 0 = true ∧ ctxM.matFraction (siteClass 0) ≠ 0 ∧ ctxM.marks = [] ∧
    ∀ r ∈ workZ.ranges, ((tileM 0 ctxM).tile r.1).overlaps r.2.1 r.2.2 false = false ∧ ((tileM 0 ctxM).tile r.1).sound := by
  refine ⟨_, rfl, rfl, rfl, by decide +kernel, rfl, ?_⟩
  intro r h
  rw [show workZ.ranges = [(0, 0x40, 64)] from rfl] at h
  rw [List.mem_singleton.1 h]
  exact ⟨rfl, rfl, rfl, rfl⟩
theorem wit_MatrixWork_waits : ((tileM 0 ctxM { array := some ⟨4, none, none, false, false⟩ }).tile 0).array.isSome = true ∧
    ctx0.matFraction (siteClass 0) = 0 := by decide +kernel
theorem wit_MatrixProduct : cfgTri 16 = 0 ∧ cfgTri 0x100010 = 1 ∧ cfgTri 0x200010 = 2 ∧ 16 % 16 = 0 ∧
    (∃ p ∈ [(FVal.nan, FVal.inf false)], p.1 = FVal.nan ∨ p.2 = FVal.nan) ∧
    (∀ p ∈ [(FVal.fin false 3 0, FVal.fin true 5 1)], ∃ u m e v n f, p = (FVal.fin u m e, FVal.fin v n f)) := by
  refine ⟨rfl, rfl, rfl, rfl, ⟨_, List.mem_singleton.2 rfl, .inl rfl⟩, ?_⟩
  intro p h
  exact ⟨false, 3, 0, true, 5, 1, List.mem_singleton.1 h⟩
/-- The whole steps of K of 64 and of 128, and a value product. -/
theorem wit_AttentionItems : ∃ (u v w x y z : MatWork), let s := tileM 9 ctxM
    s.qkWork 9 2 0x190000000 0x190008000 0x3F80000000000040 {} = .ok u ∧ smWork 2 0x3F80000000000040 {} = .ok v ∧
    s.pvWork 9 1 0x190000000 0x3F80000000000040 {} = .ok w ∧ finWork 1 0x3F80000000000040 {} = .ok x ∧
    s.stepWork 9 0 0x190000000 0x190008000 0x3F80000000000080 {} = .ok y ∧
    s.vWork 9 7 3 0x190000000 0x3F80000000000040 0 {} = .ok z :=
  ⟨_, _, _, _, _, _, rfl, rfl, rfl, rfl, rfl, rfl⟩
theorem wit_ProductItems : ∃ (w v : MatWork), (tileM 0 ctxM).matWork 0 .mma false 2 0x100000000 0x100008000 16 false = .ok w ∧
    (tileM 0 ctxM).productWork 0 .mma false 2 0x100000000 0x100008000 16 false = .ok w ∧
    (tileM 6 ctxM).productWork 6 .smma true 2 0x160000000 0x160008000 16 false = .ok v := ⟨_, _, rfl, rfl, rfl⟩
/-- Positions of a sparse group of two marks, and a group whose positions 2 and 3 hold nothing. -/
theorem wit_ProductItems_sparse : (0 ≠ 2 ∧ 1 ≠ 2) ∧ sparseEmpty 16 (fun _ => 4) 0 2 = true ∧ FVal.inf false ≠ FVal.nan ∧
    ((tileM 0 ctxM).tile 0).opReads = [] := by decide +kernel
/-- A row with a maximum, and one of which every element is minus infinity. -/
theorem wit_AttentionItems_rows : (smRow {} 0x3F800000 [0x3F800000, 0x40000000] ⟨0xFF800000, 0, 0⟩).2.1.max ≠ negInf ∧
    (smRow {} 0x3F800000 [0xFF800000] ⟨0xFF800000, 0, 0⟩).2.1.max = negInf := by decide +kernel
theorem wit_MzeroClearsABank : (tileM 9 ctxM).issue (.mzero 3) = .ok () ∧ (tileM 9 ctxM).here = .ok (9, 0, ctxM) ∧
    ((tileM 9 ctxM).tile 9).arrayFree 0 = true ∧ siteClass 9 = .at := ⟨rfl, rfl, rfl, rfl⟩
/-- An address of the raw window 0 and a pitch of 256 bytes. -/
def ctxA : Ctx := { ctxM with s := vput (vput (vput ctxM.s 1 0x40) 2 0x40) 4 0 }
theorem wit_AccumulatorTransfers_mrd : ∃ (s s1 s2 : State) (x : Ctx) (r : Option Fmt × Nat × Nat × Nat),
    s.src .C 1 = .ok (0x40, s1) ∧ s1.src .C 4 = .ok (0, s2) ∧ s2.here = .ok (0, 0, x) ∧ (s2.tile 0).arrayFree 0 = true ∧
    x.marks = [] ∧ s.issue (.mrd 2 1 4) = .ok () ∧ s.issue (.mwr 2 1 4) = .ok () ∧ s2.accPlace 0 true 0x40 0 = .ok r ∧
    s2.accPlace 0 false 0x40 0 = .ok r ∧ r = (none, 256, 0, 0x40) ∧ 64 * accSize none ≤ 256 ∧
    (s2.tile 0).sound ∧ (s2.tile 0).spad.wf = true ∧
    (∀ i, i < 128 → (s2.tile 0).overlaps (0x40 + i * 256) (64 * accSize none) true = false) :=
  ⟨tileM 0 ctxA, _, _, _, _, rfl, rfl, rfl, rfl, rfl, rfl, rfl, rfl, rfl, rfl, by decide, ⟨rfl, rfl, rfl⟩, rfl, fun _ _ => rfl⟩
theorem wit_AccumulatorTransfers_mscl : ∃ (s s1 s2 s3 : State) (x : Ctx), s.src .C 1 = .ok (0x40, s1) ∧
    s1.src .C 2 = .ok (0x40, s2) ∧ s2.src .C 4 = .ok (3, s3) ∧ s3.here = .ok (0, 0, x) ∧ (s3.tile 0).arrayFree 0 = true ∧
    x.marks = [] ∧ (3 : Word).toNat < 4 ∧ s.issue (.mscl 2 1 2 4) = .ok () ∧ isLocal 0x40 = true ∧
    s3.localCheck 0 0x40 512 = .ok (0, 0x40) ∧ s3.localCheck 0 0x40 256 = .ok (0, 0x40) ∧
    (s3.tile 0).overlaps 0x40 512 false = false ∧ (s3.tile 0).sound :=
  ⟨tileM 0 { ctxA with s := vput ctxA.s 4 3 }, _, _, _, _, rfl, rfl, rfl, rfl, rfl, rfl, by decide, rfl, rfl, rfl, rfl, rfl,
    ⟨rfl, rfl, rfl⟩⟩
/-- A product word. -/
theorem wit_MatrixFrame_mma : ∃ (t : State) (d : Ctx), exec (.mma 2 1 2 4) (tileM 0 ctxM) = .next t ∧ t.ctx? 0 0 = some d :=
  ⟨_, _, rfl, rfl⟩
theorem wit_MatrixFrame : ∃ (t : State) (d : Ctx), exec (.mzero 2) (tileM 0 ctxM) = .next t ∧ t.ctx? 0 0 = some d :=
  ⟨_, _, rfl, rfl⟩

/-! Nets -/

theorem okOf {α : Type} (r : Try α) (h : (match r with | .ok _ => true | .error _ => false) = true) : ∃ t, r = .ok t := by
  cases r with
  | ok t => exact ⟨t, rfl⟩
  | error e => cases h

/-- Two nodes without auxiliary ports, of types 1 and 2, that name each other, at the first global addresses; rule entries
for the pair of types at 0x800 (rewr) and 0x820 (rcall); a pair of them in the Fold, one more line in the flock. -/
def pairN : Pair := ⟨0x40000000, 0x40000001, 5, 0, 1⟩
def netAt (c : Ctx) : State := { mapped 0 .A c [] { ruleb := 0x1000000801 } with
  mem := Memory.writeN (Memory.writeN [] 0x1000 (wordsBytes [0x0010000000000000, mkLink 1 0x40000001 0, 0, 0, 0, 0, 0, 0,
      0x0020000000000000, mkLink 1 0x40000000 0, 0, 0, 0, 0, 0, 0]))
    0x1800 (wordsBytes [0x0010020000000000, 0, 0, 0, 0x0010025000000000, 0, 0, 0])
  fields := [(0, { fieldReset 0 with flock := [(1, [0x1000000080])], fold := ⟨[⟨pairN, false, false, 0⟩], 0⟩ })] }
/-- The addresses of the nodes in x1 and x2 and of an entry in x4; the task holds the pair. -/
def ctxE : Ctx := { ctx0 with x := vput (vput (vput ctx0.x 1 0x1000000000) 2 0x1000000040) 4 0x1000000800, pairs := [⟨pairN, 0, false, false⟩] }
/-- The same addresses, and word 1 of the second node in x1. -/
def ctxK : Ctx := { ctxE with x := vput (vput ctxE.x 1 0x1000000048) 2 0x8000000000000007 }
set_option maxRecDepth 100000 in
theorem wit_Alink : ∃ (s s1 s2 s3 s4 : State) (old : Word) (ps : List (Nat × Pair)), s.issue (.alink 3 1 2) = .ok () ∧
    s.src .A 1 = .ok (0x1000000048, s1) ∧ s1.src .A 2 = .ok (0x8000000000000007, s2) ∧ s2.here = .ok (0, 0, ctxK) ∧
    s2.alinkChecks (s2.actor 0 ctxK) 3 0x1000000048 0x8000000000000007 = .ok s3 ∧ ctxK.task.msg.dom = 0 ∧
    (s3.dropVA (s2.actor 0 ctxK) 0x1000000048).alinkAt (s2.actor 0 ctxK) 0x1000000048 0x8000000000000007 0 = .ok (old, ps, s4) ∧
    s4.roomFor ps = true ∧ ∃ t, (s4.sendPairs ps).dst .A 3 old = .ok t := by
  refine ⟨netAt ctxK, _, _, _, _, _, _, rfl, rfl, rfl, rfl, rfl, rfl, rfl, ?_, ?_⟩
  · decide +kernel
  · exact okOf _ (by decide +kernel)
set_option maxRecDepth 100000 in
theorem wit_Alink_write : ∃ (s s1 : State) (k : LineKey), let x := s.actor 0 ctxK
    s.netLine x .atomic 0x1000000048 = .ok (k, s1) ∧ nodeOk (s1.slot k 0) = true ∧ nodeArity (s1.slot k 0) = 0 ∧
    linkOk (s1.slot k 1) = true ∧ linkKind (s1.slot k 1) ≠ .redir ∧ linkKind 0x8000000000000007 = .out ∧ x.commit = none ∧
    nodeType 0 = 0 ∧ k.exists = true ∧ s1.mem.wf = true := ⟨netAt ctxK, _, _, rfl, by decide +kernel, by decide +kernel, by decide +kernel, by decide +kernel, by decide +kernel, rfl, rfl, rfl, by decide +kernel⟩
theorem wit_Alink_pair : (0x1000000048 : Word).toNat / 8 % 8 = 1 ∧ linkKind (mkLink 1 0x40000000 0) = .port ∧
    linkPort (mkLink 1 0x40000000 0) = 0 ∧ linkLine (mkLink 1 0x40000000 0) < nodeLine 0x1000000048 ∧
    linkTarget (mkLink 1 0x40000000 0) ≠ 0x1000000048 := by decide +kernel

theorem wit_PairsOfAFold_pop : ∃ (s s1 t : State) (h : Held), s.here = .ok (0, 0, ctx0) ∧ s.issue (.ppop 3 1 2) = .ok () ∧
    s.issue (.ppopNb 3 1 2) = .ok () ∧ ctx0.heldPairs.length < 8 ∧ s.popPair (siteField 0) 1 = some (h, s1) ∧
    s1.givePair 0 0 3 1 2 h = .ok t := ⟨netAt ctx0, _, _, _, rfl, rfl, rfl, by decide, rfl, rfl⟩
theorem wit_PairsOfAFold_empty : ∃ s1 t : State, (tileAt 0 .A ctx0).popPair (siteField 0) 1 = none ∧
    (tileAt 0 .A ctx0).dst .A 3 0 = .ok s1 ∧ s1.dst .A 1 0 = .ok t ∧
    8 ≤ ({ ctx0 with pairs := List.replicate 8 ⟨pairN, 0, false, false⟩ } : Ctx).heldPairs.length :=
  ⟨_, _, rfl, rfl, rfl, by decide⟩
/-- Field 1 is adjacent to field 0 and in the launch; its Fold is empty. -/
theorem wit_PairsOfAFold_steal : ∃ (s s1 s2 t : State) (l : Launch) (e : Ctx), s.issue (.steal 3 1 2) = .ok () ∧
    s.src .A 2 = .ok (1, s1) ∧ s1.here = .ok (0, 0, e) ∧ s1.launch? 1 = some l ∧ 1 ∈ l.fields ∧ 1 < Config.fields ∧
    adjacentFields 1 (siteField 0) = true ∧ e.heldPairs.length < 8 ∧ s1.popPair 1 1 = none ∧ s1.dst .A 3 0 = .ok s2 ∧
    s2.dst .A 1 0 = .ok t ∧ 3 ∉ l.fields :=
  ⟨{ tileAt 0 .A { ctx0 with x := vput ctx0.x 2 1 } with launches := [(1, { placeLaunch 0 with fields := [0, 1] })] },
    _, _, _, _, _, rfl, rfl, rfl, rfl, by decide, by decide, rfl, by decide, rfl, rfl, rfl, by decide⟩
set_option maxRecDepth 100000 in
theorem wit_PairsOfAFold_push : ∃ (s s1 s2 s3 s4 : State) (f : Nat) (c : Ctx), s.issue (.ppush 3 1 2) = .ok () ∧
    s.src .A 1 = .ok (0x1000000000, s1) ∧ s1.src .A 2 = .ok (0x1000000040, s2) ∧ s2.src .A 3 = .ok (0, s3) ∧
    s3.here = .ok (0, 0, c) ∧ c.task.msg.dom = 0 ∧ nodeForm 0x1000000000 = true ∧ nodeForm 0x1000000040 = true ∧
    s3.nodeField (s3.actor 0 c) (nodeLine 0x1000000000) = .ok (f, s4) ∧
    s4.roomFor [(f, ⟨nodeLine 0x1000000000, nodeLine 0x1000000040, 0, 0, 1⟩)] = true :=
  ⟨netAt ctxE, _, _, _, _, _, _, rfl, rfl, rfl, rfl, rfl, rfl, rfl, rfl, rfl, rfl⟩
theorem wit_PairsOfAFold_early : ts32lt 3 5 = true ∧ ctx1.task.msg.dom ≠ 0 := by decide
set_option maxRecDepth 100000 in
theorem wit_PairsOfAFold_self : ∃ (s s1 s2 s3 s4 : State) (f : Nat) (c : Ctx), s.issue (.ppush 3 1 1) = .ok () ∧
    s.src .A 1 = .ok (0x1000000000, s1) ∧ s1.src .A 1 = .ok (0x1000000000, s2) ∧ s2.src .A 3 = .ok (0, s3) ∧
    s3.here = .ok (0, 0, c) ∧ nodeForm 0x1000000000 = true ∧
    s3.nodeField (s3.actor 0 c) (nodeLine 0x1000000000) = .ok (f, s4) :=
  ⟨netAt ctxE, _, _, _, _, _, _, rfl, rfl, rfl, rfl, rfl, rfl, rfl⟩

set_option maxRecDepth 100000 in
theorem wit_RulesOfANet_rule : ∃ (s s1 s2 s3 s4 s5 s6 t : State) (ha hb r : Word) (ka kb : LineKey),
    s.issue (.rule 3 1 2) = .ok () ∧ s.src .A 1 = .ok (0x1000000000, s1) ∧ s1.src .A 2 = .ok (0x1000000040, s2) ∧
    s2.here = .ok (0, 0, ctxE) ∧ s2.nodeAddrs (s2.actor 0 ctxE) .load 0x1000000000 0x1000000040 = .ok s3 ∧
    s3.nodeHeader (s2.actor 0 ctxE) 0 ctxE 0x1000000000 = .ok (ha, ka, s4) ∧
    s4.nodeHeader (s2.actor 0 ctxE) 0 ctxE 0x1000000040 = .ok (hb, kb, s5) ∧
    s5.probe (s2.actor 0 ctxE) (rulebBase (s5.tile 0).ruleb) 1 2 1 (firstSlot 1 2 1) 8 = .ok (r, s6) ∧
    s6.dst .A 3 r = .ok t :=
  ⟨netAt ctxE, _, _, _, _, _, _, _, _, _, _, _, _, rfl, rfl, rfl, rfl, rfl, rfl, rfl, rfl, rfl⟩
set_option maxRecDepth 100000 in
theorem wit_RulesOfANet_rewr : ∃ (s s1 s2 s3 s4 s5 s6 : State) (e : Entry) (ka kb : LineKey) (fresh : List Word)
    (ps : List (Nat × Pair)), s.src .A 4 = .ok (0x1000000800, s1) ∧ s1.src .A 1 = .ok (0x1000000000, s2) ∧
    s2.src .A 2 = .ok (0x1000000040, s3) ∧ s3.here = .ok (0, 0, ctxE) ∧ s.issue (.rewr 4 1 2) = .ok () ∧
    s3.applied (s3.actor 0 ctxE) 0 ctxE .atomic [0, 1, 2] 0x1000000800 0x1000000000 0x1000000040 = .ok (e, ka, kb, s4) ∧
    templateChecks 0 0 (s4.slot ka 0) (s4.slot kb 0) (s4.slot ka 1) (s4.slot kb 1) (s4.auxLinks ka) (s4.auxLinks kb)
      (s4.joinLinks (s3.actor 0 ctxE) kb (nodeLine 0x1000000040)) = .ok () ∧
    s4.allocLines (s3.actor 0 ctxE) (freshNeeded 0 0 0 []) = .ok (fresh, s5) ∧
    s5.template (s3.actor 0 ctxE) e.w0 0x1000000000 0x1000000040 5 fresh = .ok (ps, s6) ∧ s6.roomFor ps = true :=
  ⟨netAt ctxE, _, _, _, _, _, _, _, _, _, _, _, rfl, rfl, rfl, rfl, rfl, rfl, rfl, rfl, rfl, rfl⟩
/-- Two nodes with two auxiliary ports each: links to a third and a fourth node, and values. -/
def netJ (base : Word) : State := { netAt ctxE with
  mem := Memory.writeN [] 0x1000 (wordsBytes [
    0x0014000000000000, mkLink 1 0x40000001 0, mkLink 1 0x40000002 0, 0x6000000000000007, 0, 0, 0, 0,
    0x0014000000000000, mkLink 1 0x40000000 0, 0x6000000000000009, mkLink 1 0x40000003 0, 0, 0, 0, 0,
    0x0010000000000000, mkLink 1 0x40000000 1, 0, 0, 0, 0, 0, 0, 0x0010000000000000, mkLink 1 0x40000001 2, 0, 0, 0, 0, 0, 0])
  launches := [(1, { placeLaunch 0 with rec_ := [0x0100000000000000, 0x0000000100010101] ++ List.replicate 8 0 ++
    [0x0000000800000000, base] })] }
def nodeA : BitVec 51 := 0x40000000
def nodeB : BitVec 51 := 0x40000001
def actJ : Actor := (netJ 0).actor 0 ctxE
/-- What the links of ports p of A and q of B give back. -/
def joinJ (p q : Nat) : Option (LinkKind × LinkKind × Bool × Bool) :=
  match Work.link ([], netJ 0) actJ 0 (PortRef.addr ⟨nodeA, p⟩) (mkLink 2 nodeB q) with
  | .ok (u, w) => match w.link actJ 0 (PortRef.addr ⟨nodeB, q⟩) u with
    | .ok (v, w) => some (linkKind u, linkKind v, (w.link actJ 0 (linkTarget u) v).isOk, (w.link actJ 0 (linkTarget v) u).isOk)
    | .error _ => none
  | .error _ => none
theorem wit_RulesOfANet_join : joinJ 1 1 = some (.port, .value, true, false) ∧ joinJ 2 2 = some (.value, .port, false, true) ∧
    joinJ 1 2 = some (.port, .port, true, true) ∧ joinJ 2 1 = some (.value, .value, false, false) := by decide +kernel
/-- A new node's line, its header and an attachment to port 1 of A and to port 1 of B. -/
theorem wit_RulesOfANet_attach : (match Work.link ([], netJ 0) actJ 0 (PortRef.addr ⟨nodeA, 1⟩) (mkLink 2 0x40000004 0) with
    | .ok (u, _) => some (linkKind u)
    | .error _ => none) = some .port ∧
    (match Work.make ([], netJ 0) actJ 0x1000000100 0x0010000000000000 [0] with
    | .ok w => (match w.attach actJ 0 ⟨nodeA, 1⟩ ⟨0x40000004, 0⟩, w.attach actJ 0 ⟨nodeB, 1⟩ ⟨0x40000004, 0⟩ with
      | .ok _, .ok _ => true
      | _, _ => false)
    | .error _ => false) = true := by decide +kernel
theorem wit_RulesOfANet_out : ∃ (l : Launch) (leaf : Leaf) (key : LineKey) (s : State), linkKind 0x8000000000000007 = .out ∧
    (netJ 0x1000000200).launch? actJ.launch = some l ∧ (0x8000000000000007 : Word).toNat % 2 ^ 16 < (fld (l.word 10) 32 16).toNat ∧
    (fld (l.word 11) 0 57).setWidth 64 + BitVec.ofNat 64 (8 * ((0x8000000000000007 : Word).toNat % 2 ^ 16)) = 0x1000000238 ∧
    (netJ 0x1000000200).reach actJ.sp .store 0x1000000238 = .ok (leaf, key, s) ∧ key.exists = true ∧ actJ.commit = none :=
  ⟨_, _, _, _, rfl, rfl, by decide, by decide, rfl, rfl, rfl⟩
/-- COMM with one copy of B, ERASE over a link, an output and a value, and the whole of ANNIH. -/
theorem wit_RulesOfANet_templates :
    (Work.comm ([], netJ 0) actJ 0 nodeA nodeB 0x0012000000000000 0x0010000000000000 [0x1000000100]).isOk = true ∧
    (Work.erase ([], netJ 0) actJ 0 0x0010000000000000 nodeB 1 [0x6000000000000009, mkLink 1 0x40000003 0] [0x1000000100]).isOk
      = true ∧
    (Work.erase ([], netJ 0x1000000200) actJ 0 0x0010000000000000 nodeB 1 [0x8000000000000007] []).isOk = true ∧
    (Work.annih ([], netJ 0) actJ 0 nodeA nodeB 1).isOk = true ∧
    ((netJ 0).template actJ 0 0x1000000000 0x1000000040 5 []).isOk = true := by decide +kernel
theorem wit_RulesOfANet_checks : linkOk 0x8000000000010000 = false ∧ (linkKind 0x8000000000000007 = .out ∧
    7 ≤ (0x8000000000000007 : Word).toNat % 2 ^ 16) ∧
    templateChecks 0 8 0x0012000000000000 0x0012000000000000 (mkLink 1 1 0) (mkLink 1 0 0) [0x8000000000000007] [0x6000000000000000]
      [0x6000000000000000] = .ok () ∧
    templateChecks 1 8 0x001E000000000000 0x001E000000000000 (mkLink 1 1 0) (mkLink 1 0 0) [] [] [] =
      .error (.trap { code := .linkerr, detail := 8 }) := ⟨by decide, ⟨by decide, by decide⟩, rfl, rfl⟩

/-- Port 1 of A is a redirection to port 2 of B; port 2 of A one to itself. -/
def netR : State := { netJ 0 with
  mem := Memory.writeN [] 0x1000 (wordsBytes [
    0x0014000000000000, mkLink 1 0x40000001 0, mkLink 2 0x40000001 2, mkLink 2 0x40000000 2, 0, 0, 0, 0,
    0x0014000000000000, mkLink 1 0x40000000 0, 0x6000000000000009, mkLink 1 0x40000003 0, 0, 0, 0, 0]) }
/-- What a Join finds behind the ports of A: port 2 of B, and nothing behind the chain that goes nowhere. -/
theorem wit_RulesOfANet_joinLinks : (netR.joinLinks actJ (.pa 0x40) nodeA)[0]? = some (mkLink 1 0x40000003 0) ∧
    ((netR.joinLinks actJ (.pa 0x40) nodeA)[1]?.map linkKind) = some .port ∧
    (match netR.follow actJ 0 16 (portAddr nodeA 2) with | .error _ => true | .ok _ => false) = true := by decide +kernel
/-- A page of nodes without the right to write. -/
theorem wit_RulesOfANet_readonly : (match ({ netAt ctxE with clusters := [(0, { tlb :=
      [{ vi := 0, asid := 0, vpage := 0x1000000, span := 1, pte := 0x10CB, pteAt := 0 }] })] } : State).nodeAddrs
        ((netAt ctxE).actor 0 ctxE) .atomic 0x1000000000 0x1000000040 with
    | .error (.trap k) => some k.code
    | _ => none) = some .prot := by decide +kernel
theorem wit_Alink_redirected : (match netR.netLine actJ .atomic 0x1000000010 with
    | .ok (k, s1) => some (nodeOk (s1.slot k 0), nodeArity (s1.slot k 0), linkOk (s1.slot k 2), linkKind (s1.slot k 2))
    | .error _ => none) = some (true, 2, true, .redir) ∧ linkKind 0x8000000000000007 = .out ∧
    (match netR.follow actJ 0x8000000000000007 16 0x1000000010 with
    | .ok (goal, _, c, _) => some (goal, linkKind c)
    | .error _ => none) = some (0x1000000058, .port) ∧
    linkTarget (mkLink 1 0x40000001 2) = 0x1000000058 ∧ (0x1000000058 : Word).toNat / 8 % 8 ≠ 1 := by decide +kernel
theorem wit_Alink_refused : (match netR.follow actJ 0x8000000000000007 16 0x1000000018 with
    | .error (.trap k) => some (k.code, k.detail, k.addr)
    | _ => none) = some (.linkerr, 3, 0x1000000018) ∧
    (match netR.follow actJ (mkLink 2 0x40000001 1) 16 0x1000000010 with
    | .ok (goal, _, c, _) => some (goal, linkKind c)
    | .error _ => none) = some (0x1000000010, .redir) ∧ linkKind (mkLink 2 0x40000001 1) = .redir := by decide +kernel
set_option maxRecDepth 100000 in
theorem wit_RulesOfANet_rcall : ∃ (s s1 s2 s3 s4 s5 : State) (e : Entry) (ka kb : LineKey) (c : Ctx),
    s.src .A 4 = .ok (0x1000000820, s1) ∧ s1.src .A 1 = .ok (0x1000000000, s2) ∧
    s2.src .A 2 = .ok (0x1000000040, s3) ∧ s3.here = .ok (0, 0, c) ∧ s.issue (.rcall 4 1 2) = .ok () ∧
    s3.applied (s3.actor 0 c) 0 c .load [3, 4, 5] 0x1000000820 0x1000000000 0x1000000040 = .ok (e, ka, kb, s4) ∧
    s4.dispatch (s3.actor 0 c) e.w0 e.w1 e.w2 0x1000000000 0x1000000040 5 = .ok s5 ∧ s.issue (.rgroup 4 1 2) = .ok () :=
  ⟨netAt { ctxE with x := vput ctxE.x 4 0x1000000820 }, _, _, _, _, _, _, _, _, _, rfl, rfl, rfl, rfl, rfl, rfl, rfl, rfl⟩

theorem wit_NodeLines_nalloc : ∃ (s s1 s2 s3 t : State) (ls : List Word) (c : Ctx), s.src .A 1 = .ok (1, s1) ∧
    s1.src .A 2 = .ok (0x40, s2) ∧ s2.here = .ok (0, 0, c) ∧ s2.lineArray 0 1 0x40 = .ok (1, 0, 0x40) ∧
    s.issue (.nalloc 3 1 2) = .ok () ∧ c.task.msg.dom = 0 ∧ (s2.tile 0).overlaps 0x40 8 true = false ∧
    s2.takeLines (siteField 0) 1 1 = some (ls, s3) ∧ s2.dst .A 3 1 = .ok t :=
  ⟨netAt { ctx0 with x := vput (vput ctx0.x 1 1) 2 0x40 }, _, _, _, _, _, _, rfl, rfl, rfl, rfl, rfl, rfl, rfl, rfl, rfl⟩
theorem wit_NodeLines_none : (tileAt 0 .A ctx0).takeLines (siteField 0) 1 1 = none := rfl
set_option maxRecDepth 100000 in
theorem wit_NodeLines_nfree : ∃ (s s1 s2 s3 s4 : State) (c : Ctx), s.src .A 1 = .ok (1, s1) ∧
    s1.src .A 2 = .ok (0x40, s2) ∧ s2.here = .ok (0, 0, c) ∧ s2.lineArray 0 1 0x40 = .ok (1, 0, 0x40) ∧
    s.issue (.nfree 1 2) = .ok () ∧ (s2.tile 0).overlaps 0x40 8 false = false ∧ (s2.tile 0).sound ∧
    leWord ((s2.tile 0).spad.readN 0x40 8) = 0x1000000040 ∧ s2.freeChecks (s2.actor 0 c) [0x1000000040] = .ok s3 ∧
    s3.freeLine (s2.actor 0 c) 0x1000000040 = .ok s4 :=
  ⟨(netAt { ctx0 with x := vput (vput ctx0.x 1 1) 2 0x40 }).spadWrite 0 0x40 (wordBytes 0x1000000040), _, _, _, _, _,
    rfl, rfl, rfl, rfl, rfl, rfl, ⟨rfl, rfl, rfl⟩, by decide +kernel, rfl, rfl⟩
set_option maxRecDepth 100000 in
theorem wit_NodeLines_freed : ∃ (s u : State) (l : Leaf) (k : LineKey), let x := s.actor 0 ctxE
    x.commit = none ∧ (s.dropVA x 0x1000000040).reach x.sp .store 0x1000000040 = .ok (l, k, u) :=
  ⟨netAt ctxE, _, _, _, rfl, rfl⟩

/-! Engines -/

/-- A command of the running task of the tile at site 0: opcode, CNT, port, words 1 on; DEST is the tile's own name. -/
def cmdOf (opc n port : Nat) (ws : List Word) : Cmd :=
  { words := BitVec.ofNat 64 (opc * 2 ^ 56 + n * 2 ^ 46 + 0x8000 * 2 ^ 24) :: ws, port := port, seq := 0, slot := some 0,
    task := 7, msg := task0.msg }
/-- The tile with a command; two indexes 1 and 0xFFFFFFFF stand at 0x800, two weights 1.0 at 0x900. -/
def engAt (m : Cmd) (c : Ctx := ctx0) : State := tileAt 0 .A c
  { cmds := [m], seq := 1, spad := Memory.writeN (Memory.writeN [] 0x800 (leBytes 8 0xFFFFFFFF00000001)) 0x900 (leBytes 8 0x3F8000003F800000) }
/-- A command of each opcode. -/
def ceC : Cmd := cmdOf 0x01 3 0 [0x40, 0x100, 8]
def ce2 : Cmd := cmdOf 0x02 5 0 [0x40, 0x100, 0x200000008, 16, 32]
def ceF : Cmd := cmdOf 0x03 3 0 [0x40, 0x0102030405060708, 8]
def ceM : Cmd := cmdOf 0x04 7 0 [0x40, 0x100, 8, 0x100000000, 0x100008000, 16, 0]
def geG : Cmd := cmdOf 0x10 5 2 [0x40, 0x100, 0x800, 0x200000008, 16]
def geS : Cmd := cmdOf 0x11 5 2 [0x40, 0x100, 0x800, 0x200000008, 16]
def geW : Cmd := cmdOf 0x12 6 2 [0x40, 0x100, 0x800, 0x200000008, 16, 0x7000000000000900]
def meC : Cmd := cmdOf 0x20 4 4 [0x100000000, 0x100008000, 16, 0]
def clR : Cmd := cmdOf 0x30 4 6 [0x1000000000, 0x1000000040, 0x700000001, 0x80000]
def clB : Cmd := cmdOf 0x31 3 6 [0x1000000000, 0x1000000040, 1]
def msC : Cmd := cmdOf 0x40 1 6 [5]
def msR : Cmd := cmdOf 0x41 1 6 [5]
def qfC : Cmd := cmdOf 0x50 1 0 [1]
def npC : Cmd := cmdOf 0x60 3 6 [0x40000001, 0x40000000, 5]
theorem wit_starts : ∀ p ∈ [(0x01, ceC), (0x02, ce2), (0x03, ceF), (0x04, ceM), (0x10, geG), (0x11, geS), (0x12, geW), (0x20, meC)],
    hdrOpc p.2.hdr = p.1 ∧ ((engAt p.2).tile 0).mayStart p.2 = true ∧ ((engAt p.2).tile 0).cancelled p.2 = none ∧
    p.2.bad = false ∧ p.2.port ≠ 6 ∧ (engAt p.2).cmdAt 0 0 = some p.2 := by decide +kernel
theorem wit_starts6 : ∀ p ∈ [(0x30, clR), (0x31, clB), (0x40, msC), (0x41, msR), (0x60, npC)],
    hdrOpc p.2.hdr = p.1 ∧ ((engAt p.2).tile 0).mayStart p.2 = true ∧ ((engAt p.2).tile 0).cancelled p.2 = none ∧
    p.2.bad = false ∧ 0x30 ≤ p.1 ∧ (engAt p.2).cmdAt 0 0 = some p.2 := by decide +kernel
theorem wit_EngineCommands_starts : (engAt ceC).starts 0x01 0 0 ceC ∧ (engAt npC).starts 0x60 0 0 npC := by
  unfold State.starts; decide +kernel
/-- The work of a command on the state in which it has started. -/
theorem wit_EngineCommands_copy : ∃ t, ((engAt ceC).startCmd 0 0 ceC).runMoves 0 ceC
    [⟨ceC.word 1, ceC.len, false, 0⟩, ⟨ceC.word 2, ceC.len, true, 1⟩] [.copy (ceC.word 1) (ceC.word 2) ceC.len] = .ok t :=
  okOf _ (by decide +kernel)
theorem wit_EngineCommands_copy2d : ∃ t, ((engAt ce2).startCmd 0 0 ce2).runMoves 0 ce2
    [⟨0x40, 8, false, 0⟩, ⟨0x100, 8, true, 1⟩, ⟨0x50, 8, false, 0⟩, ⟨0x120, 8, true, 1⟩]
    [.copy 0x40 0x100 8, .copy 0x50 0x120 8] = .ok t := okOf _ (by decide +kernel)
theorem wit_EngineCommands_fill : ∃ t, ((engAt ceF).startCmd 0 0 ceF).runMoves 0 ceF [⟨ceF.word 1, ceF.len, true, 1⟩]
    [.give ((List.range ceF.len).map (fun p => fld (ceF.word 2) (8 * (p % 8)) 8)) (ceF.word 1)] = .ok t :=
  okOf _ (by decide +kernel)
theorem wit_EngineCommands_copymma : ∃ t, ((engAt ceM).startCmd 0 0 ceM).runMoves 0 ceM
    [⟨ceM.word 1, ceM.len, false, 0⟩, ⟨ceM.word 2, ceM.len, true, 1⟩] [.copy (ceM.word 1) (ceM.word 2) ceM.len] = .ok t :=
  okOf _ (by decide +kernel)
/-- The second index skips its row. -/
theorem wit_EngineCommands_gather : ∃ (s1 t : State), ((engAt geG).startCmd 0 0 geG).indexTable 0 geG =
      .ok ([⟨1, 0, false⟩, ⟨0xFFFFFFFF, 1, false⟩], s1) ∧ s1.runMoves 0 geG
    [⟨0x800, 8, false, 2⟩, ⟨0x50, 8, false, 0⟩, ⟨0x100, 8, true, 1⟩, ⟨0x108, 8, true, 1⟩]
    [.copy 0x50 0x100 8, .give (List.replicate 8 0) 0x108] = .ok t := ⟨_, _, rfl, rfl⟩
theorem wit_EngineCommands_scatter : ∃ (s1 t : State), ((engAt geS).startCmd 0 0 geS).indexTable 0 geS =
      .ok ([⟨1, 0, false⟩, ⟨0xFFFFFFFF, 1, false⟩], s1) ∧ s1.runMoves 0 geS
    [⟨0x800, 8, false, 2⟩, ⟨0x40, 8, false, 0⟩, ⟨0x110, 8, true, 1⟩] [.copy 0x40 0x110 8] = .ok t := ⟨_, _, rfl, rfl⟩
theorem wit_EngineCommands_scatw : ∃ (s1 s2 s3 s4 t : State) (hs : List Hull) (d : List (Byte × Bool)) (fl : Flags),
    let u := (engAt geW).startCmd 0 0 geW
    u.indexTable 0 geW = .ok ([⟨1, 0, false⟩, ⟨0xFFFFFFFF, 1, false⟩], s1) ∧ geW.rowLen % 4 = 0 ∧
    s1.table32 (u.spaceOf 0) 0 0x900 geW.count = .ok ([(0x3F800000, false), (0x3F800000, false)], s2) ∧
    s2.hulls 0 [⟨0x800, 8, false, 2⟩, ⟨0x900, 8, false, 3⟩, ⟨0x40, 8, false, 0⟩, ⟨0x110, 8, true, 1⟩] = .ok hs ∧
    s2.takeRanges 0 geW.seq hs = .ok s3 ∧ s3.engRead (u.spaceOf 0) 0 0x40 8 = .ok (d, s4) ∧ (∀ b ∈ d, b.2 = false) ∧
    s4.scatRow (u.spaceOf 0) 0 geW.modes (Fmt.fp32.unpack 0x3F800000) false 4 0x110 d = .ok (fl, t) :=
  ⟨_, _, _, _, _, _, _, _, rfl, by decide +kernel, rfl, rfl, rfl, rfl, by decide +kernel, rfl⟩
theorem wit_EngineCommands_fault : ∃ f, ((engAt ceC).startCmd 0 0 ceC).runMoves 0 ceC [⟨0x10000040, 8, false, 0⟩]
    [.copy 0x10000040 0x100 8] = .error (.trap f) := ⟨_, rfl⟩
set_option maxRecDepth 100000 in
theorem wit_EngineCommands_group : ∃ f, ((engAt clR).startCmd 0 0 clR).joinGroup 0 clR = .error (.trap f) := ⟨_, rfl⟩
/-- The same commands where the first global page is mapped: a group of one part acts at once, a group of two waits. -/
def clAt (m : Cmd) : State := { engAt m with
  clusters := [(0, { tlb := [{ vi := 0, asid := 0, vpage := 0x1000000, span := 1, pte := 0x10CF, pteAt := 0 }] })] }
def clB2 : Cmd := cmdOf 0x31 3 6 [0x1000000000, 0x1000000040, 0x800000001]
theorem wit_EngineCommands_joins : ∀ p ∈ [(0x30, clR), (0x31, clB), (0x31, clB2)], hdrOpc p.2.hdr = p.1 ∧
    ((clAt p.2).tile 0).mayStart p.2 = true ∧ p.2.bad = false ∧
    ∃ t, ((clAt p.2).startCmd 0 0 p.2).joinGroup 0 p.2 = .ok t := by
  intro p h
  have hb : hdrOpc p.2.hdr = p.1 ∧ ((clAt p.2).tile 0).mayStart p.2 = true ∧ p.2.bad = false ∧
      (match ((clAt p.2).startCmd 0 0 p.2).joinGroup 0 p.2 with | .ok _ => true | .error _ => false) = true := by
    revert p
    decide +kernel
  refine ⟨hb.1, hb.2.1, hb.2.2.1, ?_⟩
  have h4 := hb.2.2.2
  cases hj : ((clAt p.2).startCmd 0 0 p.2).joinGroup 0 p.2 with
  | ok t => exact ⟨t, rfl⟩
  | error e => rw [hj] at h4; cases h4
theorem wit_EngineCommands_message : (engAt msC).siteOfName 0 1 (hdrDest msC.hdr) = some 0 ∧
    (engAt msC).siteOfName 0 1 0x1234 = none := by decide +kernel
/-- Its own queue holds a command before it, or not. -/
theorem wit_EngineCommands_qfence : ((engAt qfC).tile 0).fenceOpen ⟨qfC.fenceMask, qfC.seq, qfC.task, qfC.run⟩ = true ∧
    ({ (engAt qfC).tile 0 with cmds := [ceC, { qfC with seq := 1 }] } : Tile).fenceOpen ⟨qfC.fenceMask, 1, qfC.task, qfC.run⟩ = false := by
  decide +kernel
theorem wit_EngineCommands_netPair : ∃ l, (engAt npC).launch? npC.msg.launch = some l ∧ l.dom = fld (npC.word 3) 32 8 ∧
    (fld (npC.word 1) 0 51 : BitVec 51) ≠ fld (npC.word 2) 0 51 ∧
    ((engAt npC).startCmd 0 0 npC).roomFor [(siteField 0, pairN)] = true := ⟨_, rfl, by decide +kernel, by decide +kernel, by decide +kernel⟩
theorem wit_CopiesMoveBytes : (engAt ceC).localOk 0 0x100 8 ∧ (engAt ceC).localOk 0 0x40 8 ∧ ((engAt ceC).tile 0).sound ∧
    ((engAt ceC).tile 0).spad.wf = true :=
  ⟨⟨by decide, rfl, rfl, rfl, by decide, by decide⟩, ⟨by decide, rfl, rfl, rfl, by decide, by decide⟩, ⟨rfl, rfl, rfl⟩,
    by decide +kernel⟩

/-- A command behind another of its port, one whose FOLLOW predecessor failed, one with a bit that R210 forbids, and one
that e6 has for a name that no tile holds. -/
theorem wit_CommandsStartAndEnd :
    (let m : Cmd := { ceC with seq := 1 }
     ({ (engAt ceC).tile 0 with cmds := [ceC, m] } : Tile).mayStart m = false) ∧
    (let p : Cmd := { ceC with words := 0x0100C40000000000 :: ceC.words.drop 1, running := true, finished := true, ended := true, told := true, status := 5 }
     let m : Cmd := { ceC with seq := 1 }
     ({ (engAt ceC).tile 0 with cmds := [p, m] } : Tile).cancelled m = some 5 ∧
     ({ (engAt ceC).tile 0 with cmds := [p, m] } : Tile).mayStart m = true) ∧
    (cmdOf 0x01 3 0 [0x40, 0x100, 0x100000008]).bad = true ∧
    (let m := { ceC with port := 6, words := 0x0100C01234000000 :: ceC.words.drop 1 }
     m.bad = false ∧ m.remote = false ∧ ((engAt m).tile 0).mayStart m = true ∧ (engAt m).siteOfName 0 1 (hdrDest m.hdr) = none) ∧
    EngineCmd 0x01 .ceCopy := by
  refine ⟨by decide +kernel, by decide +kernel, by decide +kernel, by decide +kernel, .inl ⟨rfl, rfl⟩⟩
/-- A command whose work is over, with REPLY and without. -/
theorem wit_CommandsEnd : (let m : Cmd := { ceC with running := true, ended := true }
    (engAt m).cmdAt 0 0 = some m ∧ m.finished = false ∧ (engAt m).writerOf 0 m = some 0 ∧ hdrHurd m.hdr = false ∧
    hdrReply m.hdr = false) ∧ hdrReply 0x0100C10000000000 = true ∧ (vget [] ctx0.inp 0).length < 16 := by decide +kernel
/-- A copy that has moved its bytes; an item that may start, its command, and one whose time is over. -/
def itemM : MatItem := ⟨0x100000000, 0x100008000, 16, 0, 0, false, false, 0, none⟩
def itemAt (a : Option ArrayItem) : State := tileAt 0 .A ctxM { cmds := [{ meC with running := true }], items := [itemM], array := a, wd := vput ({} : Tile).wd 1 6 }
theorem wit_EnginesPlaceMatrixWork : (let m : Cmd := { ceM with running := true, copied := true }
    (engAt m).cmdAt 0 0 = some m ∧ m.ended = false) ∧ ((itemAt none).tile 0).array = none ∧
    ((itemAt none).tile 0).nextItems = [0] ∧ ((itemAt none).choose 1).1 = 0 ∧
    ((itemAt none).tile 0).cmdOf 0 = some { meC with running := true } ∧
    opClass (siteClass 0) (ctlOp itemM.ctl) (ctlBank itemM.ctl) = true ∧
    (itemAt none).writerOf 0 { meC with running := true } = some 0 ∧ ctxM.matFraction (siteClass 0) ≠ 0 ∧
    ((itemAt (some ⟨0, some 0, some 0, false, false⟩)).tile 0).array = some ⟨0, some 0, some 0, false, false⟩ ∧
    ((itemAt (some ⟨3, some 0, some 0, false, false⟩)).tile 0).array = some ⟨3, some 0, some 0, false, false⟩ := by
  decide +kernel
theorem wit_EnginesPlaceMatrixWork_waits : ({ ctxM with tok := {} } : Ctx).matFraction (siteClass 0) = 0 ∧
    (tileAt 0 .A { ctxM with tok := {} } { cmds := [{ meC with running := true }], items := [itemM], wd := vput ({} : Tile).wd 1 6 }).writerOf
      0 { meC with running := true } = some 0 := by decide +kernel
theorem wit_EnginesPlaceMatrixWork_work : ∃ w, (itemAt none).matWork 0 (ctlOp itemM.ctl) (ctlZero itemM.ctl) (ctlBank itemM.ctl)
    itemM.a itemM.b itemM.cfg itemM.fz = .ok w := ⟨_, rfl⟩

/-! Events -/

/-- A tile of launch 1 with no context. -/
def idleAt (t : Tile) : State := { State.reset with
  agenda := []
  tiles := [(0, { t with named := true, name := 0x8000, launch := some 1 })]
  launches := [(1, placeLaunch 0)] }
/-- A message to channel 0 and a handler for it at 0x1000000000. -/
def msg0 : Message := { words := [0x4000008000000000], launch := 1 }
def hand : Sparse (Vector Word 4) := [(0, vput (Vector.replicate 4 0) 0 0x1000000000)]
theorem wit_Messages_accept : let s := { idleAt { handlers := hand } with mesh := [.message 0 msg0 none none] }
    s.mesh[0]? = some (.message 0 msg0 none none) ∧ (∃ l, s.launch? msg0.launch = some l ∧ l.cancelled = false) ∧
    (s.tile 0).launch = some msg0.launch ∧ s.overtakes 0 0 msg0 = false ∧ (s.tile 0).awake = true ∧
    (s.tile 0).inbox.length < 32 ∧ vget 0 ((s.tile 0).handler msg0.chan) 0 ≠ 0 ∧
    vget 0 (({} : Tile).handler msg0.chan) 0 = 0 ∧ (s.tile 1).launch ≠ some msg0.launch :=
  ⟨rfl, ⟨_, rfl, rfl⟩, rfl, rfl, rfl, by decide, by decide +kernel, by decide +kernel, by decide⟩
theorem wit_Messages_select : let k : Task := { msg := msg0, id := 3 }
    let s := idleAt { handlers := hand, inbox := [k] }
    (s.tile 0).awake = true ∧ (s.tile 0).launch.isSome = true ∧ (∀ j, s.ctx? 0 j = none) ∧ (s.tile 0).preempt = none ∧
    (s.tile 0).inbox = [k] ∧ s.luTasks = [] ∧ (s.tile 0).open_ k.msg.chan = true ∧ s.snapRoom 0 k = true ∧
    ∃ l, s.launch? k.msg.launch = some l := by
  refine ⟨rfl, rfl, ?_, rfl, rfl, rfl, by decide +kernel, rfl, _, rfl⟩
  intro j
  show vget none (Vector.replicate 4 none) j = none
  unfold vget
  rw [Vector.getElem?_replicate]
  split <;> rfl
theorem wit_Messages_stepIdle : ∃ l, (idleAt {}).launch? 1 = some l ∧ ((idleAt {}).tile 0).launch = some 1 ∧
    ((idleAt {}).tile 0).resident = [] ∧ ((idleAt {}).tile 0).runnable = false ∧ l.holdsCell 0 = true ∧
    ((tileAt 0 .A ctx0).tile 0).resident ≠ [] := ⟨_, rfl, rfl, rfl, rfl, rfl, by decide +kernel⟩
/-- A run whose snapshot holds its ranges. -/
theorem wit_Messages_log : (let c : Ctx := { ctx0 with task := { task0 with snap := some ⟨[(0x40, 8)], [], [], [], 0⟩ } }
    let s := tileAt 0 .A c { ranges := [{ inbound := false, lo := 0x40, hi := 0x48, site := 0, seq := snapSeq 0 }] }
    s.ctx? 0 0 = some c ∧ c.task.snap.isSome = true ∧ (∃ r ∈ (s.tile 0).ranges, r.seq = snapSeq 0) ∧
    ∃ l, s.launch? c.task.msg.launch = some l) ∧ (idleAt {}).ctx? 0 0 = none :=
  ⟨⟨rfl, rfl, ⟨_, List.mem_singleton.2 rfl, rfl⟩, _, rfl⟩, rfl⟩
/-- A run whose snapshot has no ranges. -/
theorem wit_Messages_log_empty : (Snapshot.mk [] [] [] [] 0).ranges = [] ∧ (Snapshot.mk [] [] [] [] 0).poison = [] := ⟨rfl, rfl⟩
theorem wit_Messages_push : ({ idleAt {} with mesh := [.pair 0 pairN] } : State).mesh[0]? = some (.pair 0 pairN) ∧
    ((idleAt {}).field 0).fold.spilled = 0 ∧ ((idleAt {}).field 0).fold.onChip < 8192 := by decide +kernel
theorem wit_Messages_push_full : 8192 ≤ ({ entries := List.replicate 8192 ⟨pairN, false, false, 0⟩ } : Fold).onChip ∧
    (idleAt {}).spillOf 1 ≤ ({ entries := List.replicate 8192 ⟨pairN, false, false, 0⟩ } : Fold).spilled := by
  have h : ∀ n, ({ entries := List.replicate n ⟨pairN, false, false, 0⟩ } : Fold).onChip = n := by
    intro n
    simp [Fold.onChip]
  exact ⟨le_of_eq (h 8192).symm, Nat.zero_le _⟩
/-- A spill area of 2 pairs that holds one. -/
theorem wit_Messages_push_spill : (let s : State := { idleAt {} with launches := [(1, { placeLaunch 0 with rec_ := List.replicate 10 0 ++ [2] })] }
    s.spillOf 1 = 2) ∧ ({ entries := [⟨pairN, true, false, 0⟩] } : Fold).spilled = 1 ∧ (∃ l, (idleAt {}).launch? pairN.launch = some l) := by
  refine ⟨by decide +kernel, by decide +kernel, _, rfl⟩

/-- The actor of a commit of a finished task of tile 0. -/
def commitX (s : State) (c : Ctx) : Actor := { s.actor 0 c with
  sp := { s.spaceOf 0 with vi := 0, asid := 0, launch := some 1, base := some s }, commit := some c.task.key }
/-- A finished task with one buffered store, behind whose address the cluster's TLB holds `pte`, and a frame. -/
def storeC : Ctx := { ctx1 with buf := [.store 0x1000000000 [1] 0x2000000000] }
def storeAt (pte : Word) : State := { idleAt { done := [storeC] } with
  clusters := [(0, { tlb := [{ vi := 0, asid := 0, vpage := 0x1000000, span := 1, pte := pte, pteAt := 0 }] })]
  readers := [(.pa 0x40, [(0, 1, 9)])]
  launches := [(1, { placeLaunch 0 with frames := [0x5000] })] }
/-- How its checks come out: 1 when they pass, 2 when a page is converted first. -/
def checksOf (pte : Word) : Nat := match (storeAt pte).commitAll (commitX (storeAt pte) storeC) storeC storeC.buf with
  | .ok _ => 1
  | .error (.goto _, _) => 2
  | .error _ => 3
theorem wit_Commits_converted : checksOf 0x10CF = 1 ∧ checksOf 0xC0000000000000CF = 2 ∧ (storeAt 0xC0000000000000CF).framesLeft ≠ 0 := by
  decide +kernel
theorem wit_Commits_store : (match (storeAt 0x10CF).reach (commitX (storeAt 0x10CF) storeC).sp .store 0x1000000000 with
    | .ok (_, k, _) => some (k, k.exists)
    | .error _ => none) = some (.pa 0x40, true) ∧ (0x1000000000 : Word).toNat % 64 + ([1] : List Byte).length ≤ 64 := by
  decide +kernel
/-- A later task of the domain that has read the line runs in slot 1; it is also found among the finished ones. -/
def laterC : Ctx := { ctx1 with task := { ctx1.task with id := 9 } }
def laterAt : State := { storeAt 0x10CF with tiles := [(0, { launch := some 1, ctxs := vput (Vector.replicate 4 none) 1 (some laterC), done := [storeC] })] }
theorem wit_Commits_readers : laterAt.readers.find? (·.1 == .pa 0x40) = some (.pa 0x40, [(0, 1, 9)]) ∧
    ([(0, 1, 9)] : List (Nat × BitVec 8 × BitVec 32)).filter (fun r => r.1 == 0 && r.2.1 == 1) = [(0, 1, 9)] ∧
    (laterAt.noteHbm 0 (.pa 0x40)).allTasks.find? (fun t => t.inDom 0 1 && t.id == 9) = some laterC.task ∧
    taskLt storeC.task.key laterC.task.key = true := by decide +kernel
theorem wit_Commits_abort : (laterAt.tile 0).launch = some laterC.task.msg.launch ∧ laterAt.ctx? 0 1 = some laterC ∧
    laterAt.ctx? 0 0 = none ∧ laterC.task.inDom 0 1 = true ∧
    (laterAt.tile 0).done.find? (fun d => d.task.msg.vi == 0 && d.task.msg.dom == 1 && d.task.id == 7) = some storeC := by
  decide +kernel
/-- A finished task of domain 1 that buffered nothing, alone in its domain. -/
theorem wit_Commits : ∃ (la : Launch) (l : List (Effect × List (Nat × Pair))) (u : State), let s := idleAt { done := [ctx1] }
    ctx1.task.msg.dom ≠ 0 ∧ s.launch? 1 = some la ∧ s.horizon 0 1 = some (0, some 7) ∧
    ((s.tiles.map (fun p => (p.2.done.filter (fun d => d.task.inDom 0 1)).map (fun d => (p.1, d)))).flatten).find?
      (fun p => (p.2.task.msg.ts, some p.2.task.id) == (0, some 7)) = some (0, ctx1) ∧
    s.commitAll (commitX s ctx1) ctx1 ctx1.buf = .ok (l, u) ∧ s.roomFor (l.map Prod.snd).flatten = true :=
  ⟨_, _, _, by decide, rfl, rfl, rfl, rfl, rfl⟩
set_option maxRecDepth 100000 in
/-- The same task on a machine of many tiles; one whose buffered store no translation admits; one pair without room. -/
theorem wit_Commits_others : (let s : State := { idleAt { done := [ctx1] } with tiles := (0, { named := true, launch := some 1, done := [ctx1] }) :: (List.range 8).map (fun k => (k + 1, { named := true })) }
    s.horizon 0 1 = some (0, some 7) ∧
    ((s.tiles.map (fun p => (p.2.done.filter (fun d => d.task.inDom 0 1)).map (fun d => (p.1, d)))).flatten).find?
      (fun p => (p.2.task.msg.ts, some p.2.task.id) == (0, some 7)) = some (0, ctx1)) ∧
    (let c : Ctx := { ctx1 with buf := [.store 0x1000000000 [1] 0x2000000000] }
     ∃ k pc, (idleAt { done := [c] }).commitAll (commitX (idleAt { done := [c] }) c) c c.buf = .error (.trap k, pc)) ∧
    (let d : Fold := { entries := List.replicate 8192 ⟨pairN, false, false, 0⟩ }
     ({ idleAt {} with fields := [(0, { fieldReset 0 with fold := d })] } : State).roomFor [(0, pairN)] = false) := by
  refine ⟨by decide +kernel, ⟨_, _, rfl⟩, by decide +kernel⟩
theorem wit_Watchdogs : let w : Wait := ⟨.bell 0 0, 0, .bwait 0⟩
    ({ ctx0 with aWait := some w } : Ctx).waitOf .A = some w ∧ w.kind.counted = true ∧
    (tileAt 0 .A { ctx0 with aWait := some w }).waitOver 0 0 { ctx0 with aWait := some w } w ≠ some true ∧ ¬ (w.since + ({} : Tile).wdog.toNat ≤ (tileAt 0 .A ctx0).tick 0) ∧
    w.since + ({ wdog := 0 } : Tile).wdog.toNat ≤ (tileAt 0 .A ctx0).tick 0 ∧ WaitKind.counted .array = false := by
  decide +kernel

/-- A holding that asks for 30 tokens. -/
def hAsk : Holding := { own := 20, want := 30, opened := true }
def askAt : State := { tileAt 0 .A { ctx0 with tok := hAsk } with refTicks := 200 }
theorem wit_Tokens_grant : askAt.requests 0 = [(0, 0)] ∧ askAt.holding? 0 0 = some hAsk := by decide +kernel
/-- Field 0 lacks 30 tokens and has none, field 1 has its share. -/
def lackAt : State := { askAt with fields := [(0, { drover := { share := 0, free := 0 } })] }
theorem wit_Tokens_loan : adjacentFields 0 1 = true ∧
    (lackAt.field 0).drover.free + lackAt.loansTo 0 < lackAt.lacking 0 ∧
    16 ≤ (lackAt.field 1).drover.free - lackAt.lacking 1 ∧
    16 ≤ (lackAt.field 1).drover.share - sumCounts (lackAt.field 1).drover.lent ∧
    (lackAt.field 0).drover.share + sumCounts (lackAt.field 0).drover.borrowed + lackAt.loansTo 0 + 16 ≤ 3072 := by decide +kernel
theorem wit_Tokens_flights : ({ askAt with mesh := [.loan 1 0 16] } : State).mesh[0]? = some (.loan 1 0 16) ∧
    ({ askAt with mesh := [.tokens 0 (0, 0, 7) ⟨5, 1, (0, 0, 9), 0⟩] } : State).mesh[0]? = some (.tokens 0 (0, 0, 7) ⟨5, 1, (0, 0, 9), 0⟩) ∧
    (askAt.tile 0).slotOf (0, 0, 7) = some 0 ∧ 5 ≤ askAt.tileRoom 0 := by decide +kernel
/-- Field 1 recalls 16 tokens; the holding is its only target. -/
def debtAt : State := { tileAt 0 .A ctxT with fields := [(0, { drover := { share := 100, free := 0, recalls := [⟨1, 16⟩] } })] }
theorem wit_Tokens_revoke : debtAt.debt 0 ≠ 0 ∧ (0, 0) ∈ debtAt.targets 0 debtAt.holdings ∧
    debtAt.holding? 0 0 = some ctxT.tok ∧ ctxT.tok.notice = 0 := by decide +kernel
/-- A request of priority 4 that has waited 200 ticks, and a task of priority 0 that holds 20 tokens. -/
def rivalAt : State := { tileAt 0 .A { ctx0 with tok := { want := 30, opened := true }, task := { task0 with msg := { task0.msg with prio := some 4 } } } with
  tiles := [(0, { (tileAt 0 .A ctx0).tile 0 with
    ctxs := vput (vput (Vector.replicate 4 none) 0 (some { ctx0 with tok := { want := 30, opened := true }, task := { task0 with msg := { task0.msg with prio := some 4 } } })) 1
      (some { ctx0 with tok := { own := 20 }, task := { task0 with id := 9, msg := { task0.msg with prio := some 0 } } }) })]
  fields := [(0, { drover := { share := 20, free := 0 } })]
  refTicks := 200 }
theorem wit_Tokens_timeout : rivalAt.holding? 0 0 = some { want := 30, opened := true } ∧
    Holding.isOpen { want := 30, opened := true } = true ∧
    min 30 (rivalAt.lackingTo 0 (0, 0) - (rivalAt.underNotice 0 false + (rivalAt.field 0).drover.free)) ≠ 0 ∧
    (let l := rivalAt.holdings.filter (fun q => decide (rivalAt.holdPrio q.1 q.2 < rivalAt.holdPrio 0 0))
     rivalAt.targets 0 l = [(0, 1)] ∧ (rivalAt.choose 1).1 = 0) := by decide +kernel
theorem wit_Tokens_cut : ∀ f, f < 84 → (State.reset.field f).drover.share - (State.reset.field f).drover.share / 8 ≤ State.reset.shareMax f := by
  decide +kernel
theorem wit_Tokens_notice : (tileAt 0 .A { ctx0 with tok := { own := 20, notice := 5 } }).holding? 0 0 = some { own := 20, notice := 5 } ∧
    ((tileAt 0 .A ctx0).tile 0).array = none := by decide +kernel

/-! Launches, page tables, the host -/

/-- A page table of ASID 0 of interface 0: 1 GiB from the first global address on is physical memory from 0 on. Its lines
and a line of handlers at 0x8000 are in the home slices. -/
def pageTable : List L2Line := [⟨.pa 0x80, 0x3001, false, 0, 0⟩, ⟨.pa 0xC0, 0x4001, false, 0, 0⟩, ⟨.pa 0x100, 0x5001, false, 0, 0⟩,
  ⟨.pa 0x148, 0x20000000000000CF, false, 0, 0⟩, ⟨.pa 0x200, 0x1000000000, false, 0, 0⟩]
/-- A record of a grid of one cell on one field, whose handler tables and WD list stand at 0x8000. -/
def record0 : List Word := [0x0100000000000000, 0x0000000100010101, 0, 0, 0, 0, 0, 0x1000008000, 0x1000008000] ++ List.replicate 23 0
def rec0 (valid : Bool) : QRec := { seq := 0, words := record0, valid := valid }
def queue0 (recs : List QRec) : Queue := { en := true, dev := true, recs := recs, qseq := 3 }
/-- The leaf of the first GiB. -/
def leaf0 : Leaf := { vi := 0, asid := 0, vpage := 0x1000000, span := 262144, pte := 0x20000000000000CF, pteAt := 0x5200 }
/-- A good tile without a launch, the page table, and queue 0 with these records. -/
def hostAt (recs : List QRec) : State := { State.reset with
  agenda := []
  tiles := [(0, { named := true, name := 0x8000 })]
  l2 := pageTable
  leaves := [leaf0]
  vis := [(0, { fmask := 1, asidN := 1, roottab := 0x2000, queues := [(0, queue0 recs)] })] }

/-- The state has the page table. -/
def Mapped (s : State) : Prop := (s.vi 0).roottab = 0x2000 ∧ (s.vi 0).asid0 = 0 ∧ s.paWord 0x2000 = 0x3001 ∧
  s.paWord 0x3000 = 0x4001 ∧ s.paWord 0x4000 = 0x5001 ∧ s.paWord 0x5200 = 0x20000000000000CF ∧ s.poison = [] ∧ s.bad = [] ∧
  s.weak = [] ∧ s.rims = [] ∧ (s.field 0).live ≠ 0 ∧ s.leaves = [leaf0]

theorem walkStep (read : Nat → Word) (va : Word) (n table : Nat) (e : Word) (seen : List (Nat × Nat))
    (h : read (table + 8 * vaIndex va (n + 1)) = e) (hv : pteV e = true) (hm : pteMalformed (n + 1) e = false)
    (hl : pteLeaf e = false) :
    walkFrom read va (n + 1) table seen = walkFrom read va n (4096 * ptePfn e) ((n, 4096 * ptePfn e) :: seen) := by
  rw [walkFrom]
  simp [h, hv, hm, hl]

theorem walkLeaf (read : Nat → Word) (va : Word) (n table : Nat) (e : Word) (seen : List (Nat × Nat))
    (h : read (table + 8 * vaIndex va n) = e) (hv : pteV e = true) (hm : pteMalformed n e = false)
    (hl : pteLeaf e = true) (hz : sizeLevel (pteSize e) = n) :
    walkFrom read va n table seen = .ok (e, table + 8 * vaIndex va n, seen) := by
  unfold walkFrom
  simp [h, hv, hm, hl, hz]

theorem clean0 (s : State) (hs : Mapped s) (n : Nat) : s.poisoned (.pa n) = false := by
  obtain ⟨-, -, -, -, -, -, p, -, -, r, -⟩ := hs
  simp [State.poisoned, State.stackOk, p, r, sget]

theorem walk0 (s : State) (hs : Mapped s) (va : Word) (h : va.toNat / 2 ^ 30 = 64) :
    s.walk (luSpace 0 0) va = .ok (leaf0, [(2, 0x5000), (3, 0x4000), (4, 0x3000)]) := by
  have clean := clean0 s hs
  obtain ⟨v1, v2, w5, w4, w3, w2, -⟩ := hs
  have i4 : vaIndex va 4 = 0 := by unfold vaIndex; omega
  have i3 : vaIndex va 3 = 0 := by unfold vaIndex; omega
  have i2 : vaIndex va 2 = 64 := by unfold vaIndex; omega
  have r : s.rootOf (luSpace 0 0) va = .ok 0x3000 := by
    have a : s.rootAt (luSpace 0 0) = 0x2000 := by simp only [State.rootAt, luSpace, v1, v2]; rfl
    simp only [State.rootOf, a]
    rw [w5,
      show pteV 0x3001 = true from rfl, show ptePointer 0x3001 = true from by decide +kernel, clean]
    rfl
  have w : walkFrom s.paWord va 4 0x3000 [(4, 0x3000)] =
      .ok (0x20000000000000CF, 0x5200, [(2, 0x5000), (3, 0x4000), (4, 0x3000)]) := by
    rw [walkStep s.paWord va 3 0x3000 0x4001 _ (by rw [i4]; exact w4) (by decide +kernel) (by decide +kernel) (by decide +kernel),
      show 4096 * ptePfn 0x4001 = 0x4000 from by decide +kernel,
      walkStep s.paWord va 2 0x4000 0x5001 _ (by rw [i3]; exact w3) (by decide +kernel) (by decide +kernel) (by decide +kernel),
      show 4096 * ptePfn 0x5001 = 0x5000 from by decide +kernel,
      walkLeaf s.paWord va 2 0x5000 0x20000000000000CF _ (by rw [i2]; exact w2) (by decide +kernel) (by decide +kernel)
        (by decide +kernel) (by decide +kernel), i2]
  have v : va.toNat / 4096 / 262144 * 262144 = 0x1000000 := by omega
  unfold State.walk
  rw [r]
  simp only [luSpace, bind, Except.bind, need, w, show (walkReads s.paWord va 4 0x3000).any (fun a => s.poisoned (.pa (a / 64))) = false from by simp [clean],
    Bool.not_false, if_true, show pteSize 0x20000000000000CF = 4 from by decide +kernel,
    show sizePages 4 = 262144 from rfl, v, show ¬ (4 = 1 ∨ 4 = 3) from by decide, if_false]
  rfl

theorem walkErrors0 (s : State) (hs : Mapped s) (va : Word) : s.walkErrors (luSpace 0 0) va = s := by
  obtain ⟨-, -, -, -, -, -, -, b, w, -, -⟩ := hs
  have e (n : Nat) : s.lineErrors (.pa n) (luSpace 0 0).launch = s := by simp [State.lineErrors, b, w]
  simp only [State.walkErrors, e, ite_self]
  generalize s.walkLines (luSpace 0 0) va = l
  induction l with
  | nil => rfl
  | cons n l ih =>
    rw [List.foldl_cons, e]
    exact ih

theorem homeWord0 (s : State) (hs : Mapped s) (va : Word) (h : va.toNat / 2 ^ 30 = 64) (h8 : va.toNat % 64 ≤ 56) :
    s.homeWord (luSpace 0 0) va = .ok (leWord (lineBytes (s.lineAt (leaf0.key va)) (va.toNat % 64) 8), s) := by
  have hw := walk0 s hs va h
  have he := walkErrors0 s hs va
  obtain ⟨-, -, -, -, -, -, p, b, w, r, l, lv⟩ := hs
  have f : (fld va 57 7 : BitVec 7) = 0 := by
    apply BitVec.eq_of_toNat_eq
    simp [fld, Nat.shiftRight_eq_div_pow]
    omega
  have c : s.leafChecks .load leaf0.pte va = .ok () := by
    unfold State.leafChecks
    rw [show pteHome leaf0.pte = 0 from by decide +kernel]
    have l' : ¬ (s.field 0).live = 0#16 := l
    simp [l', need, show pteAttr leaf0.pte = 0 from by decide +kernel, show Need.ok .load leaf0.pte = true from by decide +kernel,
      Config.fields, bind, Except.bind]
  have t : s.translate (luSpace 0 0) .load va = .ok (leaf0, s) := by
    unfold State.translate
    have nl : s.noteLeaf leaf0 = s := by simp [State.noteLeaf, lv, leaf0]
    have g : ({ leaf0 with pte := leaf0.pte ||| 0x40 } : Leaf) = leaf0 := rfl
    simp only [he, f, need, bind, Except.bind, hw, c, Need.writes, g]
    show Except.ok (leaf0, (s.noteLeaf leaf0)) = _
    rw [nl]
  have k : leaf0.key va = .pa (leaf0.pa va / 64) := rfl
  have e : (leaf0.key va).exists = true := by
    rw [k]
    simp only [LineKey.exists, Leaf.pa, leaf0, show ptePfn 0x20000000000000CF = 0 from by decide +kernel, Config.hbmBytes, decide_eq_true_eq]
    omega
  have o : s.touch (luSpace 0 0) leaf0 va = .ok (leaf0.key va, s) := by
    unfold State.touch
    rw [show pteUnb leaf0.pte = false from by decide +kernel]
    simp [State.beyond, e]
  have q : s.lineErrors (leaf0.key va) none = s := by
    unfold State.lineErrors
    simp [b, w]
  have u : s.poisoned (leaf0.key va) = false := by
    rw [k]
    simp [State.poisoned, State.stackOk, p, r, sget]
  have n8 : Nat.min 8 (64 - va.toNat % 64) = 8 := by
    show min 8 (64 - va.toNat % 64) = 8
    omega
  unfold State.homeWord State.homePiece State.reach
  simp only [bind, Except.bind, t, o, n8]
  rw [show (luSpace 0 0).launch = none from rfl, q, u]
  rfl

theorem mapped0 (recs : List QRec) : Mapped (hostAt recs) := by
  refine ⟨rfl, rfl, ?_, ?_, ?_, ?_, rfl, rfl, rfl, rfl, ?_, rfl⟩
  · show (hostAt []).paWord 0x2000 = 0x3001
    decide +kernel
  · show (hostAt []).paWord 0x3000 = 0x4001
    decide +kernel
  · show (hostAt []).paWord 0x4000 = 0x5001
    decide +kernel
  · show (hostAt []).paWord 0x5200 = 0x20000000000000CF
    decide +kernel
  · show ((hostAt []).field 0).live ≠ 0
    decide +kernel

theorem word0 (recs : List QRec) (va : Word) (h1 : 64 * 2 ^ 30 + 0x8008 ≤ va.toNat) (h2 : va.toNat < 65 * 2 ^ 30)
    (h3 : va.toNat % 8 = 0) : leWord (lineBytes ((hostAt recs).lineAt (leaf0.key va)) (va.toNat % 64) 8) = 0 := by
  have k : leaf0.key va = .pa (va.toNat % 2 ^ 30 / 64) := by
    show LineKey.pa (leaf0.pa va / 64) = _
    unfold Leaf.pa
    rw [show ptePfn leaf0.pte = 0 from by decide +kernel, show 4096 * leaf0.span = 2 ^ 30 from rfl, Nat.mul_zero, Nat.zero_add]
  rw [k]
  by_cases e : va.toNat % 2 ^ 30 / 64 = 0x200
  · rw [e, show (hostAt recs).lineAt (.pa 0x200) = 0x1000000000 from rfl]
    have : va.toNat % 64 = 8 ∨ va.toNat % 64 = 16 ∨ va.toNat % 64 = 24 ∨ va.toNat % 64 = 32 ∨ va.toNat % 64 = 40 ∨
      va.toNat % 64 = 48 ∨ va.toNat % 64 = 56 := by omega
    rcases this with h | h | h | h | h | h | h <;> rw [h] <;> decide +kernel
  · have z : (hostAt recs).l2find (.pa (va.toNat % 2 ^ 30 / 64)) = none := by
      have n1 : va.toNat % 2 ^ 30 / 64 ≠ 0x80 := by omega
      have n2 : va.toNat % 2 ^ 30 / 64 ≠ 0xC0 := by omega
      have n3 : va.toNat % 2 ^ 30 / 64 ≠ 0x100 := by omega
      have n4 : va.toNat % 2 ^ 30 / 64 ≠ 0x148 := by omega
      generalize va.toNat % 2 ^ 30 / 64 = m at e n1 n2 n3 n4
      simp [State.l2find, hostAt, pageTable, beq_iff_eq, n1.symm, n2.symm, n3.symm, n4.symm, Ne.symm e]
    have b : ∀ l : List Nat, leNat (l.map (fun _ => (0 : Byte))) = 0 := by
      intro l
      induction l with
      | nil => rfl
      | cons a l ih =>
        show (0 : Byte).toNat + 256 * leNat (l.map (fun _ => (0 : Byte))) = 0
        rw [ih]
        rfl
    have q : (hostAt recs).lineAt (.pa (va.toNat % 2 ^ 30 / 64)) = 0 := by
      unfold State.lineAt
      rw [z]
      have x : (LineKey.pa (va.toNat % 2 ^ 30 / 64)).exists = true := by
        apply decide_eq_true
        show 64 * (va.toNat % 2 ^ 30 / 64) < 1152 * 2 ^ 30
        omega
      show State.hbmLine _ _ = 0
      unfold State.hbmLine
      rw [if_pos x]
      show BitVec.ofNat 512 (leNat ((List.range 64).map (fun _ => (0 : Byte)))) = 0
      rw [b]
      rfl
    rw [q]
    show BitVec.ofNat 64 (leNat ((List.range 8).map (fun k => (0 : Line).extractLsb' (8 * (va.toNat % 64 + k)) 8))) = 0
    rw [show (fun k => (0 : Line).extractLsb' (8 * (va.toNat % 64 + k)) 8) = fun _ => (0 : Byte) from funext (fun k => by
      apply BitVec.eq_of_toNat_eq
      simp), b]
    rfl

theorem luZero (recs : List QRec) (n : Nat) : ∀ va : Word, 64 * 2 ^ 30 + 0x8008 ≤ va.toNat → va.toNat + 8 * n ≤ 65 * 2 ^ 30 →
    va.toNat % 8 = 0 → (hostAt recs).luWords (luSpace 0 0) va n = .ok (List.replicate n 0, hostAt recs) := by
  induction n with
  | zero => intro va _ _ _; rfl
  | succ n ih =>
    intro va h1 h2 h3
    have a : (va + 8).toNat = va.toNat + 8 := by
      rw [BitVec.toNat_add]
      show (va.toNat + 8) % 2 ^ 64 = _
      omega
    simp only [State.luWords, homeWord0 _ (mapped0 recs) va (by omega) (by omega), word0 recs va h1 (by omega) h3, bind, Except.bind,
      ih (va + 8) (by omega) (by omega) (by omega)]
    rfl

theorem head0 (recs : List QRec) :
    leWord (lineBytes ((hostAt recs).lineAt (leaf0.key 0x1000008000)) ((0x1000008000 : Word).toNat % 64) 8) = 0x1000000000 := by
  rw [show leaf0.key 0x1000008000 = .pa 0x200 from by decide +kernel,
    show (hostAt recs).lineAt (.pa 0x200) = 0x1000000000 from rfl]
  decide +kernel

theorem luCons (s : State) (sp : Space) (va w : Word) (n : Nat) (l : List Word) (h : s.homeWord sp va = .ok (w, s))
    (h' : s.luWords sp (va + 8) n = .ok (l, s)) : s.luWords sp va (n + 1) = .ok (w :: l, s) := by
  simp only [State.luWords, h, h', bind, Except.bind]

theorem luWords0 (recs : List QRec) (n : Nat) (h : n < 0x10000) :
    (hostAt recs).luWords (luSpace 0 0) 0x1000008000 (n + 1) = .ok (0x1000000000 :: List.replicate n 0, hostAt recs) := by
  have a := luCons _ _ _ _ _ _ (homeWord0 _ (mapped0 recs) 0x1000008000 (by decide) (by decide))
    (luZero recs n (0x1000008000 + 8) (by decide) (by show 0x1000008008 + _ ≤ _; omega) (by decide))
  rwa [head0] at a

/-- The handler tables that the words at 0x8000 give. -/
def tables0 : Vector (Sparse (Vector Word 4)) 4 :=
  Vector.ofFn (fun c : Fin 4 => ((List.range 64).map (fun k => (k, Vector.ofFn (fun i : Fin 4 =>
    wordAt (0x1000000000 :: List.replicate 1023 0) (256 * c.val + 4 * k + i.val))))).filter (fun p => p.2 != Vector.replicate 4 0))

/-- The tables that words give. -/
def tablesOf (f : Nat → Word) : Vector (Sparse (Vector Word 4)) 4 :=
  Vector.ofFn (fun c : Fin 4 => ((List.range 64).map (fun k => (k, Vector.ofFn (fun i : Fin 4 =>
    f (256 * c.val + 4 * k + i.val))))).filter (fun p => p.2 != Vector.replicate 4 0))

theorem luTablesOf (s t : State) (sp : Space) (va : Word) (ws : List Word) (h : s.luWords sp va 1024 = .ok (ws, t)) :
    s.luTables sp va = .ok (tablesOf (wordAt ws), t) := by
  simp only [State.luTables, h, bind, Except.bind]
  rfl

/-- The words at 0x8000. -/
def words0 (k : Nat) : Word := if k = 0 then 0x1000000000 else 0
theorem wordAt0 (n : Nat) : wordAt (0x1000000000 :: List.replicate n 0) = words0 := by
  funext k
  cases k with
  | zero => rfl
  | succ k =>
    show ((List.replicate n (0 : Word))[k]?).getD 0 = 0
    rw [List.getElem?_replicate]
    split <;> rfl

theorem luTables0 (recs : List QRec) : (hostAt recs).luTables (luSpace 0 0) 0x1000008000 =
    .ok (tablesOf words0, hostAt recs) := by
  have h := luTablesOf _ _ _ _ _ (luWords0 recs 1023 (by decide))
  rwa [wordAt0] at h

theorem wit_Launches_slots : let s := hostAt []
    ((s.vi 0).queue 0).en = true ∧ (8 : BitVec 8).toNat % 8 = 0 ∧ sget? (32 * 5 + 31) ((s.vi 0).queue 0).slots = none ∧
    ((s.vi 0).queue 1).en = false ∧ (sget? (32 * 5 + 31) ({ slots := [(191, 7)] } : Queue).slots).isSome = true ∧
    (({ slots := [(191, 7)] } : Queue).recs.filter (fun r => !r.gone)).length < 64 := by decide +kernel
theorem luListsOf (s t u : State) (sp : Space) (ws wd : List Word) (tb : Vector (Sparse (Vector Word 4)) 4)
    (h1 : s.luTables sp 0x1000008000 = .ok (tb, t)) (h2 : t.luWords sp 0x1000008000 15 = .ok (wd, u))
    (h3 : ((fld (wordAt ws 7) 0 57).setWidth 64 : Word) = 0x1000008000) (h4 : ((fld (wordAt ws 8) 0 57).setWidth 64 : Word) = 0x1000008000)
    (h5 : (wordAt ws 17).toNat = 0) (h6 : (wordAt ws 6).toNat = 0) : s.luLists sp ws = .ok (tb, wd, [], [], u) := by
  simp only [State.luLists, bind, Except.bind, h3, h4, h1, h2, h5, h6, Nat.mul_zero, show ∀ a : Word, u.luWords sp a 0 = .ok ([], u) from fun _ => rfl]

theorem wit_Launches_validate : ∃ t s1, (hostAt [rec0 false]).luTables (luSpace 0 0) 0x1000008000 = .ok (t, s1) ∧
    tablesBad t = false ∧ ((hostAt [rec0 false]).vi 0).queue 0 = queue0 [rec0 false] ∧ firstBad record0 = none ∧
    firstBad (record0.set 3 1 |>.set 30 1) = some 30 :=
  ⟨_, _, luTables0 _, by decide +kernel, by decide +kernel, by decide +kernel, by decide +kernel⟩
theorem wit_Launches_start : ∃ (tb : Vector (Sparse (Vector Word 4)) 4) (wd fr ps : List Word) (s1 : State) (cells : Sparse Nat),
    let s := hostAt [rec0 true]
    s.luLists (luSpace 0 0) record0 = .ok (tb, wd, fr, ps, s1) ∧
    placeCells (newLaunch 0 0 (rec0 true) 0 [0] tb wd fr) [0] (fun x => (s1.tile x).grantable) = some cells ∧
    s.depsMet 0 0 (rec0 true) = true ∧ s.headHeld 0 0 = false ∧ grantOk (s.freeFields 0 0 0) [0] 1 1 = true := by
  have h : (hostAt [rec0 true]).luLists (luSpace 0 0) record0 =
      .ok (tablesOf words0, 0x1000000000 :: List.replicate 14 0, [], [], hostAt [rec0 true]) :=
    luListsOf _ _ _ _ record0 _ _ (luTables0 _) (luWords0 [rec0 true] 14 (by decide)) (by decide +kernel) (by decide +kernel) (by decide +kernel)
      (by decide +kernel)
  exact ⟨_, _, _, _, _, [(0, 0)], h, by decide +kernel, by decide +kernel, by decide +kernel, by decide +kernel⟩
theorem wit_Launches_complete : (∃ l, (idleAt {}).launch? 1 = some l) ∧ (idleAt {}).launchBusy 1 = false ∧
    (tileAt 0 .A ctx0).launchBusy 1 = true := ⟨⟨_, rfl⟩, by decide +kernel, by decide +kernel⟩
theorem wit_Launches_clear : ((idleAt { clearing := some 0 }).tile 0).clearing = some 0 ∧
    ((idleAt { clearing := some 9 }).tile 0).clearing ≠ some 0 := by decide +kernel
theorem wit_Launches_request : ∃ (x : List Word × State), let s := hostAt []
    (let hdr : Word := BitVec.ofNat 64 (0x40 * 2 ^ 56 + 2 * 2 ^ 46 + 0xFFFF * 2 ^ 24)
     hdrCnt hdr = 2 ∧ hdrChan hdr = 0) ∧ fld (0 : Word) 5 59 = (0 : BitVec 59) ∧ ((s.vi 0).queue 0).dev = true ∧
    ((s.vi 0).queue 0).en = true ∧ s.luWords (luSpace 0 0) 0x1000008000 32 = .ok x ∧ (((s.vi 0).queue 0).recs.filter (fun r => !r.gone)).length < 64 ∧
    ((s.vi 0).queue 1).dev = false := by
  obtain ⟨x, h⟩ := okOf ((hostAt []).luWords (luSpace 0 0) 0x1000008000 32) (by decide +kernel)
  exact ⟨x, by decide +kernel, by decide +kernel, rfl, rfl, h, by decide +kernel, rfl⟩
/-- A queue of 64 records that wait. -/
theorem wit_Launches_full : 64 ≤ ((queue0 (List.replicate 64 (rec0 true))).recs.filter (fun r => !r.gone)).length ∧
    ({ hostAt [] with mesh := [.request msg0 ceC 0] } : State).mesh[0]? = some (.request msg0 ceC 0) := by decide +kernel
/-- A predecessor of the queue was tainted, and word 0 bit 39 orders the record behind it. -/
theorem wit_Launches_commands : (let s : State := { hostAt [] with vis := [(0, { queues := [(0, { queue0 [{ seq := 0, words := [0x0100008000000000], valid := true }] with tainted := true })] })] }
    s.headHeld 0 0 = true) ∧ (((hostAt []).vi 0).queue 0).recs = [] ∧
    (hostAt [rec0 true]).headHeld 0 0 = false ∧ ((((hostAt [rec0 true]).vi 0).queue 0).recs.find? (fun r => r.seq == 5 && !r.gone)) = none ∧
    ((((hostAt [rec0 true]).vi 0).queue 0).recs.find? (fun r => r.seq == 0 && !r.gone)) = some (rec0 true) ∧
    ((idleAt {}).launches.find? (fun p => p.2.vi == 0 && p.2.queue == 0 && p.2.seq == 0)) = some (1, placeLaunch 0) := by
  decide +kernel
theorem wit_Launches_unbset : ((hostAt []).vi 0).hasAsid 0 = true ∧ ((hostAt []).vi 0).hasAsid 1 = false ∧
    (fld (0x500 : Word) 0 7 : BitVec 7).toNat < 84 ∧ 0 + (fld (0x500 : Word) 8 11 : BitVec 11).toNat ≤ 1536 := by decide +kernel

/-- A page table whose leaf at the first global address is an unbacked page, a line of it, and a migration of it to field 1. -/
def migAt (ls : List L2Line) : State := { State.reset with
  agenda := []
  l2 := [⟨.pa 0x80, 0x3001, false, 0, 0⟩, ⟨.pa 0xC0, 0x4001, false, 0, 0⟩, ⟨.pa 0x100, 0x5001, false, 0, 0⟩,
    ⟨.pa 0x148, 0x6001, false, 0, 0⟩, ⟨.pa 0x180, 0x90000000000000CF, false, 0, 0⟩] ++ ls
  fields := [(0, { fieldReset 0 with migrations := [⟨0, 0, 0x1000000, 1⟩] })]
  vis := [(0, { fmask := 1, asidN := 1, roottab := 0x2000 })] }
/-- Does the first migration of field 0 find an unbacked page, and does it fit? -/
def migrates (s : State) : Option Bool :=
  let s1 := s.modField 0 (fun g => { g with migrations := [] })
  match s1.walk { cluster := none, vi := 0, asid := 0 } 0x1000000000 with
  | .ok (p, _) => if pteUnb p.pte then some (s1.movePage p 1).isSome else none
  | .error _ => none
theorem wit_Moves_migration : ((migAt []).field 0).migrations = [⟨0, 0, 0x1000000, 1⟩] ∧ migrates (migAt []) = some true ∧
    migrates (migAt [⟨.unb 0 0x40000000, 0, true, 0, 0⟩]) = some false := by decide +kernel
/-- The saved image of the tile of launch 1, and behind it that of the same site for launch 2. -/
def awayAt : State := { hostAt [] with
  launches := [(1, placeLaunch 0), (2, placeLaunch 0)]
  images := [{ site := 0, vi := 0, launch := 1, bytes := [(3, 7)], ctxs := [ctx0], away := true },
    { site := 0, vi := 0, launch := 2, bytes := [(3, 9)], ctxs := [ctx0], away := true }] }
theorem wit_Moves_resume : ∃ im l, awayAt.images.find? (fun i => i.site == 0 && i.away &&
      (awayAt.launch? i.launch).any (fun l => !awayAt.rehomeHolds l)) = some im ∧
    awayAt.launch? im.launch = some l ∧ (awayAt.tile 0).free = true ∧ (awayAt.tile 0).grantable = true ∧
    im.ctxs[0]? = some ctx0 := ⟨_, _, rfl, rfl, rfl, rfl, rfl⟩
/-- R276, R277: the second launch that was pre-empted on the site keeps its own image. -/
theorem test_two_images_of_a_site : (match exec (.tileResume 0) awayAt with
    | .next t => ((t.tile 0).launch, (t.tile 0).spad, t.images.map (fun i => (i.launch, i.bytes)))
    | _ => (none, [], [])) = (some 1, [(3, 7)], [(2, [(3, 9)])]) := by decide +kernel
/-- R388: a suspect tile takes its launch back. -/
theorem test_suspect_tile_resumes : (match exec (.tileResume 0) { awayAt with tiles := [(0, { awayAt.tile 0 with status := 1 })] } with
    | .next t => (t.tile 0).launch
    | _ => none) = some 1 := by decide +kernel
/-- A launch all of whose cells have arrived, with pages homed in field 0, and a rehome event of field 0. -/
def steppedAt (rehome : Sparse Nat) : State := { hostAt [] with
  launches := [(1, { placeLaunch 0 with stepArr := [0] })]
  tiles := [(0, { named := true, name := 0x8000, launch := some 1 })]
  rehome := rehome
  refTicks := 1000000 }
theorem wit_Moves_step : ∃ l, (steppedAt []).launch? 1 = some l ∧ l.cells ≠ [] ∧ l.stepDone = true ∧
    (steppedAt []).rehomeHolds l = false ∧ (steppedAt []).retirees 1 = [] ∧ (steppedAt []).changeOk l l.fields [] [] = true ∧
    (placeLaunch 0).stepDone = false := ⟨_, rfl, by decide +kernel, by decide +kernel, by decide +kernel, by decide +kernel, by decide +kernel, by decide +kernel⟩
/-- The one tile of the launch retires, so that its cell fits nowhere, with no further field that it may have, and with one. -/
def noCell (mask : BitVec 84) (maxf : Word) : State := { steppedAt [] with
  launches := [(1, { placeLaunch 0 with stepArr := [0], rec_ := [0x0100000000000000, 0x0000000100010001 + 256 * maxf] })]
  tiles := [(0, { named := true, name := 0x8000, launch := some 1, leaving := some 0, status := 2 })]
  vis := [(0, { fmask := mask, asidN := 1, roottab := 0x2000, queues := [(0, queue0 [])] })] }
theorem wit_Moves_no_grid : ∃ l, (noCell 3 2).launch? 1 = some l ∧ l.cells ≠ [] ∧ l.stepDone = true ∧
    (noCell 3 2).rehomeHolds l = false ∧ (noCell 3 2).changeOk l l.fields [] [] = true ∧ (noCell 3 2).retirees 1 = [0] ∧
    ((noCell 3 2).tile 0).quiet = true ∧ (noCell 3 2).stepEnds 0 = true ∧
    (((noCell 3 2).retirees 1).foldl (fun t x => t.leaveTile 1 x) (noCell 3 2)).patchAll 1 l ((noCell 3 2).retirees 1) = none ∧
    (noCell 3 2).noGrid l l.fields = false ∧ (noCell 3 1).noGrid { l with rec_ := [0x0100000000000000, 0x0000000100010101] } l.fields = true :=
  ⟨_, rfl, by decide +kernel⟩
theorem wit_Moves_timeouts : (∃ t0, ({ leaving := some 0 } : Tile).leaving = some t0 ∧ t0 + 1000000 ≤ (steppedAt []).refTicks) ∧
    (∀ i ∈ (steppedAt []).images, i.launch ≠ 1) ∧ (∃ l, (steppedAt []).launch? 1 = some l ∧ l.cells ≠ [] ∧
      ∀ p ∈ l.cells, p.2 ∈ l.stepArr) ∧ (placeLaunch 0).boundary = false ∧ ¬ (∀ p ∈ (placeLaunch 0).cells, p.2 ∈ (placeLaunch 0).stepArr) ∧
    (∃ x ∈ ({ steppedAt [] with tiles := [(0, { named := true, launch := some 1, leaving := some 0, status := 2 })] } : State).retirees 1, x = 0) :=
  ⟨⟨0, rfl, by decide⟩, by decide, ⟨_, rfl, by decide, by decide⟩, rfl, by decide, 0, by decide +kernel, rfl⟩
/-- The event has waited 10 ms for launch 1, whose pages are homed in field 0, in an interface with these many units. -/
def lateAt (imglen : BitVec 32) (t : Tile) : State := { steppedAt [(0, 0)] with
  launches := [(1, placeLaunch 0)]
  tiles := [(0, { t with named := true, name := 0x8000, launch := some 1 })]
  vis := [(0, { fmask := 1, asidN := 1, roottab := 0x2000, imglen := imglen, queues := [(0, queue0 [])] })] }
/-- R413: a launch that has reached its step lets the retiring tile go there, one that has not is pre-empted. -/
theorem test_retirement_at_a_step : ([[0], []].map (fun arr => match exec (.retirementStepTimeout 1) { lateAt 9 { leaving := some 0, status := 2 } with
      launches := [(1, { placeLaunch 0 with stepArr := arr })] } with
    | .next t => (t.tile 0).preempt.isSome
    | _ => false)) = [false, true] := by decide +kernel
theorem wit_Moves_rehome : (sget? 0 (lateAt 0 {}).rehome).isSome = true ∧ ((lateAt 0 {}).field 0).enabled ≠ 0 ∧
    (lateAt 0 {}).rehomeFields 0 = [0] ∧ (lateAt 0 {}).atBoundaries 0 = false ∧
    ({ lateAt 0 {} with launches := [] } : State).atBoundaries 0 = true ∧ (lateAt 0 {}).rehomeAffects (placeLaunch 0) 0 = true ∧
    (lateAt 0 {}).rehomeHolds (placeLaunch 0) = true := by decide +kernel
/-- Field 0 loses its last slice, and every other live field takes part. -/
theorem wit_Moves_rehome_joined : (let s : State := { lateAt 0 {} with launches := [], fields := [(0, { fieldReset 0 with enabled := 0 })] }
    (s.rehomeFields 0).length = 84 ∧ (s.rehomeFields 0).all s.atBoundaries = true) := by decide +kernel
theorem wit_Moves_preempt : (∃ l, (lateAt 9 {}).launch? 1 = some l ∧ (lateAt 9 {}).preemptReason l = true ∧ (idleAt {}).preemptReason l = false) ∧
    ((lateAt 9 {}).tile 0).launch = some 1 ∧ ((lateAt 9 {}).tile 0).preempt = none ∧
    ((lateAt 9 {}).vi 0).imgused.toNat + (lateAt 9 {}).unitsAsked 0 0 +
      imageUnits (((lateAt 9 {}).savedCtxs 0).length + ((lateAt 9 {}).tile 0).resident.length) ((lateAt 9 {}).tile 0).dirty.length ≤
        ((lateAt 9 {}).vi 0).imglen.toNat ∧
    ¬ (((lateAt 0 {}).vi 0).imgused.toNat + (lateAt 0 {}).unitsAsked 0 0 + imageUnits 0 0 ≤ ((lateAt 0 {}).vi 0).imglen.toNat) ∧
    ((lateAt 9 { preempt := some 0 }).tile 0).preempt.isSome = true ∧ ((lateAt 9 { preempt := some 0 }).tile 0).resident = [] ∧
    ((lateAt 9 { preempt := some 0 }).tile 0).quiet = true ∧
    ((lateAt 9 { preempt := some 0 }).vi 0).imgused.toNat + (lateAt 9 { preempt := some 0 }).imageNeed 0 ≤
      ((lateAt 9 { preempt := some 0 }).vi 0).imglen.toNat ∧
    ¬ (((lateAt 0 { preempt := some 0 }).vi 0).imgused.toNat + (lateAt 0 { preempt := some 0 }).imageNeed 0 ≤
      ((lateAt 0 { preempt := some 0 }).vi 0).imglen.toNat) := ⟨⟨_, rfl, by decide +kernel, by decide +kernel⟩, by decide +kernel⟩

/-- Two collective commands that may form one group, one expired. -/
theorem wit_Health_groups : let s : State := { engAt clR with parts := [⟨clR, 0, 0, none⟩] }
    s.parts[0]? = some ⟨clR, 0, 0, none⟩ ∧ (s.parts.filter (fun q => sameGroup q.cmd clR)).head? = some ⟨clR, 0, 0, none⟩ := by
  decide +kernel
theorem wit_Health_retention : ((idleAt { idle := 65536 }).tile 0).retain = .active ∧
    ((idleAt { idle := 65536 }).tile 0).launch.isSome = true ∧ ((idleAt { idle := 65536 }).tile 0).resident = [] ∧
    ((idleAt { idle := 65536 }).tile 0).inbox = [] ∧ 65536 ≤ ((idleAt { idle := 65536 }).tile 0).idle ∧
    ((idleAt { retain := .entering 0 }).tile 0).retain = .entering 0 ∧
    ((idleAt { retain := .leaving 0 }).tile 0).retain = .leaving 0 ∧
    ((idleAt { retain := .retained, inbox := [task0] }).tile 0).inbox ≠ [] ∧
    ({ idleAt { retain := .retained } with mesh := [.message 0 msg0 none none] } : State).messageFor 0 = true := by
  decide +kernel
/-- A tile that a task in the Launch Unit waits for. -/
theorem wit_Health_retention_queued :
    ({ idleAt { retain := .retained } with luTasks := [⟨task0, 0, .queued⟩] } : State).queuedFor 0 = true := by decide +kernel
/-- R410: a check that raises ADD to CEIL marks the clusters whose margin is low. -/
theorem test_worn_after_the_raise : (match exec (.guardBandCheck 0) { State.reset with
      refTicks := 2 ^ 32, clusters := [(0, { marginMin := 9 })], fields := [(0, { fieldReset 0 with add := 57, ceil := 60 })] } with
    | .next t => ((t.field 0).add, (t.field 0).worn.getLsbD 0)
    | _ => (0, false)) = (60, true) := by decide +kernel
theorem wit_Health_replay : ((idleAt {}).tile 0).cur = none := rfl
/-- A running task of a launch that may run again elsewhere, and one that may not. -/
theorem wit_Health_replay_running : (let s := lossAt 0x0100004000000000 [(1, { launch := some 1 })]
    (s.tile 0).cur = some 0 ∧ s.ctx? 0 0 = some ctx0 ∧ (s.tile 0).launch = some ctx0.task.msg.launch ∧
    (s.launch? ctx0.task.msg.launch).map (·.restartable) = some true ∧
    (ctx0.task.repeated .timing (ctx0.pcOf .A)).rep < 16 ∧ s.otherTiles ctx0.task.msg.launch 0 ≠ []) ∧
    ((lossAt 0x0100000000000000 []).launch? ctx0.task.msg.launch).map (·.restartable) = some false := by decide +kernel
theorem wit_Health_periods : State.reset.refTicks < 2 ^ 32 * ((State.reset.field 0).checks + 1) ∧
    2 ^ 32 * ((({ State.reset with refTicks := 2 ^ 32 } : State).field 0).checks + 1) ≤ 2 ^ 32 ∧
    (let o : RouterName := ⟨0x8000, 0, 3, 0⟩
     o.age < 15 ∧ o.since + 2 ^ 16 * (o.age + 1) ≤ ({ State.reset with refTicks := 2 ^ 32 } : State).routerTick 0) := by decide +kernel

/-- A held task, and what a driver asks. -/
theorem wit_Driver_tasks : let t : LuTask := ⟨task0, 0, .parked⟩
    let s := { idleAt {} with luTasks := [t] }
    s.luTasks.find? (·.named 0 0 7) = some t ∧ s.luTasks.find? (·.named 0 0 8) = none ∧
    s.luTasks.filter (fun t => t.state == .parked && t.task.msg.vi == 0 && (s.launch? t.task.msg.launch).map (·.asid) == some 0) ≠ [] := by
  decide +kernel
theorem wit_Driver_others : ((hostAt []).vi 0).shoots.length < 16 ∧ ((hostAt []).vi 0).hasAsid 0 = true ∧
    ({ shoots := [⟨0, 0, 0, 0⟩] } : VI).shoots = [⟨0, 0, 0, 0⟩] ∧ ({ frpend := [[1]] } : VI).frpend = [[1]] ∧
    (({} : VI).frtail - ({} : VI).frhead).toNat < 2 ^ ({} : VI).frlog ∧
    (({ frctl := 1 } : VI).frctl.getLsbD 0 = true ∧ ({} : VI).frctl.getLsbD 0 = false) ∧ ((hostAt []).vi 0).quoting = false ∧
    ({ quoting := true } : VI).quoting = true := by decide +kernel
theorem wit_Driver_vote : (∀ f, f < 84 → (({ State.reset with fields := (List.range 84).map (fun k => (k, { fieldReset k with mapst := 2 })) } : State).field f).mapst = 2) ∧
    (∃ f, f < 84 ∧ (State.reset.field f).mapst ≠ 2 ∧ (State.reset.field f).mapst ≠ 3) := by
  refine ⟨by decide +kernel, 0, by decide, by decide, by decide⟩

theorem wit_Registers : (∃ t, (hostAt []).pageWrite 0 0x48 7 = some t) ∧ (∃ t, (hostAt []).cfgWrite 0x01001000 0x18001 = .ok t) ∧
    (5 : Word).toNat % 4 ≠ 2 ∧ (6 : Word).toNat % 4 = 2 ∧ ((hostAt []).tile 0).launch = none ∧
    ((idleAt {}).tile 0).launch ≠ none ∧ ((idleAt {}).tile 0).status ≠ 2 ∧ (hostAt []).portOwner 0 = none :=
  ⟨⟨_, rfl⟩, ⟨_, rfl⟩, by decide, by decide, rfl, by decide +kernel, by decide +kernel, rfl⟩
/-- A root port of interface 0. -/
def portAt : State := { hostAt [] with vis := [(0, { ports := 1, fmask := 1, asidN := 1, roottab := 0x2000, queues := [(0, queue0 [])] })] }
/-- R405: an MSI-X write raises its vector at a port that no interface owns. -/
theorem test_msix_without_owner : (match exec (.rootPortDma 0 (.msix 5)) (hostAt []) with
    | .next t => ((sget ({} : Port) 0 t.ports).irqs, (sget ({} : Port) 0 t.ports).status)
    | _ => ([], .abort)) = ([5], .ok) := by decide +kernel
theorem wit_Dma_read : ∃ x, portAt.portOwner 0 = some 0 ∧ (portAt.vi 0).hasAsid 0 = true ∧ (portAt.vi 0).hasAsid 1 = false ∧
    portAt.dmaRead { cluster := none, vi := 0, asid := 0 } (pieces 0x1000008000 8 8) = .ok x :=
  let ⟨x, h⟩ := okOf (portAt.dmaRead { cluster := none, vi := 0, asid := 0 } (pieces 0x1000008000 8 8)) (by decide +kernel)
  ⟨x, by decide +kernel, by decide +kernel, by decide +kernel, h⟩
theorem pairNone {α β : Type} (p : α × Option β) (h : p.2.isNone = true) : ∃ l, p = (l, none) := by
  obtain ⟨l, o⟩ := p
  cases o with
  | none => exact ⟨l, rfl⟩
  | some x => cases h
theorem wit_Dma_write : ∃ l, portAt.dmaWrite { cluster := none, vi := 0, asid := 0 } (pieces 0x1000008000 8 8) (leBytes 8 5) = (l, none) :=
  pairNone _ (by decide +kernel)

/-- Flash with nothing in it has no slot that the ROM accepts. -/
theorem wit_Boot_none : State.reset.bootStage = 0 ∧ State.reset.slotOk 0 = false ∧ State.reset.slotOk 0x1000000 = false ∧
    ({ State.reset with bootStage := 1 } : State).bootStage = 1 := by decide +kernel
/-- Flash with the header of an empty image in a slot. Whether its signature verifies is an opaque constant of Config, so
that it does is an assumption of the witness. -/
def slotAt (a : Nat) : State := { State.reset with flash := Memory.writeN State.reset.flash a (leBytes 8 0x1465A5653) }
theorem wit_Boot_slot (h : ∀ k m s, Config.ed25519Verify k m s = true) : (slotAt 0).bootStage = 0 ∧ (slotAt 0).slotOk 0 = true ∧
    (slotAt 0x1000000).slotOk 0 = false ∧ (slotAt 0x1000000).slotOk 0x1000000 = true := by
  refine ⟨rfl, ?_, by decide +kernel, ?_⟩ <;> unfold State.slotOk <;> simp only [h] <;> decide +kernel

/-- Every byte store of the state after reset is in canonical form, and its step goes on. -/
theorem wit_StepsKeepMemoriesCanonical : State.reset.memoriesOk = true ∧ ∃ t, step State.reset = .next t := by
  refine ⟨by decide +kernel, ?_⟩
  have h : (match step State.reset with | .next _ => true | _ => false) = true := by decide +kernel
  revert h
  cases step State.reset with
  | next t => exact fun _ => ⟨t, rfl⟩
  | fault f => intro h; cases h
  | refused r => intro h; cases h

/-! Clauses about errors of tags, hints, groups, tables, records and checks -/

/-- Tags 16 and 17 stand in doubleword 8, which has an error that cannot be corrected. -/
theorem wit_FullEmptyTags_uce : (∃ w ∈ wordsAt 0x40 8, w / 2 ∈ ({ bad := [8] } : Tile).bad) ∧
    (∀ w ∈ wordsAt 0x40 8, w / 2 ∉ ({} : Tile).bad) := by decide
/-- R385: the tag that a waiting load reads is in the doubleword. -/
theorem test_tag_read_meets_its_error : (match (tileAt 0 .A ctxL { bad := [8] }).feAccess 0 ctxL (feLdf 8) 0x40 0 with
    | .error (.trap t) => some t.code
    | _ => none) = some .uce := by decide +kernel

/-- The task of the tile at site 0 asks for 100 tokens: what its Drover has free, what the interface's cap is, a notice of 5
tokens that the tile at site 1 has, and what the mesh carries. -/
def hintAt (free cap : Nat) (notice : Holding) (mesh : List Flight) (recalls : List Recall := []) : State :=
  let s := tileAt 0 .A { ctxT with x := vput ctx0.x 1 100 }
  { s with
    tiles := s.tiles ++ [(1, { named := true, name := 0x8001, launch := some 1, ctxs := vput ({} : Tile).ctxs 0 (some { ctx0 with tok := notice }) })]
    vis := [(0, { tokcap := cap })]
    fields := [(0, { fieldReset 0 with drover := { share := 0, free := free, recalls := recalls } })]
    mesh := mesh }
def hintOf (s : State) : Option (Nat × Nat) := match exec (.tokreq 3 1) s with
  | .next t => (t.ctx? 0 0).map (fun c => ((vget 0 c.x 3).toNat / 65536, (vget 0 c.x 3).toNat % 4))
  | _ => none
/-- R303: no known release; the cap alone; a notice of 100 ticks that frees tokens, and one that only pays a recall. -/
theorem test_hints : [hintAt 0 1000 {} [], hintAt 50 0 {} [], hintAt 0 1000 { own := 5, notice := 5, left := 100 } [],
    hintAt 0 1000 { own := 5, notice := 5, left := 100 } [] [⟨1, 5⟩]].map hintOf =
      [some (64, 2), some (65535, 2), some (7, 2), some (64, 2)] := by decide +kernel
/-- The hypotheses of the same requests, and of one while a loan is on its way. -/
theorem wit_TokensOfATask_hints : ctxT.tok.avail < min 100 128 ∧ ctxT.tok.notice = 0 ∧
    (∀ s ∈ [hintAt 0 1000 {} [], hintAt 50 0 {} [], hintAt 0 1000 {} [.loan 1 0 16]],
      let u := (s.setCtx 0 0 { ctxT with tok := { ctxT.tok with want := 80, opened := true, since := s.refTicks, ord := s.nextOrd 0 } }).grant 0
      80 - u.wantOf 0 0 = 0) ∧
    (let w := hintAt 0 1000 { own := 5, notice := 5, left := 100 } []
     ((w.holdings.filterMap (fun p => w.holding? p.1 p.2)).filter (fun h => h.notice ≠ 0 ∧ h.by_ = 0)).length = 1) ∧
    (hintAt 50 0 {} []).viRoom 0 = 0 ∧ Flight.loan 1 0 16 ∈ (hintAt 0 1000 {} [.loan 1 0 16]).mesh := by
  refine ⟨by decide +kernel, by decide +kernel, by decide +kernel, by decide +kernel, by decide +kernel, .head _⟩

/-- A reduction of one element of two parts, 1.0 standing at SRC; the same group with another number of parts. -/
def clR2 : Cmd := cmdOf 0x30 4 6 [0x1000000000, 0x1000000040, 0x700000001, 0x800080000]
def clAt2 (m : Cmd) : State := { clAt m with mem := Memory.writeN [] 0x1000 (leBytes 4 0x3F800000), links := [(0, { up := true })] }
def farR : List (Byte × Bool) := (leBytes 4 0x40000000).map (fun b => (b, false))
/-- R216, R217: a part of another module brings 2.0, the part here 1.0, and 3.0 goes to its DST. -/
theorem test_reduction_of_two_modules : (match (clAt2 clR2).farPart 0 clR2 farR with
    | .next s => (match (s.startCmd 0 0 clR2).joinGroup 0 clR2 with
      | .ok t => (leNat (lineBytes (t.lineAt (.pa 0x41)) 0 4), t.parts.length)
      | .error _ => (0, 9))
    | _ => (0, 8)) = (0x40400000, 0) := by decide +kernel
/-- R218: the root's bytes reach DST of the root itself. -/
theorem test_broadcast : (match ((clAt2 clB).startCmd 0 0 clB).joinGroup 0 clB with
    | .ok t => leNat (lineBytes (t.lineAt (.pa 0x41)) 0 64)
    | .error _ => 0) = 0x3F800000 := by decide +kernel
theorem wit_Groups_join : sameGroup clR2 clR = true ∧ agreeParts clR2 clR = false ∧ agreeParts clR2 clR2 = true ∧
    groupMod clR2.groupWord = (clAt2 clR2).moduleNumber ∧ groupParts clR2.groupWord = 2 ∧ groupParts clR.groupWord = 1 ∧
    ((clAt2 clR2).siteOfName 0 1 (hdrDest clR2.hdr)).isSome = true ∧ (clAt2 clR2).siteOfName 0 1 0x1234 = none ∧
    ¬ (clR2.word 1).toNat < 2 ^ 36 ∧ (({ clAt2 clR2 with links := [] } : State).reachable 5) = false := by decide +kernel
/-- The sources of a group are read and its results written. -/
theorem wit_Groups_run : (match (clAt2 clR2).partSources [⟨clR2, 0, 0, none⟩, ⟨clR2, 0, 0, some farR⟩] with
    | .ok x => ([(⟨clR2, 0, 0, none⟩ : ClPart), ⟨clR2, 0, 0, some farR⟩].foldlM (fun (s : State) p => s.partResult p farR 0) x.2).isOk
    | .error _ => false) = true ∧
    (match (clAt2 clB).partSource ⟨clB, 0, 0, none⟩ with
    | .ok x => ([(⟨clB, 0, 0, none⟩ : ClPart)].foldlM (fun (s : State) p => s.partResult p x.1 0) x.2).isOk
    | .error _ => false) = true ∧
    ([(⟨clB, 0, 0, none⟩ : ClPart), ⟨clB, 0, 1, none⟩].filter (fun p => p.cmd.word 1 ≠ 0xFFFFFFFFFFFFFFFF)).length ≠ 1 := by
  decide +kernel
/-- Where a result goes, and what comes from another module. -/
theorem wit_Groups_far : ((clAt2 clR2).writeLoad ((clAt2 clR2).spaceOf 0) 0 (0x1000000040, farR)).2.isNone = true ∧ farR ≠ [] ∧
    ((clAt2 clR2).engPut ((clAt2 clR2).spaceOf 0) 0 0x1000000040 farR).isOk = true ∧
    ((clAt2 clR2).reach ((clAt2 clR2).spaceOf 0) .store 0x1000000040).isOk = true ∧
    (∃ p ∈ (clAt2 clR2).links, p.2.up = true) ∧ (clAt2 clR2).siteOfName 0 1 (hdrDest clR2.hdr) = some 0 ∧
    farR.length = clR2.clBytes ∧
    ((clAt2 clR2).joinPart { cmd := clR2, site := 0, since := (clAt2 clR2).tick 0, far := some farR }).isOk = true ∧
    (let m := cmdOf 0x30 4 6 [0x1000000000, 0x1000000040, 0x700000001, 0x80000800080000]
     (fld m.groupWord 43 21 : BitVec 21) ≠ (clAt2 m).moduleNumber ∧
     ({ clAt2 m with parts := [⟨m, 0, 0, none⟩] } : State).parts[0]? = some ⟨m, 0, 0, none⟩ ∧ farR.length = m.clBytes ∧
     ((clAt2 m).partResult ⟨m, 0, 0, none⟩ farR 0).isOk = true) := by
  refine ⟨by decide +kernel, by decide +kernel, by decide +kernel, by decide +kernel, ⟨_, .head _, rfl⟩, by decide +kernel,
    by decide +kernel, by decide +kernel, by decide +kernel⟩
/-- A table of two words, read where its marks are clean and where they are not. -/
theorem wit_IndexTables : ((engAt geG).engRead ((engAt geG).spaceOf 0) 0 0x800 8).isOk = true ∧
    ((engAt geG).hurdCheck 0 geG).isOk = true ∧ ((engAt geG).registerReads 0 geG [(0x800, 8)]).isOk = true ∧
    (geG.word 3).toNat % 4 = 0 := by decide +kernel
/-- R386: a poisoned index marks what it places and taints the launch. -/
theorem test_poisoned_index : (let s := engAt geG
    match (s.modTile 0 (fun t => { t with poison := [0x100] })).table32 (s.spaceOf 0) 0 0x800 2 with
    | .ok (ws, t) => (ws, (t.launch? 1).map (·.tainted))
    | .error _ => ([], none)) = ([(1, true), (0xFFFFFFFF, true)], some true) := by decide +kernel

/-- A pair goes to three registers. -/
theorem wit_PairsOfAFold_given : let u := ((tileAt 0 .A ctx0).setCtx 0 0 { ctx0 with pairs := ctx0.pairs ++ [⟨pairN, 0, false, false⟩] }).reband 1
    (match u.dst .A 3 (BitVec.ofNat 64 (64 * pairN.a.toNat)) with
    | .ok s1 => (match s1.dst .A 4 (BitVec.ofNat 64 (64 * pairN.b.toNat)) with
      | .ok s2 => (s2.dst .A 5 (BitVec.ofNat 64 (2 ^ 32 * pairN.dom.toNat + pairN.ts.toNat))).isOk
      | .error _ => false)
    | .error _ => false) = true := by decide +kernel
/-- A slot of OUTA that crosses a line. -/
theorem wit_RulesOfANet_out_crossing : 56 < (0x100000023C : Word).toNat % 64 ∧
    (match (netJ 0x1000000204).reach actJ.sp .store 0x100000023C with
    | .ok (_, k, s) => (match s.reach actJ.sp .store (0x100000023C + BitVec.ofNat 64 (64 - (0x100000023C : Word).toNat % 64)) with
      | .ok (_, k2, s2) => k.exists && k2.exists && k != k2 && s2.mem.wf && s2.rims.isEmpty
      | .error _ => false)
    | .error _ => false) = true := by decide +kernel
/-- R228, R356: its bytes lie in both lines. -/
theorem test_out_crosses_a_line : (match Work.out ([], netJ 0x1000000204) actJ 0x8000000000000007 0x1122334455667788 with
    | .ok w => (leNat (lineBytes (w.2.lineAt (.pa 0x48)) 60 4), leNat (lineBytes (w.2.lineAt (.pa 0x49)) 0 4))
    | .error _ => (0, 0)) = (0x55667788, 0x11223344) := by decide +kernel

/-- R162's example: 2,048 bytes hold a VT at f = 1/4 for 16 ticks. -/
theorem test_vector_unit_held : (((tileAt 28 .C ctx0).holdVector 28 0 ctx0 2048).tile 28).vecHold = 16 ∧ siteClass 28 = .vt := by
  decide +kernel
theorem wit_VectorFrame_hold : (tileAt 0 .C ctx0).ctx? 0 0 = some ctx0 ∧ (8 : Nat) ≠ 0 := ⟨rfl, by decide⟩
/-- R180: −0 lies below +0, and a NaN is passed over. -/
theorem test_float_maximum : (reduceEls .fp32 1 Modes.ne [0x80000000, 0x7FC00001, 0]).p = 0 ∧
    (reduceEls .fp32 2 Modes.ne [0, 0x7FC00001, 0x80000000]).p = 0x80000000 := by decide +kernel
theorem wit_Reductions_floats : fmtOf .fp32 = some .fp32 ∧ (∀ e ∈ [0x80000000, 0], e < 2 ^ Fmt.fp32.bits) ∧
    Fmt.fp32.isNaN 0 = false ∧ Fmt.fp32.isNaN 0x7FC00001 = true := by decide +kernel

/-- A net starts with no pair, and with one that finds no room. -/
theorem wit_Launches_net : (let s := idleAt {}
    let x : Actor := { site := 0, sp := { luSpace 0 0 with launch := some 1 }, launch := 1, vi := 0, dom := 0 }
    (s.pairFolds x (pairsOf 1 0 [])).isOk = true ∧ s.roomFor [] = true ∧ (s.field 0).fold.spilled = 0 ∧ (s.field 0).fold.onChip < 8192) ∧
    ({ idleAt {} with fields := [(0, { fieldReset 0 with fold := ⟨[⟨pairN, true, false, 0⟩], 0⟩ })] } : State).roomFor [(0, pairN)] = false ∧
    (let s := hostAt []
     let x : Actor := { site := 0, sp := luSpace 0 0, launch := 1, vi := 0, dom := 0 }
     (s.nodeField x pairN.a).isOk = true) := by decide +kernel
/-- The ring of queue 0 stands at 0x10000 of the page table's GiB. -/
def ringAt (tail : BitVec 32) : State := { hostAt [] with
  vis := [(0, { fmask := 1, asidN := 1, roottab := 0x2000, queues := [(0, { queue0 [] with cqbase := 0x1000010000, cqlog := 4, cqtail := tail })] })] }
theorem wit_Launches_ring : (((ringAt 5).vi 0).queue 0).pending = [] ∧ 2 ^ 4 ≤ ((16 : BitVec 32) - 0).toNat ∧ ((5 : BitVec 32) - 0).toNat < 2 ^ 4 ∧
    (match (ringAt 5).reach (luSpace 0 0) .store (BitVec.ofNat 64 (0x1000010000 + 64 * (5 % 2 ^ 4))) with
    | .ok (_, .pa n, s1) => decide (64 * n < Config.hbmBytes) && s1.stackOk n && s1.mem.wf
    | _ => false) = true := by decide +kernel
/-- R363, R364: STATUS 0xF0, VERD 2 and SEQ 3 in word 0, COOKIE in word 1, PH in word 7, in entry 5 of the ring. -/
theorem test_completion_record : (let t := (ringAt 5).complete 0 0 3 (List.replicate 18 0 ++ [77]) { status := 0xF0, verd := 2, detail := 0 }
    (leNat (t.mem.readN 0x10140 8), leNat (t.mem.readN 0x10148 8), leNat (t.mem.readN 0x10178 8), ((t.vi 0).queue 0).cqtail)) =
      (0xF080000000000003, 77, 0x8000000000000000, 6) := by decide +kernel
/-- A fault record waits, and its ring stands in HBM. -/
def faultsAt : State := { State.reset with vis := [(0, { frctl := 0x40001, frbase := 0x10000, frtail := 17, frpend := [[1, 2, 3, 4, 5, 6, 7, 0]] })] }
theorem wit_Driver_record : (faultsAt.vi 0).frpend = [[1, 2, 3, 4, 5, 6, 7, 0]] ∧ ((faultsAt.vi 0).frctl.getLsbD 0) = true ∧
    ((faultsAt.vi 0).frtail - 2).toNat < 2 ^ (faultsAt.vi 0).frlog ∧ (0x10000 + 64 * (17 % 2 ^ 4)) % 64 = 0 ∧
    0x10000 + 64 * (17 % 2 ^ 4) < Config.hbmBytes ∧ faultsAt.stackOk 0x401 = true ∧ faultsAt.mem.wf = true := by decide +kernel
/-- R379: on its second pass of the ring PH is 0. -/
theorem test_fault_record : (match exec (.faultRecordWrite 0) { faultsAt with vis := [(0, { faultsAt.vi 0 with frhead := 2 })] } with
    | .next t => (leNat (t.mem.readN 0x10040 8), leNat (t.mem.readN 0x10078 8), (t.vi 0).frtail)
    | _ => (0, 0, 0)) = (1, 0, 18) := by decide +kernel

/-- What a check comes to: the code and detail of its fault. -/
def faultOf {α : Type} (r : Try α) : Option (Code × Word) := match r with
  | .error (.trap t) => some (t.code, t.detail)
  | _ => none
/-- R369: ATTR before HOME before permission, on an entry of each kind. -/
theorem test_leaf_checks : [(0x7F0000000000003F, Need.load), (0x0540000000000001, .store), (0x07F0000000000003, .store),
    (0x07F0000000000003, .load), (0x07F0000000000009, .fetch), (0x07F0000000000005, .atomic)].map
      (fun p => faultOf (State.reset.leafChecks p.2 p.1 0x1000000000)) =
    [some (.prot, 5), some (.prot, 2), some (.prot, 0), none, none, some (.prot, 0)] := by decide +kernel
/-- R369: V, a malformed entry, a leaf at the wrong level, a pointer at level 0, and a leaf that is right. -/
theorem test_walk_checks : [((0 : Word), 3), (0x101, 3), (0xCF, 1), (0x1001, 0), (0xCF, 0)].map
      (fun p => faultOf (walkFrom (fun _ => p.1) 0x1000000000 p.2 0x3000 [])) =
    [some (.pagenp, 3), some (.prot, 4), some (.prot, 3), some (.prot, 4), none] := by decide +kernel
/-- Root entries, a walk from the root and one from a cached pointer, a hit, and a group of 16 entries that agree and that
do not. -/
theorem wit_MemoryAccesses_translation :
    (faultOf (State.reset.rootOf (luSpace 0 0) 0x1000000000) = some (.pagenp, 5) ∧ State.reset.poisoned (.pa 0) = false ∧
      (0x3001 : Word).toNat = 2 ^ 12 * ((0x3001 : Word).toNat / 2 ^ 12 % 2 ^ 40) + 1) ∧
    ((hostAt []).walkCached (luSpace 0 0) 0x1000000000 = none ∧ ((hostAt []).rootOf (luSpace 0 0) 0x1000000000).isOk = true ∧
      ((hostAt []).walk (luSpace 0 0) 0x1000000000).isOk = true) ∧
    (let s : State := { hostAt [] with clusters := [(0, { walks := [⟨0, 0, 2, vaAbove 0x1000000000 2, 0x5000⟩] })] }
     s.walkCached { luSpace 0 0 with cluster := some 0 } 0x1000000000 = some (2, 0x5000) ∧
     (walkReads s.paWord 0x1000000000 2 0x5000).all (fun a => !s.poisoned (.pa (a / 64))) = true) ∧
    (((clAt clR).cluster 0).tlbFind 0 0 0x1000000000).isSome = true ∧
    ((clAt clR).leafChecks .store 0x10CF 0x1000000000).isOk = true ∧
    (groupSplit (fun _ => 0x08000000000100CF) 0x8000).isNone = true ∧
    (groupSplit (fun a => if a = 0x8018 then 0x08000000000100CB else 0x08000000000100CF) 0x8000) = some 3 := by
  refine ⟨⟨by decide +kernel, by decide +kernel, by decide +kernel⟩, ⟨by decide +kernel, by decide +kernel, by decide +kernel⟩,
    ⟨by decide +kernel, by decide +kernel⟩, by decide +kernel, by decide +kernel, by decide +kernel, by decide +kernel⟩

end Sys2Proof.Tests
end

section
/-! PROOFS. The order of the decoder's checks, the reserved words and the privileged major opcode (R75, R76). -/

namespace Sys2Proof

/-! ## What the decoder answers -/

/-- Step 1 of R75 comes before every other check. -/
theorem decode_of_reservedWord {k : CoreKind} {w : IWord} (h : reservedWord k w = true) :
    decode k w = .error .illop := by
  simp [decode, h]

/-- A check that refuses with an error answers only when it passes. -/
theorem check_eq_ok_iff {c : Prop} [Decidable c] {e : DecodeError} {r : Except DecodeError Instr} {i : Instr} :
    (if c then .error e else r) = .ok i ↔ ¬c ∧ r = .ok i := by
  split <;> simp [*]

/-- A word has a meaning exactly when steps 1 to 5 of R75 all pass. -/
theorem decode_eq_ok_iff {k : CoreKind} {w : IWord} {i : Instr} :
    decode k w = .ok i ↔ reservedWord k w = false ∧ streamOk k w = true ∧ decodeRaw w = some i ∧
      i.fieldsOk k = true ∧ i.specsExist k = true ∧ i.dirsOk = true := by
  rw [decode, check_eq_ok_iff, check_eq_ok_iff]
  cases decodeRaw w with
  | none => simp
  | some j =>
    simp only [check_eq_ok_iff, Except.ok.injEq, Option.some.injEq, Bool.not_eq_true', Bool.not_eq_true,
      Bool.not_eq_false]
    constructor
    · rintro ⟨hr, hm, hf, hs, hd, rfl⟩
      exact ⟨hr, hm, rfl, hf, hs, hd⟩
    · rintro ⟨hr, hm, rfl, hf, hs, hd⟩
      exact ⟨hr, hm, hf, hs, hd, rfl⟩

/-! ## The reserved words -/

/-- R76, first sentence: a permanent word is reserved on every kind of core. -/
theorem reservedWord_permanent (k : CoreKind) {w : IWord} (h : w = 0 ∨ w = 0x80000000 ∨ w = 0xFFFFFFFF) :
    reservedWord k w = true := by
  rcases h with rfl | rfl | rfl <;> rfl

/-- R76: major 0x3F is reserved on every kind of core. -/
theorem reservedWord_major3F (k : CoreKind) {w : IWord} (h : fld w 25 6 = 0x3F) : reservedWord k w = true := by
  simp [reservedWord, h]

/-- R76: on a tile, major 0x3E is reserved like the others. -/
theorem reservedWord_tile_major3E {w : IWord} (h : fld w 25 6 = 0x3E) : reservedWord .tile w = true := by
  simp [reservedWord, h]

/-! ## The privileged set -/

theorem decodeRaw_major3E {w : IWord} (h : fld w 25 6 = 0x3E) : decodeRaw w = decode3E w := by
  simp [decodeRaw, h]

/-- The rows of major 0x3E are the six privileged words of R394. -/
theorem decode3E_eq_some {w : IWord} {i : Instr} (h : decode3E w = some i) :
    i = .fret ∨ (∃ a b, i = .mext a b) ∨ (∃ a b, i = .mget a b) ∨ (∃ a, i = .mlock a) ∨ (∃ d a, i = .cfgrd d a) ∨
      (∃ a b, i = .cfgwr a b) := by
  unfold decode3E at h
  split at h
  case h_7 => cases h
  all_goals
    split_ifs at h
    cases h
    simp

/-- Settles O4: the permanent words, major 0x3F, and major 0x3E on a tile fail step 1 of R75; on a Croft core a word of
major 0x3E that decodes is a row of `decode3E`. -/
theorem permanentlyIllegalWords : Obligations.PermanentlyIllegalWords := by
  unfold Obligations.PermanentlyIllegalWords
  refine ⟨fun k => ⟨?_, ?_, ?_⟩, fun k w h => ?_, fun w h => ?_, fun i w h hok => ?_⟩
  · exact decode_of_reservedWord (reservedWord_permanent k (.inl rfl))
  · exact decode_of_reservedWord (reservedWord_permanent k (.inr (.inl rfl)))
  · exact decode_of_reservedWord (reservedWord_permanent k (.inr (.inr rfl)))
  · exact decode_of_reservedWord (reservedWord_major3F k h)
  · exact decode_of_reservedWord (reservedWord_tile_major3E h)
  · obtain ⟨-, -, hraw, -⟩ := decode_eq_ok_iff.1 hok
    exact decode3E_eq_some (decodeRaw_major3E h ▸ hraw)

end Sys2Proof
end

section
/-! PROOFS. Division: what the four functions of R94 answer, in terms of the integers that their operands stand for, and
the instructions that compute them. -/

namespace Sys2Proof.Machine

/-! ## The pair whose quotient is beyond the range -/

theorem toInt_eq_min_iff {x : Word} : x.toInt = -2 ^ 63 ↔ x = 0x8000000000000000 := by
  rw [show (-2 ^ 63 : Int) = (0x8000000000000000 : Word).toInt by decide, BitVec.toInt_inj]

theorem toInt_eq_neg_one_iff {y : Word} : y.toInt = -1 ↔ y = BitVec.allOnes 64 := by
  rw [show (-1 : Int) = (BitVec.allOnes 64).toInt by decide, BitVec.toInt_inj]

/-! ## The saturated cases -/

/-- The sign bit of the dividend tells the end of the range. -/
theorem divS_zero (x : Word) :
    divS x 0 = if x = 0 then 0 else if 0 < x.toInt then 0x7FFFFFFFFFFFFFFF else 0x8000000000000000 := by
  rw [divS, if_pos rfl]
  by_cases hx : x = 0
  · rw [if_pos hx, if_pos hx]
  · have hne : x.toInt ≠ 0 := by rwa [← BitVec.toInt_zero (w := 64), BitVec.toInt_ne]
    rw [if_neg hx, if_neg hx, BitVec.msb_eq_toInt]
    by_cases hneg : x.toInt < 0
    · rw [if_pos (decide_eq_true hneg), if_neg (by omega)]
    · rw [if_neg (by simpa using hneg), if_pos (by omega)]

theorem divU_zero (x : Word) : divU x 0 = if x = 0 then 0 else 0xFFFFFFFFFFFFFFFF := if_pos rfl

theorem remS_zero (x : Word) : remS x 0 = 0 := if_pos (.inl rfl)

theorem remU_zero (x : Word) : remU x 0 = 0 := if_pos rfl

theorem divS_min_neg_one : divS 0x8000000000000000 (BitVec.allOnes 64) = 0x7FFFFFFFFFFFFFFF := by decide

theorem remS_min_neg_one : remS 0x8000000000000000 (BitVec.allOnes 64) = 0 := by decide

/-- Remainder 0 and a product that is not the dividend mark a saturated quotient. -/
theorem saturated_marked {x y : Word} (h : y = 0 ∧ x ≠ 0 ∨ x.toInt = -2 ^ 63 ∧ y.toInt = -1) :
    remS x y = 0 ∧ y * divS x y ≠ x := by
  rw [toInt_eq_min_iff, toInt_eq_neg_one_iff] at h
  obtain ⟨rfl, hx⟩ | ⟨rfl, rfl⟩ := h
  · exact ⟨remS_zero x, by simpa using Ne.symm hx⟩
  · exact ⟨remS_min_neg_one, by decide⟩

/-! ## The ordinary cases -/

theorem toNat_divU {x y : Word} (hy : y ≠ 0) : (divU x y).toNat = x.toNat / y.toNat := by
  rw [divU, if_neg hy, BitVec.toNat_udiv]

theorem toNat_remU {x y : Word} (hy : y ≠ 0) : (remU x y).toNat = x.toNat % y.toNat := by
  rw [remU, if_neg hy, BitVec.toNat_umod]

/-- Outside of the overflowing pair the library's wrapping quotient is exact. -/
theorem toInt_divS {x y : Word} (hy : y ≠ 0) (h : ¬(x.toInt = -2 ^ 63 ∧ y.toInt = -1)) :
    (divS x y).toInt = x.toInt.tdiv y.toInt := by
  rw [toInt_eq_min_iff, toInt_eq_neg_one_iff] at h
  rw [divS, if_neg hy, if_neg h]
  exact BitVec.toInt_sdiv_of_ne_or_ne x y (not_and_or.1 h)

theorem toInt_remS {x y : Word} (hy : y ≠ 0) (h : ¬(x.toInt = -2 ^ 63 ∧ y.toInt = -1)) :
    (remS x y).toInt = x.toInt.tmod y.toInt := by
  rw [toInt_eq_min_iff, toInt_eq_neg_one_iff] at h
  rw [remS, if_neg (not_or.2 ⟨hy, h⟩), BitVec.toInt_srem]

/-! ## The instructions -/

/-- An instruction whose meaning is `alu2` of `f` computes `f`. -/
theorem computes2_of_alu2 {i : Instr} {m : Stream} {d a b : Spec} {f : Word → Word → Word} (hm : i.stream = m)
    (h : ∀ s, exec i s = alu2 i m d a b f s) : Computes2 i m d a b f := by
  intro s s1 s2 t va vb h0 ha hb hd
  rw [h, alu2_next h0 ha hb hd, hm]

end Sys2Proof.Machine

namespace Sys2Proof
open Machine

/-- Settles O13 with the four functions of the model: the saturated cases by evaluation, every other one by the
division of the integers that the operands stand for. -/
theorem divisionSaturates : Obligations.DivisionSaturates := by
  unfold Obligations.DivisionSaturates
  refine ⟨divS, remS, divU, remU, fun m d a b => ⟨?_, ?_, ?_, ?_⟩, divS_zero, divU_zero, remS_zero, remU_zero,
    divS_min_neg_one, remS_min_neg_one, fun x y hy => ⟨toNat_divU hy, toNat_remU hy, ?_⟩,
    fun x y hy h => ⟨toInt_divS hy h, toInt_remS hy h, ?_⟩, fun x y => saturated_marked⟩
  · exact computes2_of_alu2 rfl (exec_div m d a b)
  · exact computes2_of_alu2 rfl (exec_rem m d a b)
  · exact computes2_of_alu2 rfl (exec_divu m d a b)
  · exact computes2_of_alu2 rfl (exec_remu m d a b)
  · rw [toNat_divU hy, toNat_remU hy, Nat.div_add_mod]
  · rw [toInt_divS hy h, toInt_remS hy h, Int.mul_tdiv_add_tmod]

end Sys2Proof
end

section
/-! PROOFS. `mzero`: what it leaves of the context that issues it and of the rest of the machine (R194). -/

namespace Sys2Proof.Machine

/-! ## What is read of a context and of a scratchpad after an update -/

/-- The agent whose context a word finds is a stream of that context. -/
theorem here_eq_ok {s : State} {site slot : Nat} {c : Ctx} (h : s.here = .ok (site, slot, c)) :
    (∃ m, s.turn = .tile site slot m) ∧ s.ctx? site slot = some c := by
  unfold State.here at h
  split at h
  · cases h
  · rename_i hturn
    split at h
    · rename_i hc
      cases h
      exact ⟨⟨_, hturn⟩, hc⟩
    · cases h

/-- A changed context is read back. -/
theorem State.ctx?_modCtx_self (s : State) (site slot : Nat) (g : Ctx → Ctx) :
    (s.modCtx site slot g).ctx? site slot = (s.ctx? site slot).map g := by
  unfold State.modCtx
  split
  · rename_i c hc
    rw [State.ctx?_setCtx_self s (g c) (State.ctx?_slot hc), hc, Option.map_some]
  · rename_i hc
    rw [hc, Option.map_none]

/-- A change of a tile that leaves its contexts alone changes none of them. -/
theorem State.ctx?_modTile {s : State} {site : Nat} {g : Tile → Tile} (hg : (g (s.tile site)).ctxs = (s.tile site).ctxs)
    (slot : Nat) : (s.modTile site g).ctx? site slot = s.ctx? site slot := by
  unfold State.ctx?
  rw [State.tile_modTile_self, hg]

/-- A change of a tile that leaves its scratchpad alone changes no scratchpad. -/
theorem State.spad_modTile {s : State} {site : Nat} {g : Tile → Tile} (hg : (g (s.tile site)).spad = (s.tile site).spad)
    (n : Nat) : ((s.modTile site g).tile n).spad = (s.tile n).spad := by
  by_cases hn : n = site
  · rw [hn, State.tile_modTile_self, hg]
  · rw [State.tile_modTile_ne s g hn]

@[simp] theorem State.spad_modCtx (s : State) (site slot : Nat) (g : Ctx → Ctx) (n : Nat) :
    ((s.modCtx site slot g).tile n).spad = (s.tile n).spad := by
  unfold State.modCtx
  split
  · exact State.spad_modTile (by rfl) n
  · rfl

@[simp] theorem Tile.count_ctxs (t : Tile) (ev k : Nat) : (t.count ev k).ctxs = t.ctxs := by
  unfold Tile.count
  split <;> rfl

@[simp] theorem Tile.count_spad (t : Tile) (ev k : Nat) : (t.count ev k).spad = t.spad := by
  unfold Tile.count
  split <;> rfl

/-! ## The retirement of a C-stream word -/

@[simp] theorem Ctx.retireC_acc (c : Ctx) : c.retireC.acc = c.acc := by
  unfold Ctx.retireC
  split
  · rfl
  · split_ifs <;> rfl

@[simp] theorem Ctx.retireC_mstat (c : Ctx) : c.retireC.mstat = c.mstat := by
  unfold Ctx.retireC
  split
  · rfl
  · split_ifs <;> rfl

section
variable {s : State} {site slot : Nat} {m : Stream} (hturn : s.turn = .tile site slot m)
include hturn

theorem State.retire_C : s.retire .C = (s.modCtx site slot Ctx.retireC).modTile site (·.count 2 1) := by
  simp only [State.retire, hturn]

theorem State.ctx?_retire_C : (s.retire .C).ctx? site slot = (s.ctx? site slot).map Ctx.retireC := by
  rw [State.retire_C hturn, State.ctx?_modTile (Tile.count_ctxs _ _ _), State.ctx?_modCtx_self]

theorem State.mem_retire_C : (s.retire .C).mem = s.mem := by
  rw [State.retire_C hturn, State.modTile_mem, State.modCtx_mem]

theorem State.spad_retire_C (n : Nat) : ((s.retire .C).tile n).spad = (s.tile n).spad := by
  rw [State.retire_C hturn, State.spad_modTile (Tile.count_spad _ _ _), State.spad_modCtx]

end

/-! ## The array held -/

@[simp] theorem State.ctx?_holdArray (s : State) (site slot ticks : Nat) :
    (s.holdArray site slot ticks).ctx? site slot = s.ctx? site slot := State.ctx?_modTile (by rfl) slot

@[simp] theorem State.spad_holdArray (s : State) (site slot ticks n : Nat) :
    ((s.holdArray site slot ticks).tile n).spad = (s.tile n).spad := State.spad_modTile (by rfl) n

@[simp] theorem State.mem_holdArray (s : State) (site slot ticks : Nat) : (s.holdArray site slot ticks).mem = s.mem := rfl

@[simp] theorem State.turn_holdArray (s : State) (site slot ticks : Nat) : (s.holdArray site slot ticks).turn = s.turn := rfl

/-! ## The cleared patterns -/

@[simp] theorem accEl_zero (i j : Nat) : accEl 0 i j = 0 := by
  simp [accEl]

/-- The element of a packed list at its place. -/
theorem packElems_div_mod (size : Nat) {l : List Nat} {i : Nat} (h : i < l.length) :
    packElems size l / 2 ^ (8 * size * i) % 2 ^ (8 * size) = l[i] % 2 ^ (8 * size) := by
  induction l generalizing i with
  | nil => cases h
  | cons e r ih =>
    cases i with
    | zero => simp [packElems]
    | succ i =>
      have hdiv : packElems size (e :: r) / 2 ^ (8 * size) = packElems size r := by
        rw [packElems, Nat.add_mul_div_left _ _ (Nat.two_pow_pos _), Nat.div_eq_of_lt (Nat.mod_lt _ (Nat.two_pow_pos _)),
          Nat.zero_add]
      rw [Nat.mul_succ, Nat.add_comm, Nat.pow_add, ← Nat.div_div_eq_div_mul, hdiv, List.getElem_cons_succ]
      exact ih (Nat.lt_of_succ_lt_succ h)

/-- A part of a number below bit `w` does not depend on what is above. -/
theorem mod_two_pow_div_mod {o n w : Nat} (h : o + n ≤ w) (x : Nat) :
    x % 2 ^ w / 2 ^ o % 2 ^ n = x / 2 ^ o % 2 ^ n := by
  obtain ⟨r, rfl⟩ := Nat.exists_eq_add_of_le h
  rw [Nat.add_assoc, Nat.pow_add, Nat.mod_mul_right_div_self, Nat.pow_add, Nat.mod_mul_right_mod]

/-- The bits that a word takes from a number. -/
theorem toNat_extractLsb'_ofNat {o n w : Nat} (h : o + n ≤ w) (x : Nat) :
    ((BitVec.ofNat w x).extractLsb' o n).toNat = x / 2 ^ o % 2 ^ n := by
  rw [BitVec.extractLsb'_toNat, BitVec.toNat_ofNat, Nat.shiftRight_eq_div_pow, mod_two_pow_div_mod h]

/-- A field of a row, by the number that the row is. -/
theorem mstatFill_field {i o : Nat} (row : Nat) (hi : i < 128) (ho : o + 32 ≤ 96) :
    ((mstatFill row).extractLsb' (96 * i + o) 32).toNat = row / 2 ^ o % 2 ^ 32 := by
  have hfit : 96 * i + o + 32 ≤ 12288 := by omega
  have hrow : packElems 12 (List.replicate 128 row) / 2 ^ (96 * i) % 2 ^ 96 = row % 2 ^ 96 :=
    (packElems_div_mod 12 (by rwa [List.length_replicate])).trans (by rw [List.getElem_replicate])
  rw [mstatFill, toNat_extractLsb'_ofNat hfit, Nat.pow_add, ← Nat.div_div_eq_div_mul, ← mod_two_pow_div_mod ho, hrow,
    mod_two_pow_div_mod ho]

/-- Every row of a cleared mstat has MAX −∞, SUM +0 and CORR 1.0. -/
theorem mrow_mstatFill_mstatRow0 {i : Nat} (hi : i < 128) :
    mrow (mstatFill mstatRow0) i = ⟨0xFF800000, 0, 0x3F800000⟩ := by
  have hmax := mstatFill_field (o := 0) mstatRow0 hi (by decide)
  have hsum := mstatFill_field (o := 32) mstatRow0 hi (by decide)
  have hcorr := mstatFill_field (o := 64) mstatRow0 hi (by decide)
  rw [Nat.add_zero] at hmax
  simp only [mrow, hmax, hsum, hcorr]
  rfl

/-! ## The context that `mzero` leaves -/

/-- A context with bank `k` cleared as `mzero` does it on a tile of class `cls` (R194). -/
def Ctx.zeroBank (cls : TileClass) (k : Nat) (c : Ctx) : Ctx :=
  { c with acc := vput c.acc k 0
           mstat := if cls == TileClass.at then vput c.mstat k (mstatFill mstatRow0) else c.mstat }.unmark (.bank k)

@[simp] theorem Ctx.unmark_acc (c : Ctx) (u : RegUnit) : (c.unmark u).acc = c.acc := by
  unfold Ctx.unmark
  split <;> rfl

@[simp] theorem Ctx.unmark_mstat (c : Ctx) (u : RegUnit) : (c.unmark u).mstat = c.mstat := by
  unfold Ctx.unmark
  split <;> rfl

@[simp] theorem Ctx.zeroBank_acc (cls : TileClass) (k : Nat) (c : Ctx) : (c.zeroBank cls k).acc = vput c.acc k 0 :=
  Ctx.unmark_acc _ _

theorem Ctx.zeroBank_mstat_at (k : Nat) (c : Ctx) :
    (c.zeroBank .at k).mstat = vput c.mstat k (mstatFill mstatRow0) := Ctx.unmark_mstat _ _

theorem Ctx.zeroBank_mstat_of_ne {cls : TileClass} (h : cls ≠ .at) (k : Nat) (c : Ctx) :
    (c.zeroBank cls k).mstat = c.mstat := by
  simp [Ctx.zeroBank, h]

/-- The mstat of every other bank stays on a tile of any class. -/
theorem Ctx.zeroBank_mstat_other (cls : TileClass) {k n : Nat} (h : n ≠ k) (c : Ctx) :
    vget 0 (c.zeroBank cls k).mstat n = vget 0 c.mstat n := by
  by_cases hcls : cls = .at
  · rw [hcls, zeroBank_mstat_at, vget_vput_ne _ _ _ h]
  · rw [zeroBank_mstat_of_ne hcls]

/-- The state after an `mzero` that issues with the array free. -/
def State.zeroedBank (s : State) (site slot k : Nat) : State :=
  ((s.modCtx site slot (Ctx.zeroBank (siteClass site) k)).holdArray site slot 4).retire .C

theorem exec_mzero_next {k : BitVec 3} {s : State} {site slot : Nat} {c : Ctx} (hissue : s.issue (.mzero k) = .ok ())
    (hhere : s.here = .ok (site, slot, c)) (hfree : (s.tile site).arrayFree slot = true) :
    exec (.mzero k) s = .next (s.zeroedBank site slot k.toNat) := by
  rw [exec_mzero, execMzero]
  exact word_next hissue (by simp only [hhere, Try.ok_bind, hfree, await_true]; rfl)

section
variable {s : State} {site slot : Nat} {m : Stream} (hturn : s.turn = .tile site slot m) (k : Nat)
include hturn

theorem State.ctx?_zeroedBank {c : Ctx} (hc : s.ctx? site slot = some c) :
    (s.zeroedBank site slot k).ctx? site slot = some (c.zeroBank (siteClass site) k).retireC := by
  rw [State.zeroedBank, State.ctx?_retire_C (by simpa using hturn), State.ctx?_holdArray, State.ctx?_modCtx_self, hc]
  rfl

theorem State.mem_zeroedBank : (s.zeroedBank site slot k).mem = s.mem := by
  rw [State.zeroedBank, State.mem_retire_C (by simpa using hturn), State.mem_holdArray, State.modCtx_mem]

theorem State.spad_zeroedBank (n : Nat) : ((s.zeroedBank site slot k).tile n).spad = (s.tile n).spad := by
  rw [State.zeroedBank, State.spad_retire_C (by simpa using hturn), State.spad_holdArray, State.spad_modCtx]

end

end Sys2Proof.Machine

namespace Sys2Proof
open Machine

/-- Settles O41 with the context that `exec_mzero_next` answers: its accumulators and mstat differ from those it had in
the one bank, and a retirement touches neither. -/
theorem mzeroClearsABank : Obligations.MzeroClearsABank := by
  unfold Obligations.MzeroClearsABank
  intro k s site slot c hissue hhere hfree
  obtain ⟨⟨m, hturn⟩, hc⟩ := here_eq_ok hhere
  refine ⟨_, _, exec_mzero_next hissue hhere hfree, State.ctx?_zeroedBank hturn _ hc, fun i j _ _ => ?_, fun n hn => ?_,
    fun hat hk i hi => ?_, fun hat => ?_, fun n hn => ?_, State.mem_zeroedBank hturn _, State.spad_zeroedBank hturn _⟩
  · rw [Ctx.retireC_acc, Ctx.zeroBank_acc, vget_vput_self _ _ _ _ k.isLt, accEl_zero]
  · rw [Ctx.retireC_acc, Ctx.zeroBank_acc, vget_vput_ne _ _ _ hn]
  · rw [Ctx.retireC_mstat, hat, Ctx.zeroBank_mstat_at, vget_vput_self _ _ _ _ hk, mrow_mstatFill_mstatRow0 hi]
  · rw [Ctx.retireC_mstat, Ctx.zeroBank_mstat_of_ne hat]
  · rw [Ctx.retireC_mstat, Ctx.zeroBank_mstat_other _ hn]

end Sys2Proof
end
